-- ==== Sys2Proof/Word.lean ====
section
/-! DEFINITION. The word types of the SL4 model and the plain data that commands carry as operands:
what a command says about the physical world (bit upsets, samples, packets), never how the device reacts. -/

namespace Sys2Proof

/-- One byte. -/
abbrev Byte := BitVec 8
/-- A 32-bit register, Quill word or FP32 bit pattern (R7, R154). -/
abbrev Word32 := BitVec 32
/-- A 64-bit quantity (R8). -/
abbrev Word64 := BitVec 64
/-- One Inkwell, Litter window or HBM row of 512 bytes (R99): byte k is bits 8k + 7 to 8k. -/
abbrev Row := BitVec 4096
/-- One tile row of 64 FP32 lanes (R132): lane c is bits 32c + 31 to 32c. -/
abbrev Lanes := BitVec 2048
/-- A 64-byte Drurid unit (R266): byte k is bits 8k + 7 to 8k. -/
abbrev LinkUnit := BitVec 512

/-- A bit upset in a stored 128-bit word of a nib's row: the data bits and code bits that flip (R106). -/
structure Upset where
  /-- local row index of R100 -/
  row  : Fin 4608
  word : Fin 32
  data : BitVec 128
  code : Byte
  deriving DecidableEq, Repr

/-- The stored error of one 144-bit HBM codeword (R228, R229). -/
inductive CwErr where
  /-- one bit: the code corrects it -/
  | single
  /-- two bits or one aligned nibble: uncorrectable -/
  | double
  /-- written poisoned (R229) -/
  | poison
  deriving DecidableEq, Repr

/-- An error that has come about in the codeword `cw` (its DPA divided by 16): in the row's cache line or in the stack. -/
structure CwHit where
  cw   : BitVec 36
  line : Bool
  kind : CwErr
  deriving DecidableEq, Repr

/-- What the Understory samples in one tick (R322, R343, R358, R364, R408, R449, R451). -/
structure TickIn where
  /-- energy of the module in the tick, microjoules -/
  totalUj : Nat
  /-- energy of each grove in the tick, microjoules -/
  groveUj : Vector Nat 64
  /-- the 72 sensors of R364, degrees Celsius -/
  temps   : Vector Nat 72
  /-- the eight rails, mV -/
  railMv  : Vector Nat 8
  /-- the eight stacks, degrees Celsius -/
  stackC  : Vector Nat 8
  /-- margin reports of awake physical nibs, percent -/
  margins : List (Fin 1088 × Nat)
  /-- input voltage in mV and current in mA -/
  inMv    : Nat
  inMa    : Nat
  /-- what the cable at each connector draws from CBL_PWR, in units of 100 mW; one that would draw more than 3.5 W loses CBL_PWR (R445) -/
  draws   : Vector (Fin 36) 4
  /-- CBL_PRSNT# of each connector: a cable is in (R444) -/
  present : Vector Bool 4
  deriving DecidableEq, Repr

/-- What a management master sends after the code of a block write of four bytes: the data and the packet error code, which it may leave out
(R450, R451). -/
structure MgmtWrite where
  val : Word32
  pec : Option Byte
  deriving DecidableEq, Repr

/-- One training frame received in NEGOTIATE (R272): the receive lane, the transmitter lane number it announces,
whether the pattern came inverted. -/
structure Frame where
  rx       : Fin 9
  tx       : Fin 9
  inverted : Bool
  deriving DecidableEq, Repr

/-- What the partner's frames and reports say of it in NEGOTIATE (R272, R273). -/
structure PeerCaps where
  maxRate  : BitVec 2
  minWidth : BitVec 2
  /-- our transmit lanes that the partner receives well -/
  txGood   : BitVec 9
  deriving DecidableEq, Repr

/-- A codeword after forward error correction (R266, R268). -/
structure Codeword where
  /-- false: uncorrectable -/
  good      : Bool
  /-- the partner numbers it among the codewords of its IDENTIFY, which are numbered apart (DESIGN CHOICE, log 122) -/
  ident     : Bool
  /-- the correction changed symbols -/
  corrected : Bool
  /-- symbol errors before correction on each receive lane (R279) -/
  symErrs   : Vector Nat 9
  seq       : Fin 512
  ack       : Fin 512
  nak       : Bool
  units     : Vector LinkUnit 10
  deriving DecidableEq, Repr

/-- How the host unmasks an MSI-X vector (R377). -/
inductive Unmask where
  /-- the table entry's Vector Control bit -/
  | entry (vec : Fin 64)
  /-- the function's configuration space: its Command word and its MSI-X Control word -/
  | control (command control : BitVec 16)
  deriving DecidableEq, Repr

/-- The host resets of R378, with their BOOT_FAULT_DETAIL. -/
inductive HostResetKind where
  | perst | hot | linkDown | pfFlr
  deriving DecidableEq, Repr

/-- A PLL of the device that is not a grove's (R344). -/
inductive FabricPll where
  | fclk | mclk | pclk
  deriving DecidableEq, Repr

/-- What ends a sweep (R408, R409): failing rows as (physical nib, local row), and physical nibs that fail outside rows. -/
structure SweepFind where
  rows : List (Fin 1088 × Fin 4608)
  /-- unused redundant rows found bad: physical nib, bank (16 and 17 are the Litter window's), redundant row -/
  spares : List (Fin 1088 × Fin 18 × Fin 4)
  nibs : List (Fin 1088)
  deriving DecidableEq, Repr

end Sys2Proof
end

