-- ==== Sys2Proof/Syntax.lean ====
section
/-! DEFINITION. The commands of the SL4: one constructor for each row of spec/opcode_table.json, in the table's order,
with operands of the model's own (the table gives its rows none). Units are named by `Fin`, so a command cannot name a unit
that does not exist. -/

namespace Sys2Proof

/-- One step of the part, whole and indivisible (95_what_each_step_holds.md). -/
inductive Instr where
  -- register access (R7 to R11, R428 to R441)
  /-- function, BAR0 offset, value -/
  | registerWrite (fn : Fin 16) (off : BitVec 28) (val : Word32)
  /-- function, offset, size in bytes, whether it is a write -/
  | narrowAccess (fn : Fin 16) (off : BitVec 28) (size : Nat) (write : Bool)
  | lowWordRead (fn : Fin 16) (off : BitVec 28)
  /-- `inc`: what the hardware adds in the cycle of the read (R10) -/
  | counterRead (fn : Fin 16) (off : BitVec 28) (inc : Word32)
  /-- `set`: bits the hardware sets in the cycle of the write (R10) -/
  | eventClear (off : BitVec 28) (val set : Word32)
  | eventEnWrite (off : BitVec 28) (val : Word32)
  | evtEnSet (vec : BitVec 6)
  | msixUnmask (fn : Fin 16) (how : Unmask)
  -- bring-up and security (R372 to R401, R413 to R416)
  | arm
  | verifyComplete
  | disarm
  | disarmDone
  | mapGo
  /-- the stack that failed to train, if one did -/
  | mapApplied (failed : Option (Fin 8))
  | selfMap
  /-- the entries the self-test found -/
  | selfMapDone (entries : List Word64) (failed : Option (Fin 8))
  | imgGo
  | imageVerified
  | keyLoad (slot : BitVec 2)
  | keyParsed
  | keyClear (slot : BitVec 2)
  | attGo
  | attDone
  | sptGo
  | spatterDone
  | ptInv (ctx : Fin 256)
  | invDone
  -- contexts (R311 to R342)
  | ctxEnable (fn : Fin 16) (ctx : Fin 256)
  | kill (fn : Fin 16) (ctx : Fin 256)
  | killDone (ctx : Fin 256)
  | release (fn : Fin 16) (ctx : Fin 256)
  | evict (fn : Fin 16) (ctx : Fin 256)
  /-- the high word of HEAD_VA -/
  | headVaWrite (fn : Fin 16) (ctx : Fin 256) (hi : Word32)
  | watchWake (ctx : Fin 256)
  | pwrCfgWrite (val : Word32)
  -- ports by register (R271, R277)
  | portEnable (p : Fin 16) (en : Bool)
  | portRetrainCmd (p : Fin 16)
  | portDownCmd (p : Fin 16)
  -- BAR2 (R376)
  | bar2Read (fn : Fin 16) (off : BitVec 36) (len : Nat)
  | bar2Write (fn : Fin 16) (off : BitVec 36) (data : List Byte)
  -- management bus (R450, R451)
  | fruRead (off : Byte)
  | ident
  | state
  | input
  | temp
  | rails
  | mevent
  | cables
  | meventClr (val : MgmtWrite)
  -- power, resets, supply (R344 to R365, R378, R445 to R448)
  | powerOn
  | understoryRelease
  | modEnAssert
  | pwrgdRelease
  | modEnDeassert
  | inputPowerLoss
  | perstDeassert
  | configReady
  | linkTrained (rate : BitVec 3) (width : BitVec 5) (flit : Bool)
  | hostReset (kind : HostResetKind)
  | vfFlr (vf : Fin 16)
  | pwrBrakeAssert
  | pwrBrakeRelease
  | cblOverload (k : Fin 4)
  | railWarning (rail : Fin 8) (mv : BitVec 12)
  | railRecover (mv : Vector (BitVec 12) 8)
  /-- UCLK cycles each rail spent below its warning threshold -/
  | dipRecoveryEnd (below : Vector Nat 8)
  | supplySuspect (rail : Fin 8) (mv : BitVec 12)
  | supplyReset (rail : Fin 8)
  | vaonReset
  | fabricUnlock (pll : FabricPll)
  | deviceStopped
  | pllLockTimeout (g : Fin 64)
  | pllLockLoss (g : Fin 64)
  -- Ranger, groves, layers, sparing (R322 to R350, R403 to R421)
  | understoryTick (tick : TickIn)
  | plotSaveDone (ctx : Fin 256) (detect : Bool)
  | ctxEvict
  | groveSleep (g : Fin 64)
  | groveSleepDone (g : Fin 64)
  /-- UCLK cycles the PLL took to lock -/
  | groveWakeDone (g : Fin 64) (lock : Nat)
  | layerStart (ctx : Fin 256)
  | layerEnd (ctx : Fin 256)
  | groveScrubDone (g : Fin 64)
  /-- rows whose pattern check of R409 finds a mismatch, as (physical nib, local row) -/
  | replay (ctx : Fin 256) (stuck : List (Fin 1088 × Fin 4608))
  | marginLow (nib : Fin 1088)
  /-- the logical nib whose physical nib retires -/
  | nibTransplant (nib : Fin 1024)
  /-- the retired grove, its replacement -/
  | groveReplace (old new : Fin 64)
  | sweep
  | sweepEnd (g : Fin 64) (find : SweepFind)
  -- the Quill core (R154 to R160); the operand is the logical nib
  | aluAdd (nib : Fin 1024)
  | aluSub (nib : Fin 1024)
  | aluAnd (nib : Fin 1024)
  | aluOr (nib : Fin 1024)
  | aluXor (nib : Fin 1024)
  | aluSll (nib : Fin 1024)
  | aluSrl (nib : Fin 1024)
  | aluSra (nib : Fin 1024)
  | aluMul (nib : Fin 1024)
  | aluSlt (nib : Fin 1024)
  | aluSltu (nib : Fin 1024)
  | aluFlt (nib : Fin 1024)
  | aluFeq (nib : Fin 1024)
  | aluFadd (nib : Fin 1024)
  | aluFmul (nib : Fin 1024)
  | addi (nib : Fin 1024)
  | lui (nib : Fin 1024)
  | lw (nib : Fin 1024)
  | sw (nib : Fin 1024)
  | beq (nib : Fin 1024)
  | bne (nib : Fin 1024)
  | blt (nib : Fin 1024)
  | bge (nib : Fin 1024)
  | jal (nib : Fin 1024)
  | jalr (nib : Fin 1024)
  | mxq (nib : Fin 1024)
  | vxq (nib : Fin 1024)
  | dma (nib : Fin 1024)
  | wsig (nib : Fin 1024)
  | wsigDone (nib : Fin 1024)
  | wtag (nib : Fin 1024)
  | wtagDone (nib : Fin 1024)
  | rsum (nib : Fin 1024)
  | rsumDone (nib : Fin 1024)
  | csrr (nib : Fin 1024)
  | csrw (nib : Fin 1024)
  | vwait (nib : Fin 1024)
  | vwaitDone (nib : Fin 1024)
  | strandEnd (nib : Fin 1024)
  -- watchdogs (R88, R125, R159, R165, R262)
  | issueStall (nib : Fin 1024)
  | quillWait (nib : Fin 1024)
  | vecStall (nib : Fin 1024)
  | dmaStall (nib : Fin 1024) (desc : Nat)
  | scrStall (mc : Fin 8)
  -- the matrix queue (R76 to R90, R194 to R204)
  | mmaIssue (nib : Fin 1024) (ups : List Upset)
  /-- whether GATHER_TIMEOUT cycles have passed (R90) -/
  | gatherPass (nib : Fin 1024) (timedOut : Bool) (ups : List Upset)
  | sparseMmaIssue (nib : Fin 1024) (ups : List Upset)
  | readoutIssue (nib : Fin 1024)
  | accclrIssue (nib : Fin 1024)
  -- the vector queue (R133 to R153)
  | vadd (nib : Fin 1024)
  | vsub (nib : Fin 1024)
  | vmul (nib : Fin 1024)
  | vfma (nib : Fin 1024)
  | vmax (nib : Fin 1024)
  | vmin (nib : Fin 1024)
  | vabs (nib : Fin 1024)
  | vneg (nib : Fin 1024)
  | vrcp (nib : Fin 1024)
  | vsqrt (nib : Fin 1024)
  | vrsqrt (nib : Fin 1024)
  | vexp2 (nib : Fin 1024)
  | vlog2 (nib : Fin 1024)
  | vcmplt (nib : Fin 1024)
  | vsel (nib : Fin 1024)
  | vfn (nib : Fin 1024)
  | vmov (nib : Fin 1024)
  | vrng (nib : Fin 1024)
  | vld (nib : Fin 1024) (ups : List Upset)
  | vst (nib : Fin 1024) (ups : List Upset)
  | vpop (nib : Fin 1024)
  | vredr (nib : Fin 1024)
  | vredc (nib : Fin 1024)
  | vsum (nib : Fin 1024)
  | vtload (nib : Fin 1024) (ups : List Upset)
  -- the DMA engine (R108 to R127, R218); `desc` is the descriptor's place in program order
  | descHbmRead (nib : Fin 1024) (desc : Nat)
  | descHbmWrite (nib : Fin 1024) (desc : Nat) (ups : List Upset)
  | descLocalCopy (nib : Fin 1024) (desc : Nat) (ups : List Upset)
  | push (nib : Fin 1024) (desc : Nat) (ups : List Upset)
  | pull (nib : Fin 1024) (desc : Nat)
  | ptWalk (nib : Fin 1024) (desc : Nat)
  /-- `row`: the descriptor's row i -/
  | dmaRowLand (nib : Fin 1024) (desc row : Nat)
  | descriptorComplete (nib : Fin 1024) (desc : Nat)
  | remotePushArrive (nib : Fin 1024) (desc row : Nat)
  /-- `nib` and `desc` name the pulling nib's descriptor -/
  | pullServe (nib : Fin 1024) (desc row : Nat) (ups : List Upset)
  -- the Canopy (R23 to R31)
  /-- the flit, whether its CRC holds, the wire the seam margin monitor names -/
  | flitArrive (flit : Nat) (crcOk : Bool) (wire : Fin 568)
  | seamErrorThreshold (link : BitVec 8) (wire : Fin 568)
  | seamSwitch (link : BitVec 8)
  -- memory controllers (R214 to R234, R454)
  | mcRequest (nib : Fin 1024) (desc : Nat)
  | bankBusyRetry (nib : Fin 1024) (desc : Nat)
  /-- controller, tag, whether the bank's oldest miss has waited AGE_LIMIT × 16 MCLK cycles, errors that have come about in the
  controller's stack and lines since its last command -/
  | mcRead (mc : Fin 8) (tag : Fin 4096) (aged : Bool) (errs : List CwHit)
  | patrolRead (mc : Fin 8) (errs : List CwHit)
  /-- bank 0 to 1,023 (pseudo-channel × 16 + bank) and the stack's temperature -/
  | refresh (mc : Fin 8) (bank : Fin 1024) (stackC : Nat)
  /-- whether a soft repair, where the bank's resource is free, held -/
  | pprDone (mc : Fin 8) (held : Bool)
  | stackFail (mc : Fin 8)
  -- the Scribe (R237 to R263)
  /-- Scribe, context, descriptor index, group (or list entry of a lazy tensor) -/
  | scribeGroupDone (mc : Fin 8) (ctx : Fin 256) (desc : Nat) (group : Nat)
  | updateCommit (ctx : Fin 256)
  -- the Ligature engine (R285 to R310); the packet is the head of the port's receive buffer
  | bucketAgreeing
  | stepClose
  | scale (p : Fin 16)
  | agreed (p : Fin 16)
  | partialPkt (p : Fin 16)
  | param (p : Fin 16)
  | close (p : Fin 16)
  | verdict (p : Fin 16)
  | abort (p : Fin 16)
  | stepTimeout
  -- Drurid ports (R264 to R284)
  | signalDetect (p : Fin 16)
  | trainingFrame (p : Fin 16) (frames : List Frame) (peer : PeerCaps)
  | negotiateTimeout (p : Fin 16)
  /-- symbol errors in 2^20 symbols of each receive lane and, as the partner reports, of each transmit lane -/
  | equalizeCandidateEnd (p : Fin 16) (rxErrs txErrs : Vector Nat 9)
  | identityBlock (p : Fin 16)
  | identifyTimeout (p : Fin 16)
  | idHoldEnd (p : Fin 16)
  | lossOfSignal (p : Fin 16)
  | codewordReceive (p : Fin 16) (cw : Codeword)
  | retrainTimeout (p : Fin 16)
  /-- receive lane -/
  | laneErrorThreshold (p : Fin 16) (lane : Fin 9)
  /-- our transmit lane that the partner retires -/
  | spareReq (p : Fin 16) (lane : Fin 9)
  /-- the partner's transmit lane and the codeword number of the switch -/
  | spareAck (p : Fin 16) (lane : Fin 9) (sq : Fin 512)
  | inputUv (mv : BitVec 16)
  | vfEnable (mask : BitVec 16)
  deriving DecidableEq, Repr

end Sys2Proof
end

