-- ==== Sys2Proof/WellFormed.lean ====
section
/-! DEFINITION. Which command terms name an access of their row's kind. Every other operand is bounded by its type. -/

namespace Sys2Proof

/-- A narrow or unaligned BAR0 access: not an aligned access of 32 or 64 bits (R7, R429). An aligned wider one is taken with
them (DESIGN CHOICE, log 127). -/
def narrowOk (off size : Nat) : Bool :=
  decide (0 < size) && !(size == 4 && off % 4 == 0) && !(size == 8 && off % 8 == 0)

/-- A well-formed command. -/
def WellFormed : Instr → Bool
  | .narrowAccess _ off size _ => narrowOk off.toNat size
  | .bar2Read _ _ len => decide (0 < len)
  | .bar2Write _ _ data => decide (0 < data.length)
  | _ => true

end Sys2Proof
end

