-- ==== Sys2Proof/Decode.lean ====
section
/-! DEFINITION. Words of the table. No row of spec/opcode_table.json gives its command any bits, so no word spells one. -/

namespace Sys2Proof

/-- The command that a word of the table spells: none, since no row has bits. -/
def decodeTableWord (_nbits _w : Nat) : Option Instr := none

end Sys2Proof
end

