-- ==== Sys2Proof/Config.lean ====
section
/-! DEFINITION. What the manual leaves open or names without stating: uninterpreted constants with no body.
Nothing in Lean can evaluate them, so a claim about the model holds whatever they are. -/

namespace Sys2Proof.Config

/-- UCLK cycles from the moment before to the n-th moment at which an open value is taken, or to a read of UCLK_COUNT there (R61, R347): how much
time a command takes is not modelled. DESIGN CHOICE, log 9. -/
opaque uclkInTick : Nat → Nat

/-- A timing-dependent counter's value at the n-th read (R61: BUSY, WAIT, ARB, COLLIDE, FTQ_FULL, CYCLE and their like).
DESIGN CHOICE, log 9. -/
opaque timing : Nat → Word32

/-- A byte of HBM whose contents the manual leaves open, by the number of the open range and the address (R331, R362, R378). DESIGN CHOICE, log 8. -/
opaque hbmUndefined : Nat → Nat → Byte

/-- Falcon-1024 verification with SHAKE256 hashing, by public key, message and signature (R274, R382, R383).
DESIGN CHOICE, log 11. -/
opaque falconVerify : List Byte → List Byte → List Byte → Bool

/-- Whether 1,793 bytes parse as a Falcon-1024 public key (R381). DESIGN CHOICE, log 11. -/
opaque keyParses : List Byte → Bool

/-- The identity key's Falcon-1024 signature over a message, the n-th made (R392). DESIGN CHOICE, log 11. -/
opaque identSign : Nat → List Byte → List Byte

/-- The n-th nonce of the security block's physical random source (R274, R392). DESIGN CHOICE, log 11. -/
opaque nonce : Nat → BitVec 256

/-- Which of two neighbouring FP32 numbers VEXP2 or VLOG2 rounds to, by operand, where the model's bounds of the exact value do not settle
it (R133). DESIGN CHOICE, log 15. -/
opaque roundOpen : Word32 → Bool

/-- NORM of a clipped descriptor as a member that is not the leader has it from a verdict, by step, descriptor and the verdict's clip factors
(R299, R307). DESIGN CHOICE, log 32. -/
opaque verdictNorm : Nat → Nat → List Nat → Word32

/-- NORM_SAT of such a descriptor there: whether the circle's total was clamped (R246). DESIGN CHOICE, log 32. -/
opaque verdictSat : Nat → Nat → List Nat → Bool

/-- Whether the spare nib that is swept alone before it is inserted passes its sweep, by the number of the open value (R410). DESIGN CHOICE,
log 38. -/
opaque spareSweepOk : Nat → Bool

/-- Whether the pattern check finds a row of a physical nib bad at the restart of a layer whose saved plot had an error, by the number of the
open value, the nib and the row (R404, R409). DESIGN CHOICE, log 162. -/
opaque rowStuck : Nat → Nat → Nat → Bool

/-- Whether an accumulator to which 255 event indications may belong is still full at the n-th indication: the Understory has not taken it
(R357). DESIGN CHOICE, log 120. -/
opaque xingFull : Nat → Bool

/-- The item that a NaN element contributes in BS8 mode, by step and place in the step (R296). DESIGN CHOICE, log 140. -/
opaque nanItem : Nat → Nat → BitVec 8

/-- A 32-bit free value for the n-th open value (an unstated result). DESIGN CHOICE, log 13. -/
opaque freeWord : Nat → Word32

end Sys2Proof.Config
end

