-- ==== Sys2Proof/Machine/Tab.lean ====
section
/-! DEFINITION. Sparse tables: a list of (key, value) pairs with strictly rising keys and no value equal to the default,
so that equal tables are equal lists. -/

namespace Sys2Proof.Machine

/-- A sparse table; a key that is not listed holds the default of the place where the table is used. -/
abbrev Tab (α : Type) := List (Nat × α)

/-- The listed value. -/
def tabFind? {α : Type} : Tab α → Nat → Option α
  | [], _ => none
  | (k, v) :: t, i => if k = i then some v else tabFind? t i

/-- The value at a key. -/
def tabGet {α : Type} (d : α) (t : Tab α) (i : Nat) : α := (tabFind? t i).getD d

/-- List a value at a key, whatever it is. -/
def tabInsert {α : Type} : Tab α → Nat → α → Tab α
  | [], i, v => [(i, v)]
  | (k, w) :: t, i, v =>
    if i < k then (i, v) :: (k, w) :: t
    else if i = k then (i, v) :: t
    else (k, w) :: tabInsert t i v

/-- Take a key out. -/
def tabErase {α : Type} : Tab α → Nat → Tab α
  | [], _ => []
  | (k, w) :: t, i => if i = k then t else (k, w) :: tabErase t i

/-- Write a value at a key; the default is not listed. -/
def tabSet {α : Type} [DecidableEq α] (d : α) (t : Tab α) (i : Nat) (v : α) : Tab α :=
  if v = d then tabErase t i else tabInsert t i v

/-- Keys from `lo` on rise strictly and no listed value is the default. -/
def tabWfFrom {α : Type} [DecidableEq α] (d : α) : Nat → Tab α → Bool
  | _, [] => true
  | lo, (k, v) :: t => decide (lo ≤ k) && decide (v ≠ d) && tabWfFrom d (k + 1) t

/-- The canonical form. -/
def tabWf {α : Type} [DecidableEq α] (d : α) (t : Tab α) : Bool := tabWfFrom d 0 t

/-- Remove every key of [lo, hi). -/
def tabDrop {α : Type} (t : Tab α) (lo hi : Nat) : Tab α := t.filter (fun p => p.1 < lo || hi ≤ p.1)

/-! ## Bit fields of words -/

/-- Bits hi to lo of a number. -/
def bits (v hi lo : Nat) : Nat := v / 2 ^ lo % 2 ^ (hi + 1 - lo)

/-- Bit i of a number. -/
def bit (v i : Nat) : Bool := v / 2 ^ i % 2 == 1

/-- Field hi to lo of a register value replaced. -/
def putBits (v hi lo x : Nat) : Nat :=
  v - bits v hi lo * 2 ^ lo + x % 2 ^ (hi + 1 - lo) * 2 ^ lo

/-- Two's complement of a field. -/
def sbits (v hi lo : Nat) : Int :=
  let x := bits v hi lo
  if x ≥ 2 ^ (hi - lo) then (x : Int) - 2 ^ (hi + 1 - lo) else x

/-- An integer as a w-bit pattern. -/
def wrap (w : Nat) (x : Int) : Nat := (x % (2 ^ w : Nat)).toNat

def satAdd (w a b : Nat) : Nat := min (2 ^ w - 1) (a + b)

/-- n bytes, little-endian. -/
def bytesOf (n v : Nat) : List Byte := (List.range n).map (fun i => BitVec.ofNat 8 (v / 2 ^ (8 * i)))

/-- The number whose bytes are the list, little-endian. -/
def ofBytes : List Byte → Nat
  | [] => 0
  | b :: t => b.toNat + 256 * ofBytes t

end Sys2Proof.Machine
end

