-- ==== Sys2Proof/Machine/Keccak.lean ====
section
/-! DEFINITION. SHAKE256 (R383, R385, R392, R394, R413): the Keccak-f[1600] permutation and the sponge with rate 136 bytes,
as FIPS 202 gives them. PRESUMED, log 16: the manual names SHAKE256 and does not define it. -/

namespace Sys2Proof.Machine

/-- The sponge's 1,600 bits as 25 lanes of 64; lane x of sheet row y stands at 5 y + x. -/
abbrev KState := List Word64

def kLane (a : KState) (x y : Nat) : Word64 := a.getD (5 * (y % 5) + x % 5) 0

/-- A new state, lane by lane from its place. -/
def kBuild (f : Nat → Nat → Word64) : KState := (List.range 25).map (fun i => f (i % 5) (i / 5))

/-- The register that the round constants are read from, after t steps: multiplication by x modulo x⁸ + x⁶ + x⁵ + x⁴ + 1. -/
def kReg : Nat → Nat
  | 0 => 1
  | t + 1 =>
    let r := 2 * kReg t
    if r < 256 then r else r ^^^ 0x171

/-- The constant of a round: seven successive bits of the register, at bits 2^j − 1. -/
def kConst (round : Nat) : Word64 :=
  (List.range 7).foldl (fun c j => if kReg (7 * round + j) % 2 = 1 then c ||| BitVec.ofNat 64 (2 ^ (2 ^ j - 1)) else c) 0

/-- The parity of column x. -/
def kParity (a : KState) (x : Nat) : Word64 := (List.range 5).foldl (fun p y => p ^^^ kLane a x y) 0

/-- Every lane takes in the parities of the columns beside its own. -/
def kMix (a : KState) : KState :=
  let near := (List.range 5).map (fun x => kParity a (x + 4) ^^^ (kParity a (x + 1)).rotateLeft 1)
  kBuild (fun x y => kLane a x y ^^^ near.getD x 0)

/-- Lanes move along the walk (x, y) to (y, 2 x + 3 y) from (1, 0), the t-th turned by the t-th triangular number. -/
def kWalk (a : KState) : Nat → Nat → Nat → Nat → KState → KState
  | 0, _, _, _, out => out
  | left + 1, turn, x, y, out =>
    let y' := (2 * x + 3 * y) % 5
    kWalk a left (turn + (26 - (left + 1))) y y' (out.set (5 * y' + y) ((kLane a x y).rotateLeft (turn % 64)))

/-- One round. -/
def keccakRound (a : KState) (round : Nat) : KState :=
  let m := kMix a
  let w := kWalk m 24 1 1 0 m
  (kBuild (fun x y => kLane w x y ^^^ (kLane w (x + 2) y &&& ~~~ kLane w (x + 1) y))).modify 0 (fun l => l ^^^ kConst round)

def keccakF (a : KState) : KState := (List.range 24).foldl keccakRound a

/-- XOR a block of 136 bytes into the state. -/
def keccakAbsorb (a : KState) (block : List Byte) : KState :=
  let n := ofBytes block
  (List.range 25).map (fun i => a.getD i 0 ^^^ (if i < 17 then BitVec.ofNat 64 (n / 2 ^ (64 * i)) else 0))

def shakeAbsorbAll : Nat → KState → List Byte → KState
  | 0, a, _ => a
  | fuel + 1, a, m =>
    if m.length ≥ 136 then shakeAbsorbAll fuel (keccakF (keccakAbsorb a (m.take 136))) (m.drop 136)
    else
      -- padding of SHAKE: 1111 then pad10*1
      let pad := if m.length = 135 then [(0x9F : Byte)]
        else ((0x1F : Byte) :: List.replicate (134 - m.length) (0 : Byte)) ++ [(0x80 : Byte)]
      keccakF (keccakAbsorb a (m ++ pad))

/-- The first 32 bytes of SHAKE256 of a message. -/
def shake256 (m : List Byte) : List Byte :=
  let a := shakeAbsorbAll (m.length / 136 + 1) (List.replicate 25 0) m
  ((a.take 4).map (fun w => bytesOf 8 w.toNat)).flatten

end Sys2Proof.Machine
end

