-- ==== Sys2Proof/Machine/Numeric.lean ====
section
/-! DEFINITION. Number formats, exact values, roundings and the FP32 (and FP64) operations of R38 to R48, R133 and R151.
Values are exact: a finite number is m × 2^e, and every result is rounded once, from the exact value or from a truncation
that carries a sticky bit. -/

namespace Sys2Proof.Machine

/-- The formats in the coding of R64 and R139. -/
inductive Fmt where
  | fp32 | bf16 | fp16 | e5m2 | e4m3 | int8 | bs8 | bs4
  deriving DecidableEq, Repr

/-- Code of R64: 0 FP32, 1 BF16, 2 FP16, 3 E5M2, 4 E4M3, 5 INT8, 6 BS8, 7 BS4. -/
def fmtOfCode (c : Nat) : Fmt :=
  match c with
  | 0 => .fp32 | 1 => .bf16 | 2 => .fp16 | 3 => .e5m2 | 4 => .e4m3 | 5 => .int8 | 6 => .bs8 | _ => .bs4

/-- A binary floating-point layout (R38). `maxFin` is the magnitude pattern of the largest finite value. -/
structure FloatLayout where
  eb     : Nat
  fb     : Nat
  bias   : Int
  hasInf : Bool
  maxFin : Nat
  nan    : Nat
  deriving DecidableEq, Repr

def fp32L : FloatLayout := ⟨8, 23, 127, true, 0x7F7F_FFFF, 0x7FC0_0000⟩
def bf16L : FloatLayout := ⟨8, 7, 127, true, 0x7F7F, 0x7FC0⟩
def fp16L : FloatLayout := ⟨5, 10, 15, true, 0x7BFF, 0x7E00⟩
def e5m2L : FloatLayout := ⟨5, 2, 15, true, 0x7B, 0x7E⟩
def e4m3L : FloatLayout := ⟨4, 3, 7, false, 0x7E, 0x7F⟩
/-- FP64, used inside the Scribe (R249); its NaN pattern: PRESUMED, the IEEE 754 quiet NaN, log 14. -/
def fp64L : FloatLayout := ⟨11, 52, 1023, true, 0x7FEF_FFFF_FFFF_FFFF, 0x7FF8_0000_0000_0000⟩

/-- An exact value: NaN, an infinity, or (−1)^neg × m × 2^e. -/
inductive Num where
  | nan
  | inf (neg : Bool)
  | fin (neg : Bool) (m : Nat) (e : Int)
  deriving DecidableEq, Repr

def Num.isNaN : Num → Bool
  | .nan => true
  | .inf _ => false
  | .fin _ _ _ => false

def Num.isFin : Num → Bool
  | .nan => false
  | .inf _ => false
  | .fin _ _ _ => true

def Num.isZero : Num → Bool
  | .nan => false
  | .inf _ => false
  | .fin _ m _ => m == 0

/-- The value of a bit pattern (R38, R39). -/
def decodeFloat (L : FloatLayout) (bits : Nat) : Num :=
  let mag := bits % 2 ^ (L.eb + L.fb)
  let neg := (bits / 2 ^ (L.eb + L.fb)) % 2 == 1
  let ex := mag / 2 ^ L.fb
  let fr := mag % 2 ^ L.fb
  if L.hasInf && ex == 2 ^ L.eb - 1 then (if fr == 0 then .inf neg else .nan)
  else if !L.hasInf && mag == L.nan then .nan
  else if ex == 0 then .fin neg fr (1 - L.bias - L.fb)
  else .fin neg (2 ^ L.fb + fr) ((ex : Int) - L.bias - L.fb)

/-- Nearest with ties to even (R44), or stochastic with the 16-bit Spatter value r (R48). -/
inductive Rnd where
  | ne
  | sr (r : Nat)
  deriving DecidableEq, Repr

/-- m × 2^k rounded to an integer magnitude. -/
def roundShift (r : Rnd) (m : Nat) (k : Int) : Nat :=
  match k with
  | .ofNat k => m * 2 ^ k
  | .negSucc j =>
    let sh := j + 1
    let n := m / 2 ^ sh
    let f := m % 2 ^ sh
    match r with
    | .ne => if 2 * f > 2 ^ sh ∨ (2 * f = 2 ^ sh ∧ n % 2 = 1) then n + 1 else n
    | .sr q => if q < f * 2 ^ 16 / 2 ^ sh then n + 1 else n

/-- What a conversion answers: the pattern and the flags of R45. -/
structure Conv where
  bits      : Nat
  nonfinite : Bool
  convSat   : Bool
  deriving DecidableEq, Repr

/-- The overflow row of R45 for a floating-point target: pattern without sign, and whether it is finite.
`sat`: FP8_OVF = 1 and an 8-bit target. -/
def overflowPattern (L : FloatLayout) (sat : Bool) : Nat × Bool :=
  if sat then (L.maxFin, true)
  else if L.hasInf then ((2 ^ L.eb - 1) * 2 ^ L.fb, false)
  else (L.nan, false)

/-- Magnitude pattern of m × 2^e rounded once; it may exceed `maxFin`. -/
def roundMag (L : FloatLayout) (r : Rnd) (m : Nat) (e : Int) : Nat :=
  if m = 0 then 0
  else
    let emin := 1 - L.bias
    let top := (Nat.log2 m : Int) + e
    let q := max top emin - L.fb
    ((q - (emin - L.fb)).toNat) * 2 ^ L.fb + roundShift r m (e - q)

/-- R44, R45, R48: narrow an exact value to a floating-point layout. -/
def toFloat (L : FloatLayout) (sat : Bool) (r : Rnd) (v : Num) : Conv :=
  let signed (neg : Bool) (p : Nat) : Nat := (if neg then 2 ^ (L.eb + L.fb) else 0) + p
  match v with
  | .nan => ⟨L.nan, false, false⟩
  | .inf neg =>
    let (p, finite) := overflowPattern L sat
    if finite then ⟨signed neg p, true, false⟩
    else if L.hasInf then ⟨signed neg p, false, false⟩ else ⟨p, false, false⟩
  | .fin neg m e =>
    let p := roundMag L r m e
    if p > L.maxFin then
      let (p, finite) := overflowPattern L sat
      if finite then ⟨signed neg p, false, true⟩
      else if L.hasInf then ⟨signed neg p, true, false⟩ else ⟨p, true, false⟩
    else ⟨signed neg p, false, false⟩

/-- R45, INT8 row: two's complement byte. -/
def toInt8 (r : Rnd) (v : Num) : Conv :=
  match v with
  | .nan => ⟨0, true, false⟩
  | .inf neg => ⟨if neg then 0x80 else 0x7F, true, false⟩
  | .fin neg m e =>
    let n := roundShift r m e
    if neg then (if n > 128 then ⟨0x80, false, true⟩ else ⟨(256 - n) % 256, false, false⟩)
    else (if n > 127 then ⟨0x7F, false, true⟩ else ⟨n, false, false⟩)

/-- A two's-complement field of w bits. -/
def signed (w v : Nat) : Int := if v ≥ 2 ^ (w - 1) then (v : Int) - 2 ^ w else v

def numOfInt (q : Int) (e : Int) : Num := .fin (decide (q < 0)) q.natAbs e

/-- A BS8 or BS4 element with significand pattern q and scale byte (R41). -/
def blockElem (bs4 : Bool) (q scale : Nat) : Num :=
  if scale = 0xFF then .nan
  else if bs4 then numOfInt (signed 4 q) ((scale : Int) - 129)
  else numOfInt (signed 8 q) ((scale : Int) - 133)

/-- The value of an element in a format that needs no scale. -/
def elemValue (f : Fmt) (bits : Nat) : Num :=
  match f with
  | .fp32 => decodeFloat fp32L bits
  | .bf16 => decodeFloat bf16L bits
  | .fp16 => decodeFloat fp16L bits
  | .e5m2 => decodeFloat e5m2L bits
  | .e4m3 => decodeFloat e4m3L bits
  | .int8 => numOfInt (signed 8 bits) 0
  | .bs8 => blockElem false bits 127
  | .bs4 => blockElem true bits 127

/-- R44 to R47: narrow to a format without a scale; `sat` is FP8_OVF = 1. -/
def narrow (f : Fmt) (sat : Bool) (r : Rnd) (v : Num) : Conv :=
  match f with
  | .fp32 => toFloat fp32L false r v
  | .bf16 => toFloat bf16L false r v
  | .fp16 => toFloat fp16L false r v
  | .e5m2 => toFloat e5m2L sat r v
  | .e4m3 => toFloat e4m3L sat r v
  | .int8 => toInt8 r v
  | .bs8 => toInt8 r v
  | .bs4 => toInt8 r v

/-- R43: widening to FP32, exact but for −2¹²⁸. -/
def widen (v : Num) : Conv := toFloat fp32L false .ne v

/-- A value rounded once to FP32. -/
def round32 (v : Num) : Nat := (toFloat fp32L false .ne v).bits

/-! ## Block conversion (R46) -/

/-- What converting 32 values gives: the scale byte, the significand patterns, the flags. -/
structure BlockConv where
  scale     : Nat
  q         : List Nat
  nonfinite : Bool
  convSat   : Bool
  deriving DecidableEq, Repr

/-- floor(log₂) of a finite nonzero magnitude. -/
def floorLog2 (m : Nat) (e : Int) : Int := (Nat.log2 m : Int) + e

/-- The larger of two magnitudes m × 2^e. -/
def maxMag (a b : Nat × Int) : Nat × Int :=
  let lo := min a.2 b.2
  if a.1 * 2 ^ (a.2 - lo).toNat < b.1 * 2 ^ (b.2 - lo).toNat then b else a

def Num.mag : Num → Nat × Int
  | .nan => (0, 0)
  | .inf _ => (0, 0)
  | .fin _ m e => if m = 0 then (0, 0) else (m, e)

/-- Steps 1 to 5 of R46. `rs` gives each element's rounding. -/
def toBlock (bs4 : Bool) (vs : List (Num × Rnd)) : BlockConv :=
  let F : Int := if bs4 then 2 else 6
  let L : Nat := if bs4 then 8 else 128
  let w : Nat := if bs4 then 16 else 256
  if vs.any (fun p => !p.1.isFin) then ⟨0xFF, vs.map (fun _ => 0), true, false⟩
  else
    let m := vs.foldl (fun a p => if a.1 = 0 then p.1.mag else if p.1.mag.1 = 0 then a else maxMag a p.1.mag) (0, 0)
    if m.1 = 0 then ⟨0, vs.map (fun _ => 0), false, false⟩
    else
      let e0 := floorLog2 m.1 m.2
      let e := if roundShift .ne m.1 (m.2 + F - e0) = L then e0 + 1 else e0
      let E : Int := max 0 (min 254 (e + 127))
      let one (p : Num × Rnd) : Nat × Bool :=
        match p.1 with
        | .fin neg m x =>
          let n := roundShift p.2 m (x + 127 + F - E)
          let c := min n (L - 1)
          ((if neg then (w - c) % w else c), decide (n > L - 1))
        | _ => (0, false)
      let qs := vs.map one
      ⟨E.toNat, qs.map (·.1), false, qs.any (·.2)⟩

/-! ## Anchored conversion (R50) -/

/-- The value of R50 steps 3 to 5 for an exact nonzero p and anchor A: v, SAT_PROD, INEXACT, floor(log₂ |p|). -/
structure Anchored where
  v       : Int
  sat     : Bool
  inexact : Bool
  top     : Int
  deriving DecidableEq, Repr

def anchorTerm (A : Int) (neg : Bool) (m : Nat) (e : Int) : Anchored :=
  let k := e + 44 - A
  let n := roundShift .ne m k
  let lim := 2 ^ 63 - 1
  let c := min n lim
  let exact := decide (n ≤ lim) && (match k with
    | .ofNat _ => true
    | .negSucc j => m % 2 ^ (j + 1) == 0)
  ⟨if neg then -(c : Int) else c, decide (n > lim), !exact, floorLog2 m e⟩

/-- Exact product of two finite values. -/
def mulNum (a b : Num) : Num :=
  match a, b with
  | .nan, _ => .nan
  | _, .nan => .nan
  | .inf s, .inf t => .inf (s != t)
  | .inf s, .fin t m _ => if m = 0 then .nan else .inf (s != t)
  | .fin s m _, .inf t => if m = 0 then .nan else .inf (s != t)
  | .fin s m e, .fin t n f => .fin (s != t) (m * n) (e + f)

/-- Exact sum; an exact zero sum is +0 unless both are −0 (IEEE 754, R133). -/
def addNum (a b : Num) : Num :=
  match a, b with
  | .nan, _ => .nan
  | _, .nan => .nan
  | .inf s, .inf t => if s = t then .inf s else .nan
  | .inf s, .fin _ _ _ => .inf s
  | .fin _ _ _, .inf t => .inf t
  | .fin s m e, .fin t n f =>
    let lo := min e f
    let x : Int := m * 2 ^ (e - lo).toNat
    let y : Int := n * 2 ^ (f - lo).toNat
    let z := (if s then -x else x) + (if t then -y else y)
    if z = 0 then .fin (m == 0 && n == 0 && s && t) 0 0 else .fin (decide (z < 0)) z.natAbs lo

def negNum : Num → Num
  | .nan => .nan
  | .inf s => .inf (!s)
  | .fin s m e => .fin (!s) m e

def absNum : Num → Num
  | .nan => .nan
  | .inf _ => .inf false
  | .fin _ m e => .fin false m e

/-- a ÷ b truncated with a sticky bit, more than 64 bits long: enough for one rounding to FP32 or FP64. -/
def divNum (a b : Num) : Num :=
  match a, b with
  | .nan, _ => .nan
  | _, .nan => .nan
  | .inf _, .inf _ => .nan
  | .inf s, .fin t _ _ => .inf (s != t)
  | .fin s _ _, .inf t => .fin (s != t) 0 0
  | .fin s m e, .fin t n f =>
    if n = 0 then (if m = 0 then .nan else .inf (s != t))
    else if m = 0 then .fin (s != t) 0 0
    else
      let k := 72 + Nat.log2 n
      let q := m * 2 ^ k / n
      let rem := m * 2 ^ k % n
      .fin (s != t) (2 * q + (if rem = 0 then 0 else 1)) (e - f - k - 1)

/-- Newton's iteration from above; `fuel` bounds it. -/
def isqrtGo (n : Nat) : Nat → Nat → Nat
  | 0, x => x
  | fuel + 1, x =>
    let y := (x + n / x) / 2
    if y < x then isqrtGo n fuel y else x

/-- floor(√n) -/
def isqrt (n : Nat) : Nat :=
  if n = 0 then 0 else isqrtGo n (Nat.log2 n + 8) (2 ^ (Nat.log2 n / 2 + 1))

/-- √(m × 2^e) with a sticky bit. -/
def sqrtFin (m : Nat) (e : Int) : Nat × Int :=
  let (m, e) := if e % 2 = 0 then (m, e) else (2 * m, e - 1)
  let x := m * 2 ^ 144
  let r := isqrt x
  (2 * r + (if r * r = x then 0 else 1), (e - 144) / 2 - 1)

/-- √a (R133; IEEE 754: √(−0) = −0, a negative number gives NaN). -/
def sqrtNum (a : Num) : Num :=
  match a with
  | .nan => .nan
  | .inf s => if s then .nan else .inf false
  | .fin s m e =>
    if m = 0 then .fin s 0 0
    else if s then .nan
    else let (r, x) := sqrtFin m e; .fin false r x

/-- 1 ÷ √a (R133; 1 ÷ √(±0) = ±infinity by the sign of zero in IEEE 754). -/
def rsqrtNum (a : Num) : Num :=
  match a with
  | .nan => .nan
  | .inf s => if s then .nan else .fin false 0 0
  | .fin s m e =>
    if m = 0 then .inf s
    else if s then .nan
    else
      let (m, e) := if e % 2 = 0 then (m, e) else (2 * m, e - 1)
      let k := 80 + Nat.log2 m
      let x := 2 ^ (2 * k) / m
      let r := isqrt x
      .fin false (2 * r + (if r * r * m = 2 ^ (2 * k) then 0 else 1)) (-(e / 2) - k - 1)

/-! ## 2^x and log₂ x by rigorous bounds

Both results are irrational but where they are powers of two or integers, so a correct rounding is that of a lower and of an
upper bound when the two agree. Where they do not, it is one of the two, and which is a free value (`Config.roundOpen`, log 15): no
FP32 operand is known to reach it. -/

/-- Fixed-point precision of the bounds. -/
def expPrec : Nat := 128

/-- 2^(2^(−i)) rounded down or up, i = 1, 2, …; the head of the list is i = 1. -/
def rootChain (up : Bool) : Nat → Nat → List Nat
  | 0, _ => []
  | fuel + 1, y =>
    let x := y * 2 ^ expPrec
    let r := isqrt x
    let z := if up && r * r != x then r + 1 else r
    z :: rootChain up fuel z

/-- Bound of 2^(f ÷ 2^64) × 2^expPrec for f < 2^64, by the bits of f from the top. -/
def expBound (up : Bool) (f : Nat) : Nat :=
  let one := 2 ^ expPrec
  let chain := rootChain up 64 (2 * one)
  (chain.foldl (fun (p : Nat × Nat) c =>
      let bit := f / 2 ^ (63 - p.2) % 2
      let z := p.1 * c
      (if bit = 1 then (z + (if up then one - 1 else 0)) / one else p.1, p.2 + 1)) (one, 0)).1

/-- 2^a by bounds: the lower and the upper bound, each rounded. -/
def exp2Fin (neg : Bool) (m : Nat) (e : Int) : Nat × Nat :=
  let v : Int := if neg then -(m : Int) else m
  match e with
  | .ofNat k =>
    let x := v * 2 ^ k
    let r := round32 (.fin false 1 (max (-400) (min 400 x)))
    (r, r)
  | .negSucc j =>
    let d : Int := 2 ^ (j + 1)
    if v % d = 0 then
      let r := round32 (.fin false 1 (max (-400) (min 400 (v / d))))
      (r, r)
    else
      let n := max (-400) (min 400 (v / d))
      let fr := (v % d).toNat
      -- fraction in units of 2^(−64): rounded down, and up
      let lo := fr * 2 ^ 64 / 2 ^ (j + 1)
      let hi := lo + 1
      let lower := expBound false lo
      let upper := if hi = 2 ^ 64 then 2 * 2 ^ expPrec else expBound true hi
      -- the exact value lies strictly between the bounds
      (round32 (.fin false (2 * lower + 1) (n - expPrec - 1)), round32 (.fin false (2 * upper - 1) (n - expPrec - 1)))

/-- Binary digits of log₂ of y ÷ 2^256, 1 ≤ y ÷ 2^256 < 2, by repeated squaring, rounded down or up. -/
def logDigits (up : Bool) : Nat → Nat → Nat → Nat
  | 0, _, acc => acc
  | fuel + 1, y, acc =>
    let z := y * y
    let z := (z + (if up then 2 ^ 256 - 1 else 0)) / 2 ^ 256
    if z ≥ 2 ^ 257 then logDigits up fuel ((z + (if up then 1 else 0)) / 2) (2 * acc + 1)
    else logDigits up fuel z (2 * acc)

/-- log₂ (m × 2^e), m > 0, by bounds: the lower and the upper bound, each rounded. -/
def log2Fin (m : Nat) (e : Int) : Nat × Nat :=
  let k := Nat.log2 m
  let n : Int := e + k
  if m = 2 ^ k then (round32 (numOfInt n 0), round32 (numOfInt n 0))
  else
    let y := m * 2 ^ 256 / 2 ^ k
    let lo : Int := logDigits false 100 y 0
    let hi : Int := logDigits true 100 y 0 + 1
    (round32 (numOfInt (2 * (n * 2 ^ 100 + lo) + 1) (-101)), round32 (numOfInt (2 * (n * 2 ^ 100 + hi) - 1) (-101)))

/-- The result between two bounds that round alike, else one of them (log 15). -/
def pickRound (bits : Nat) (r : Nat × Nat) : Nat :=
  if r.1 = r.2 then r.1 else if Config.roundOpen (BitVec.ofNat 32 bits) then r.2 else r.1

def exp2Num (bits : Nat) (a : Num) : Nat :=
  match a with
  | .nan => fp32L.nan
  | .inf s => if s then 0 else 0x7F80_0000
  | .fin s m e => pickRound bits (exp2Fin s m e)

/-- log₂ a; of ±0 it is −infinity, as IEEE 754 gives it (R133; DEDUCED, log 15). -/
def log2Num (bits : Nat) (a : Num) : Nat :=
  match a with
  | .nan => fp32L.nan
  | .inf s => if s then fp32L.nan else 0x7F80_0000
  | .fin s m e =>
    if m = 0 then 0xFF80_0000
    else if s then fp32L.nan
    else pickRound bits (log2Fin m e)

/-! ## FP32 element operations (R133) on bit patterns -/

def val32 (b : Nat) : Num := decodeFloat fp32L b

def fadd (a b : Nat) : Nat := round32 (addNum (val32 a) (val32 b))
def fsub (a b : Nat) : Nat := round32 (addNum (val32 a) (negNum (val32 b)))
def fmul (a b : Nat) : Nat := round32 (mulNum (val32 a) (val32 b))
def ffma (a b c : Nat) : Nat := round32 (addNum (mulNum (val32 a) (val32 b)) (val32 c))
def frcp (a : Nat) : Nat := round32 (divNum (.fin false 1 0) (val32 a))
def fsqrt (a : Nat) : Nat := round32 (sqrtNum (val32 a))
def frsqrt (a : Nat) : Nat := round32 (rsqrtNum (val32 a))
def fexp2 (a : Nat) : Nat := exp2Num a (val32 a)
def flog2 (a : Nat) : Nat := log2Num a (val32 a)
def fabs (a : Nat) : Nat := round32 (absNum (val32 a))
def fneg (a : Nat) : Nat := round32 (negNum (val32 a))
def fcopy (a : Nat) : Nat := round32 (val32 a)

/-- Strictly less, by value: ±0 are equal, NaN compares false. -/
def ltNum (a b : Num) : Bool :=
  match a, b with
  | .nan, _ => false
  | _, .nan => false
  | .inf s, .inf t => s && !t
  | .inf s, .fin _ _ _ => s
  | .fin _ _ _, .inf t => !t
  | .fin s m e, .fin t n f =>
    let lo := min e f
    let x : Int := m * 2 ^ (e - lo).toNat
    let y : Int := n * 2 ^ (f - lo).toNat
    decide ((if s then -x else x) < (if t then -y else y))

def eqNum (a b : Num) : Bool := !a.isNaN && !b.isNaN && !ltNum a b && !ltNum b a

def Num.neg? : Num → Bool
  | .nan => false
  | .inf s => s
  | .fin s _ _ => s

/-- R133: NaN if either is NaN; +0 is greater than −0. -/
def maxNum (a b : Num) : Num :=
  if a.isNaN || b.isNaN then .nan
  else if ltNum a b then b
  else if ltNum b a then a
  else if a.neg? then b else a

def minNum (a b : Num) : Num :=
  if a.isNaN || b.isNaN then .nan
  else if ltNum a b then a
  else if ltNum b a then b
  else if a.neg? then a else b

def fmaxp (a b : Nat) : Nat := round32 (maxNum (val32 a) (val32 b))
def fminp (a b : Nat) : Nat := round32 (minNum (val32 a) (val32 b))
/-- VCMPLT: +1.0 or +0. -/
def fcmplt (a b : Nat) : Nat := if ltNum (val32 a) (val32 b) then 0x3F80_0000 else 0
/-- VSEL: C ≠ 0 ? A : B, every value but ±0 being true. -/
def fsel (a b c : Nat) : Nat := if (val32 c).isZero then fcopy b else fcopy a

end Sys2Proof.Machine
end

