-- ==== Sys2Proof/Machine/HostState.lean ====
section
/-! DEFINITION. State of the host side: what leaves the block, power and pins, bring-up, groves and their clocks, the supply,
the Seedbank, the Blotter, update work and the Ranger (chapters 09, 12 to 17). Plain data. -/

namespace Sys2Proof.Machine

/-- What the block has sent, in order (the trace is the model's own). -/
inductive Out where
  /-- a BAR0 read completion (R7): function, offset, value -/
  | bar0 (fn : Nat) (off : Nat) (val : Word32)
  /-- a BAR2 read completion (R376): function, offset, bytes, poisoned -/
  | bar2 (fn : Nat) (off : Nat) (data : List Byte) (poisoned : Bool)
  /-- an MSI-X message (R377) -/
  | msix (fn vec : Nat)
  /-- an SMBus answer (R450, R451): 7-bit address, bytes -/
  | smbus (addr : Nat) (data : List Byte)
  /-- a codeword sent on a port (R266): its control fields, its ten units, and the active lanes over which `laneSymbols` stripes it -/
  | link (port : Nat) (seq ack : Nat) (nak : Bool) (units : List LinkUnit) (lanes : Nat)
  /-- a codeword sent in IDENTIFY (R266, R274): its control bits, which have no stated value there (log 122), its ten units, the active lanes -/
  | ident (port : Nat) (control : Nat) (units : List LinkUnit) (active : Nat)
  /-- what is sent on a port outside codewords: 0 training frames with the lane's number, MAX_RATE the argument (R272); 1 the report of the
  good lanes by transmitter lane number (R272); 2 the training pattern on the spare lane (R279); 3 the 28G NRZ announce pattern of DETECT on the
  lanes of a mask (R271) -/
  | train (port : Nat) (what : Nat) (arg : Nat)
  deriving DecidableEq, Repr

/-- A peer cable connector (R445, R451). -/
structure Cable where
  present : Bool
  pwrOn   : Bool
  /-- its draw at the last tick, in units of 100 mW; 0 without CBL_PWR -/
  draw    : Nat
  deriving DecidableEq, Repr

/-- A connector without a cable and without CBL_PWR. -/
def Cable.none : Cable := ⟨false, false, 0⟩

/-- Pins, rails and the management endpoint (R443 to R451). -/
structure Power where
  /-- P54V above 42 V since it last rose -/
  p54v     : Bool
  vaon     : Bool
  /-- the Understory is released from its power-on reset -/
  released : Bool
  modEn    : Bool
  mainUp   : Bool
  /-- main rails within 3% of nominal since MOD_EN, in the order in which they ramp (R446) -/
  ramp     : List Nat
  pwrgd    : Bool
  /-- PERST# asserted (the pin at 0) -/
  perst    : Bool
  /-- PWR_BRAKE# asserted (the pin at 0) -/
  brake    : Bool
  /-- THERMTRIP# asserted -/
  thermtrip : Bool
  /-- SLOT_ID straps -/
  slotId   : Nat
  /-- MEVENT bits 4:0 -/
  mevent   : Nat
  /-- PWR_BRAKE# assertions, saturating -/
  brakes   : Nat
  cables   : Vector Cable 4
  /-- input of the last tick: mV, mA, W -/
  inMv     : Nat
  inMa     : Nat
  inW      : Nat
  /-- P54V below 44 V now -/
  uvNow    : Bool
  deriving DecidableEq, Repr

/-- What is fused (R12, R381, R392). -/
structure Fuses where
  serial   : Word64
  identKey : List Byte
  rootKey  : List Byte
  fru      : List Byte
  deriving DecidableEq, Repr

/-- The device states of R379. -/
inductive BootSt where
  | held | verify | run | stopped
  deriving DecidableEq, Repr

/-- An installed image (R383). -/
structure Image where
  version : Nat
  keySlot : Nat
  digest  : List Byte
  payload : List Byte
  deriving DecidableEq, Repr

/-- A verification or parse in progress holds nothing but what started it: the staged bytes are in the window. -/
structure Boot where
  st        : BootSt
  mapReady  : Bool
  selfBuilt : Bool
  imgBusy   : Bool
  mapBusy   : Bool
  /-- the busy map command is SELF_MAP -/
  selfBusy  : Bool
  /-- a DISARM is in progress (R390) -/
  disarming : Bool
  /-- the supervisor firmware runs -/
  supv      : Bool
  fault     : Nat
  detail    : Nat
  faultAddr : Nat
  /-- the four image kinds -/
  images    : Vector (Option Image) 4
  /-- key slots; slot 0 is the fused root key -/
  keys      : Vector (Option (List Byte)) 4
  keyReject : Bool
  /-- slot whose key is being parsed -/
  keyParse  : Option Nat
  /-- IMG_STATUS -/
  imgKind   : Nat
  imgValid  : Bool
  imgResult : Nat
  /-- attestation (R393): nonce captured at ATT_GO while BUSY -/
  attNonce  : Option (List Byte)
  attValid  : Bool
  report    : List Byte
  digestDev : List Byte
  /-- CFG_DIGEST_DEV of the last ARM that led to RUN (R394) -/
  accepted  : Option (List Byte)
  /-- 0 before training: LINK_STATUS -/
  linkReady : Bool
  rate      : Nat
  width     : Nat
  flit      : Bool
  /-- VFs enabled by the host, bit v -/
  vfEn      : Nat
  /-- crossings in service mode (R355) -/
  service   : Bool
  fclk      : Bool
  mclk      : Bool
  pclk      : Bool
  /-- the device stop in progress: its BOOT_FAULT code (R380) -/
  stopping  : Option Nat
  /-- the cause of STOPPED, whatever BOOT_FAULT shows later (R380, R421) -/
  stopCode  : Nat
  /-- PPR_HARD_EN of each stack, bit m, as it stood at MAP_GO (R384, R441) -/
  hardEn    : Nat
  deriving DecidableEq, Repr

/-- Grove power states (R348). -/
inductive GrovePower where
  | awake | entering | retention | gated | waking | retired
  deriving DecidableEq, Repr

/-- A grove: power, clock, place (R20, R345 to R350, R417). -/
structure Grove where
  pw      : GrovePower
  /-- RETENTION rather than GATED once ENTERING ends -/
  retain  : Bool
  /-- ACLK step set by the Ranger, in steps of 0.3 GHz -/
  step    : Nat
  /-- thermal limit step -/
  therm   : Nat
  pll     : Nat
  pllBad0 : Bool
  pllBad1 : Bool
  /-- UCLK cycles of the last lock -/
  lock    : Nat
  /-- ticks idle -/
  idle    : Nat
  /-- wanted by a dispatch while ENTERING -/
  wanted  : Bool
  /-- the context whose plot holds it -/
  owner   : Option Nat
  /-- a scrub is owed before it can be assigned (R417) -/
  dirty   : Bool
  /-- stop (0 to 15) switched to slot 16, if one is -/
  spareAt : Option Nat
  /-- UCLK_COUNT of its last sweep; 0 never -/
  swept   : Nat
  deriving DecidableEq, Repr

/-- A physical nib in the Seedbank (R407 to R410). -/
structure PNib where
  retiring : Bool
  retired  : Bool
  /-- a spare that failed a sweep -/
  failed   : Bool
  sweptOk  : Bool
  margin   : Nat
  lowTicks : Nat
  /-- local row index to redundant row of its bank (R410) -/
  remap    : Tab Nat
  /-- detection errors per local row since power-up -/
  detects  : Tab Nat
  /-- rows retiring (R409): checked at the next boundary when the flag is false -/
  rowsDue  : Tab Bool
  /-- unused redundant rows that a sweep found bad: bank and redundant row (R408) -/
  badSpare : List (Nat × Nat)
  deriving DecidableEq, Repr

/-- The Seedbank and the repair map in force (R413 to R416, R421). -/
structure Seedbank where
  entries  : List Word64
  gen      : Nat
  errReason : Nat
  errIndex : Nat
  /-- grove under sweep, with whether it is stopping for a dispatch -/
  sweeping : Option Nat
  lastSweep : Nat
  lastOk   : Bool
  sweeps   : Nat
  /-- UCLK_COUNT at the last sweep's start -/
  sweepAt  : Nat
  avRun    : Nat
  avLost   : Nat
  deriving DecidableEq, Repr

/-- A Blotter entry (R422). -/
structure BlotEntry where
  stamp : Word64
  seq   : Word32
  block : Byte
  event : Byte
  inst  : BitVec 16
  ctx   : Byte
  flags : Byte
  nib   : BitVec 16
  arg0  : Word32
  arg1  : Word64
  deriving DecidableEq, Repr

/-- The MEM_CE events of one controller in this tick (R424). -/
structure CeTick where
  stamp : Word64
  count : Nat
  dpa   : Nat
  deriving DecidableEq, Repr

structure Blotter where
  ring : Tab BlotEntry
  next : Word32
  ces  : Tab CeTick
  deriving DecidableEq, Repr

/-- Supply monitors and thermal state (R358 to R365, R370). -/
structure Rail where
  mv      : Nat
  low     : Nat
  /-- below its warning threshold now, and UCLK_COUNT when it last fell below -/
  below   : Bool
  since   : Nat
  /-- it crossed warning since the response started: its record -/
  crossed : Bool
  dipLow  : Nat
  integ   : Bool
  integNow : Bool
  deriving DecidableEq, Repr

structure Supply where
  rails    : Vector Rail 8
  /-- rails that crossed warning in this response, in order -/
  order    : List Nat
  /-- dip response in force (R359) -/
  dip      : Bool
  /-- recovery wait running (R360) -/
  recover  : Bool
  /-- sensor readings, °C, and highest since power-up -/
  temps    : Vector Nat 72
  highs    : Vector Nat 72
  /-- sensors under a thermal hold (R365) -/
  holds    : Tab Bool
  /-- a sensor reads 115 °C or more -/
  trip     : Bool
  /-- a thermal trip stopped the device, which has not been brought up again (R365) -/
  tripHeld : Bool
  deriving DecidableEq, Repr

/-- Context states (R312). -/
inductive CtxSt where
  | free | parked | ready | running | faulted | killing | retained
  deriving DecidableEq, Repr

/-- The fields of a layer record that the model uses (R314), as the Ranger read them. -/
structure Record where
  va       : Nat
  next     : Nat
  prog     : Nat
  anchor   : Nat
  compl    : Nat
  step     : Word64
  grid     : Nat
  energy   : Nat
  plotMin  : Nat
  plotMax  : Nat
  prio     : Nat
  recompute : Bool
  pred     : Bool
  replay   : Bool
  retain   : Bool
  update   : Bool
  irq      : Bool
  spatter  : Nat
  litSeg   : Nat
  litRows  : Nat
  litOp    : Nat
  ligOp    : Nat
  sample   : Nat
  rerun    : Nat
  updCount : Nat
  ligMark  : Nat
  updList  : Nat
  tag      : Word64
  deriving DecidableEq, Repr

/-- Where a dispatched layer stands (R328, R404, R331). -/
inductive Phase where
  /-- nothing dispatched -/
  | none
  /-- dispatched, its groves waking or being scrubbed, or its plot to be restored -/
  | starting
  /-- strands or Scribes run -/
  | running
  /-- quiesced after an error of the replayed class; the restart is due (R404) -/
  | replaying
  /-- marked suspect by a supply crossing; the replay follows the dip response (R361) -/
  | suspect
  /-- draining for a pre-emption save (R331) -/
  | saving
  deriving DecidableEq, Repr

/-- Engine time that a context has used (R339): array and vector ACLK cycles, Scribe MCLK cycles, and the array and vector cycles of recomputed
layers. `used` tells a context that has been charged from one that has not, so that an open amount needs no comparison. -/
structure EngineTime where
  used   : Bool
  mx     : Nat
  vec    : Nat
  scribe : Nat
  rc     : Nat
  deriving DecidableEq, Repr

/-- The open Litter operation of a running layer (R173 to R176). -/
structure LitFrame where
  /-- 0 none, 1 push, 2 pop, 3 peek -/
  op     : Nat
  /-- START: the frame's first region row -/
  start  : Nat
  rows   : Nat
  /-- control block as read at the layer's start: BASE, SIZE_PAGES, TOP, DEPTH, PUSH_SEQ, HIGH_WATER, LAST_SEG, LAST_FAULT -/
  regionVa : Nat
  size   : Nat
  top    : Nat
  depth  : Nat
  pushSeq : Nat
  high   : Nat
  lastSeg : Nat
  lastFault : Nat
  /-- the frame's own push sequence number -/
  frameSeq : Nat
  seed   : Word64
  deriving DecidableEq, Repr

/-- An update tensor descriptor as phase 1 read it, with its recurrence table or Copperplate image (R239, R248, R255). -/
structure UpdDesc where
  p      : Nat
  s      : Vector Nat 3
  g      : Nat
  sh     : Nat
  tableVa : Nat
  stampVa : Nat
  listVa : Nat
  n      : Nat
  listLen : Nat
  clipMax : Nat
  gexp   : Int
  clipAnchor : Int
  gfmt   : Nat
  shfmt  : Nat
  copper : Bool
  isLazy : Bool
  /-- the words of the table or image -/
  table  : List Word32
  deriving DecidableEq, Repr

/-- A group finished in phase 4 (R250 to R258): its number (list entry for a lazy tensor), elements updated and left unchanged, whether it
was lost and whether its stamp was ahead. -/
structure UpdGroup where
  idx       : Nat
  updated   : Nat
  unchanged : Nat
  lost      : Bool
  stale     : Bool
  deriving DecidableEq, Repr

/-- One tensor of an update (R239, R246, R252). `normSum` is the exact sum of R246 in units of 2^(CLIP_ANCHOR − 44). -/
structure UpdTensor where
  d        : UpdDesc
  normSum  : Int
  normNf   : Bool
  normSat  : Bool
  norm     : Nat
  factor   : Nat
  clipped  : Bool
  singular : Bool
  /-- groups whose norm term is in normSum -/
  normed   : List Nat
  done     : List UpdGroup
  /-- its status has been written -/
  finished : Bool
  /-- UPD_UNCHANGED, CORR_SINGULAR and the counters have been given -/
  reported : Bool
  deriving DecidableEq, Repr

/-- An update layer's work (R243), kept by the context; a Ligature step holds its own tensors. -/
structure UpdWork where
  /-- phase of R243: 3 norms, 4 apply, 5 commit due -/
  phase    : Nat
  lsExp    : Int
  tensors  : List UpdTensor
  /-- the update control block as phase 1 read it, bytes 0x00 to 0x2F -/
  ucb      : List Byte
  deriving DecidableEq, Repr

/-- A group's pre-image (R257): rows by DPA, and the stamp by DPA; of an update layer's group, or of one that this member owns in the circle's
open step. -/
structure PreImage where
  circle : Bool
  ctx   : Nat
  desc  : Nat
  group : Nat
  rows  : List (Nat × Row)
  stamp : Option (Nat × Word64)
  deriving DecidableEq, Repr

/-- One Scribe (R237, R257, R262). -/
structure Scribe where
  /-- newest first -/
  pre       : List PreImage
  rollbacks : Nat
  /-- the context for which SCR_STALL was raised, until a group is finished -/
  stalled   : Option Nat
  deriving DecidableEq, Repr

def Scribe.idle : Scribe := ⟨[], 0, none⟩

/-- The Ranger (R322 to R330). -/
structure Ranger where
  /-- tokens in mJ, with the remainders of the energy sample (µJ) and of the refill (in 1/50 mJ) -/
  tokens   : Int
  eRem     : Nat
  refRem   : Nat
  /-- the envelope in force and the one that the next tick takes (R323) -/
  envW     : Nat
  capMj    : Nat
  slots    : Vector (Option Nat) 16
  powerW   : Nat
  overEnv  : Bool
  overPeak : Bool
  stopped  : Bool
  /-- ticks in which every resident context was blocked -/
  graceTicks : Nat
  /-- microjoules of IDLE_ENERGY not yet a millijoule -/
  idleEnergy : Nat
  deriving DecidableEq, Repr

end Sys2Proof.Machine
end

