-- ==== Sys2Proof/Machine/NibState.lean ====
section
/-! DEFINITION. State of one logical nib (chapters 03 to 07). Plain data. -/

namespace Sys2Proof.Machine

/-- A valid Inkwell or Litter window row (R99, R105, R106): the stored data and, for each word whose code does not match it,
the syndrome of the detection code. -/
structure RowCell where
  data : Row
  syn  : Tab Byte
  deriving DecidableEq, Repr

/-- One accumulator entry (R50): 88-bit two's complement sum and its sticky flags. -/
structure AccEntry where
  sum     : BitVec 88
  nf      : Bool
  sat     : Bool
  inexact : Bool
  deriving DecidableEq, Repr

/-- One accumulator row of one array (R50 to R53, R69). -/
structure AccRow where
  /-- the anchor tag; none until an instruction writes the row after a clear -/
  tag     : Option Int
  depth   : Nat
  convSat : Bool
  /-- largest floor(log₂ |p|), −512 if none -/
  maxProd : Int
  entries : Vector AccEntry 16
  deriving DecidableEq, Repr

def AccEntry.clear : AccEntry := ⟨0, false, false, false⟩
def AccRow.clear : AccRow := ⟨none, 0, false, -512, Vector.replicate 16 AccEntry.clear⟩

/-- Weights held by an array (R77): the 256 elements, cell (k, n) at 16 k + n. -/
structure Held where
  elems : List Num
  deriving DecidableEq, Repr

/-- A matrix queue entry (R74, R79, R115): place in program order, PC, words, captured tag counts, captured MX_FB_BASE. -/
structure MxEntry where
  seq  : Nat
  pc   : Nat
  word : Nat
  cap0 : Nat
  cap1 : Nat
  fb   : Nat
  deriving DecidableEq, Repr

/-- A vector queue entry (R135, R139). -/
structure VecEntry where
  seq  : Nat
  pc   : Nat
  word : Nat
  cap0 : Nat
  deriving DecidableEq, Repr

/-- A finished-tile queue entry (R145): rows of 16 FP32 values. -/
structure Tile where
  array : Nat
  rows  : List (BitVec 512)
  ovf   : Bool
  nf    : Bool
  deriving DecidableEq, Repr

/-- A reduction accumulator entry (R148). -/
structure RedEntry where
  sum     : BitVec 88
  tag     : Option Int
  count   : Nat
  nf      : Bool
  sat     : Bool
  inexact : Bool
  maxProd : Int
  /-- running MAX or MIN; none until one is added after a clear -/
  run     : Option Nat
  deriving DecidableEq, Repr

/-- An entry that RCLR clears (R148). -/
def RedEntry.clear : RedEntry := ⟨0, none, 0, false, false, false, -512, none⟩

/-- An entry at a layer's start: +0, also as a running MAX or MIN, and no tag (R163). -/
def RedEntry.zero : RedEntry := { RedEntry.clear with run := some 0 }

/-- A summary slot (R152). -/
structure Summary where
  max   : Nat
  sum   : Nat
  count : Nat
  flags : Nat
  deriving DecidableEq, Repr

/-- Run state of a Quill core (R156, R159, R167); the number is the code of QUILL_NIB_STATE 18:16. -/
inductive QRun where
  | idle
  | running
  /-- waiting: kind, and what it waits for (captured count, register value, slot and destination, by kind) -/
  | waiting (kind : Nat) (a b : Nat)
  | faulted
  deriving DecidableEq, Repr

/-- A descriptor in flight (R108 to R118, R127). -/
structure Desc where
  /-- place in program order -/
  seq     : Nat
  pc      : Nat
  /-- the eight words, word k at bits 32k + 31 to 32k -/
  word    : Nat
  /-- the value of its tag's issued count that counts it (R115) -/
  ord     : Nat
  started : Bool
  /-- rows landed or accepted -/
  landed  : List Nat
  /-- rows that have come to the engine and are not yet written: a transpose block's (R118), or behind an interlock, by row i -/
  held    : Tab Row
  /-- the transfer failed (R116) -/
  failed  : Bool
  done    : Bool
  stalled : Bool
  /-- the sampled strand that issued it: rows inside its output window are withheld (R208) -/
  sample  : Option Nat
  /-- its signal has been delivered (R121) -/
  signaled : Bool
  deriving DecidableEq, Repr

/-- The prediction fields of a thinning table (R192), loaded when the record's PRED is 1 and the attempt is not dense. -/
structure PredTable where
  maskVa : Nat
  outVa  : Nat
  stride : Nat
  rows   : Nat
  es     : Nat
  deriving DecidableEq, Repr

/-- The Quill core (R154 to R160). -/
structure Quill where
  imem   : Tab Word32
  dmem   : Tab Word32
  pc     : Nat
  sregs  : Tab Word32
  run    : QRun
  strand : Nat
  ended  : Nat
  /-- the running strand is a sampled one (R208) -/
  sampled : Bool
  /-- its last strand has ended (R161) -/
  finished : Bool
  fbBase : Nat
  /-- low word of MX_FB_BASE waiting for its high word (R8) -/
  fbLow  : Option Word32
  /-- read latch (R8): pair's low index and high word -/
  latch  : Option (Nat × Word32)
  /-- the wait has raised QUILL_WAIT -/
  stalled : Bool
  deriving DecidableEq, Repr

/-- Counters and last faults that belong to the logical nib (R97, R128, R130, R165, R167, R212, R436). -/
structure NibCount where
  mmas    : Nat
  gathered : Nat
  instrs  : Nat
  dmaIn   : Nat
  dmaOut  : Nat
  vectors : Nat
  detects : Nat
  /-- IW_NIB_DETECT 31:16 of the last detection error: valid, reader, row -/
  lastDet : Option (Nat × Nat)
  mxIll   : Nat
  vecIll  : Nat
  qReason : Nat
  qPc     : Nat
  dReason : Nat
  dTag    : Nat
  thinIll : Nat
  deriving DecidableEq, Repr

/-- One logical nib. -/
structure Nib where
  /-- what a row that is not listed is: a valid row of zeros after a scrub (R417), else one whose valid bit is clear -/
  zeroed  : Bool
  /-- Inkwell rows 0 to 4,095 and Litter window rows 4,096 to 4,607 (R100); none: valid bit clear -/
  rows    : Tab (Option RowCell)
  /-- Litter slot f to (context, push sequence, frame row) (R178) -/
  slotTag : Tab (Nat × Nat × Nat)
  /-- aperture writes accepted in this attempt (R174) -/
  pushes  : Nat
  /-- accumulator rows, array × 64 + row -/
  acc     : Tab AccRow
  held    : Vector (Option Held) 4
  /-- feeder buffers (R93): activation rows, weight row per array, scale rows -/
  actBuf  : List (Nat × Row)
  wBuf    : Vector (Option (Nat × Row)) 4
  scaleBuf : List (Nat × Row)
  mq      : List MxEntry
  /-- members of the open gather group, at the head of mq (R90) -/
  gather  : Nat
  /-- sequence number of the head that raised ISSUE_STALL -/
  mqStall : Option Nat
  vq      : List VecEntry
  vqStall : Option Nat
  ftq     : List Tile
  /-- tile registers: T × 16 + row -/
  tiles   : Tab Lanes
  red     : Tab RedEntry
  /-- function table images, seven rows (R150) -/
  fn0     : Option (List Row)
  fn1     : Option (List Row)
  slots   : Tab Summary
  tileOvf : Bool
  tileNf  : Bool
  quill   : Quill
  /-- next place in program order -/
  seq     : Nat
  descs   : List Desc
  /-- tag t to (issued, done), modulo 2^16 -/
  tags    : Tab (Nat × Nat)
  signals : Tab Nat
  /-- cached translations, most recent first: context × 2²⁷ + virtual page, DPA page, writable (R218) -/
  tlb     : List (Nat × Nat × Bool)
  /-- region words of the thinning table (R192) -/
  regions : List Nat
  pred    : Option PredTable
  /-- prediction (R208, R211): mask position, rank, actives -/
  maskPos : Nat
  rank    : Nat
  actives : Nat
  count   : NibCount
  deriving DecidableEq, Repr

def Quill.cold : Quill := ⟨[], [], 0, [], .idle, 0, 0, false, false, 0, none, none, false⟩

def NibCount.zero : NibCount := ⟨0, 0, 0, 0, 0, 0, 0, none, 0, 0, 0, 0, 0, 0, 0⟩

/-- A nib as power-up leaves it: every row invalid, everything else empty (R351). -/
def Nib.cold : Nib :=
  ⟨false, [], [], 0, [], Vector.replicate 4 none, [], Vector.replicate 4 none, [], [], 0, none, [], none, [], [], [],
   none, none, [], false, false, Quill.cold, 0, [], [], [], [], [], none, 0, 0, 0, NibCount.zero⟩

end Sys2Proof.Machine
end

