-- ==== Sys2Proof/Machine/CtxState.lean ====
section
/-! DEFINITION. State of a context (chapter 12). Plain data. -/

namespace Sys2Proof.Machine

/-- A plot saved in the save area (R331): its size in groves, the nibs by rank, whether a layer is inside, whether that layer
restarts from its start when it resumes. The save area's own bytes are in HBM. -/
structure Saved where
  groves  : Nat
  nibs    : List Nib
  running : Bool
  restart : Bool
  /-- cause of that restart (R425) -/
  cause   : Nat
  /-- ACLK step that the Ranger had set for its groves: a stretch persists (R324) -/
  step    : Nat
  deriving DecidableEq, Repr

/-- A context (R311 to R342). -/
structure Ctx where
  st       : CtxSt
  slot     : Option Nat
  /-- HEAD written while no slot was free, or swapped out and READY: runnable (R330) -/
  runnable : Bool
  /-- the record whose NEXT is watched or that is current -/
  curRec   : Nat
  /-- the watched NEXT address, if the watch is armed (R318) -/
  watch    : Option Nat
  /-- NEXT was covered by a host write and is to be read again -/
  woken    : Bool
  record   : Option Record
  /-- ticks READY, ticks blocked, the code and priority of the layer completed last -/
  wait     : Nat
  blocked  : Nat
  lastCode : Nat
  lastPrio : Nat
  /-- layers completed since HEAD was written (R333) -/
  seq      : Nat
  /-- first dispatch after HEAD: the save area is still to be walked (R332) -/
  fresh    : Bool
  plot     : List Nat
  /-- ACLK step that the Ranger has set for the plot; a stretch persists across layers (R324) -/
  step     : Nat
  /-- a plot saved in the save area (R331) -/
  saved    : Option Saved
  phase    : Phase
  /-- the attempt has passed its layer start -/
  started  : Bool
  /-- this layer has opened its circle step (R290) -/
  opened   : Bool
  urgent   : Bool
  replays  : Nat
  /-- cause of the replay due (R425), with the logical nib and the row that showed the error (R406, log 117) -/
  cause    : Nat
  blameNib : Option Nat
  blameRow : Nat
  preempted : Bool
  /-- pre-emption asked for by eviction or an urgent layer -/
  evict    : Bool
  /-- a retained plot is to be kept when the kill ends -/
  retain   : Bool
  dense    : Bool
  rerunDense : Bool
  miss     : Nat
  missFlag : Bool
  /-- the attempt's overflow vote, as VOTE has its bits: 0 tile overflow, 1 non-finite (R55, R241, R242) -/
  vote     : Nat
  drawn    : Nat
  energyAcc : Nat
  /-- bytes moved in this tick, and microjoules not yet a millijoule (R339) -/
  tickBytes : Nat
  ujRem    : Nat
  lit      : Option LitFrame
  upd      : Option UpdWork
  /-- program image header as read: IMEM_BYTES, DMEM_BYTES, ANCHOR_DADDR, ANCHOR_BYTES, THIN -/
  image    : Vector Nat 5
  /-- UCLK_COUNT at the attempt's start or last resume (R421) -/
  since    : Nat
  /-- the close layer waits on the circle (R298) -/
  ligWait  : Bool
  /-- a kill that waits for a slot or for the Ranger to run; true if the plot is scrubbed whatever RETAIN holds (R312, R435) -/
  killDue  : Option Bool
  /-- a RELEASE that waits for the Ranger to run (R435) -/
  releaseDue : Bool
  deriving DecidableEq, Repr

end Sys2Proof.Machine
end

