-- ==== Sys2Proof/Machine/LigState.lean ====
section
/-! DEFINITION. State of the Ligature engine (chapter 11). Plain data. -/

namespace Sys2Proof.Machine

/-- The snapshot of the circle control block (R285, R286); `members` lists (ORDINAL, NEXT_HOP) by rank. -/
structure Circle where
  epoch      : Word32
  flags      : Nat
  combineVa  : Nat
  combineMib : Nat
  statusLen  : Nat
  ownerVa    : Nat
  ownerMib   : Nat
  statusVa   : Nat
  members    : List (Nat × Nat)
  /-- this device's rank -/
  rank       : Nat
  deriving DecidableEq, Repr

/-- Bucket states (R294). -/
inductive BucketSt where
  | forming | ready | agreeing | reducing | owned | closed
  deriving DecidableEq, Repr

/-- Items received in a packet for a bucket: LOP (1 SCALE, 3 PARTIAL, 4 PARAM), root rank, level, state number of a PARAM,
first item, values. -/
structure LigPart where
  lop    : Nat
  root   : Nat
  level  : Nat
  sel    : Nat
  offset : Nat
  vals   : List Int
  deriving DecidableEq, Repr

/-- One bucket (R292 to R297, R308). Groups are numbered through the step: `first` to `first + groups − 1`. -/
structure Bucket where
  st      : BucketSt
  first   : Nat
  groups  : Nat
  /-- own proposals: exponents by group, or scale bytes by block (R295, R296) -/
  mine    : List Int
  /-- agreed values; empty until AGREED is complete -/
  agreed  : List Int
  /-- received AGREED items -/
  down    : List LigPart
  /-- received SCALE, PARTIAL and PARAM items -/
  parts   : List LigPart
  /-- own partial sent (or complete, at the root) on the owner tree of each rank -/
  sent    : List Nat
  /-- SCALE sent up -/
  scaled  : Bool
  bst     : Nat
  tReady  : Nat
  tAgreed : Nat
  tDone   : Nat
  /-- state byte of its header: 0 none yet -/
  header  : Nat
  deriving DecidableEq, Repr

/-- What the owner keeps in the owner area for one owned group (R297): the group's number in the step, its place in the area,
whether it is a staged sum (else a pre-image), whether an integer sum, and its GEXP. -/
structure OwnerSlot where
  group  : Nat
  off    : Nat
  staged : Bool
  isInt  : Bool
  gexp   : Int
  /-- the overflowed elements are left unchanged: blocks of the group, one bit each (R295, R296) -/
  ovf    : Nat
  deriving DecidableEq, Repr

/-- A CLOSE received (R298, R307). -/
structure CloseRec where
  level  : Nat
  vote   : Nat
  folded : Nat
  /-- descriptor to norm partial and NF -/
  norms  : List (Nat × Int × Bool)
  deriving DecidableEq, Repr

/-- The open step (R290 to R303). -/
structure LigStep where
  ctx      : Nat
  step     : Nat
  lsExp    : Int
  bs8      : Bool
  mark     : Nat
  tensors  : List UpdTensor
  /-- UPD_LIST of the open layer -/
  list     : Nat
  /-- groups of the step collected so far (R292) -/
  taken    : Nat
  buckets  : List Bucket
  /-- packets for buckets that have not closed here yet, oldest first -/
  early    : List (List LinkUnit)
  owner    : List OwnerSlot
  /-- owner-area bytes in use -/
  ownerTop : Nat
  /-- the close layer waits: STEP_CLOSE is due (R298) -/
  closing  : Bool
  /-- STEP_CLOSE has come: the CLOSE goes up when those of the children are in -/
  closeReady : Bool
  closeSent : Bool
  /-- VETO of R298 with its reason -/
  veto     : Option Nat
  closes   : List CloseRec
  /-- 0 none, 1 COMMIT, 2 SKIP, 3 VETO -/
  verdict  : Nat
  votes    : Nat
  /-- descriptor to clip factor, as received or decided -/
  factors  : Tab Nat
  /-- clip factors of a VERDICT that is still arriving: offset and values -/
  vparts   : List (Nat × List Nat)
  /-- (bucket, owner rank, state number) whose parameters have been received and written (R300) -/
  final    : List (Nat × Nat × Nat)
  deriving DecidableEq, Repr

/-- The engine (R285 to R310). -/
structure Lig where
  circle   : Option Circle
  open_    : Option LigStep
  /-- LIG_STEP, LIG_BUCKETS, LIG_STATUS of the latest step -/
  lastStep : Nat
  formed   : Nat
  ownedCount : Nat
  lastBs8  : Bool
  /-- the latest step ended by abandonment -/
  abandoned : Bool
  /-- LIG_LAST -/
  outcome  : Nat
  diverged : Bool
  reason   : Nat
  detOrd   : Nat
  invalid  : Nat
  /-- step that ended while its close layer does not wait (not yet run, being replayed, pre-empted): context, step and the completion code
  that the close layer meets when it waits -/
  dead     : Option (Nat × Nat × Nat)
  /-- ABORTs seen, by (detecting ordinal, STEP) -/
  seen     : List (Nat × Nat)
  /-- packets of the hold area (R304), oldest first -/
  held     : List (List LinkUnit)
  /-- packets of this device that wait for an ACTIVE port, with the next hop -/
  waiting  : List (Nat × List LinkUnit)
  /-- next hop ordinal to the last port used (R287) -/
  robin    : Tab Nat
  fwd      : Nat
  deriving DecidableEq, Repr

def Lig.closed : Lig :=
  { circle := none, open_ := none, lastStep := 0, formed := 0, ownedCount := 0, lastBs8 := false, abandoned := false, outcome := 0,
    diverged := false, reason := 0, detOrd := 0, invalid := 0, dead := none, seen := [], held := [], waiting := [],
    robin := [], fwd := 0 }

end Sys2Proof.Machine
end

