-- ==== Sys2Proof/Machine/LinkState.lean ====
section
/-! DEFINITION. State of the Drurid ports (chapter 10). Plain data. -/

namespace Sys2Proof.Machine

/-- Link states (R271). -/
inductive PortSt where
  | off | detect | negotiate | equalize | identify | ready | active | retrain
  deriving DecidableEq, Repr

/-- Where a RETRAIN stands (R278): it runs NEGOTIATE, EQUALIZE and IDENTIFY again. -/
inductive Train where
  | negotiate | equalize | identify
  deriving DecidableEq, Repr

/-- The lanes of one direction, by transmitter lane number (R272, R279), as 9-bit masks. -/
structure Lanes9 where
  /-- a training has found which lanes are good since the link was last down -/
  known  : Bool
  /-- not good: retired in service since the link was last down -/
  bad    : Nat
  /-- good in this training -/
  good   : Nat
  active : Nat
  /-- the spare: the lowest good lane that stands by -/
  spare  : Option Nat
  /-- failed in EQUALIZE, by rate -/
  failed : Vector Nat 4
  deriving DecidableEq, Repr

/-- Identity of the partner (R274, R276). -/
structure Peer where
  valid  : Bool
  digest : List Byte
  ordinal : Nat
  port   : Nat
  serial : Nat
  deriving DecidableEq, Repr

/-- A codeword of the replay buffer: its SEQ, its ten units, how often it has been resent without acknowledgement (R268), and the lanes it goes
over, the transmit lane set at its number (R279). -/
structure SentCw where
  seq    : Nat
  units  : List LinkUnit
  resent : Nat
  lanes  : Nat
  deriving DecidableEq, Repr

/-- One port. -/
structure Port where
  st       : PortSt
  train    : Train
  /-- the state RETRAIN returns to is ACTIVE -/
  wasActive : Bool
  enable   : Bool
  loopback : Bool
  clash    : Bool
  /-- index of the candidate of R273 being tried -/
  cand     : Nat
  /-- mode: rate 1 28G, 2 56G, 3 112G; width -/
  rate     : Nat
  width    : Nat
  /-- mode before: for WIDTH_DEGRADED -/
  oldRate  : Nat
  oldWidth : Nat
  reversed : Bool
  inverted : Nat
  tx       : Lanes9
  rx       : Lanes9
  peerRate : Nat
  peerMin  : Nat
  /-- next SEQ to send new, SEQ of the last codeword received good, NAK being sent -/
  seq      : Nat
  ack      : Nat
  nak      : Bool
  /-- unacknowledged codewords, oldest first (R268) -/
  replayBuf : List SentCw
  /-- codewords at the end of the replay buffer that are still to be resent -/
  resend   : Nat
  /-- packets taken for sending, and units of the packet that is being sent across codewords -/
  txQ      : List (List LinkUnit)
  txPart   : List LinkUnit
  /-- units of a packet that is being received, units still announced -/
  rxPart   : List LinkUnit
  rxLeft   : Nat
  /-- the packet being received is discarded (reserved TYPE or UNITS above 16) -/
  rxDrop   : Bool
  rxBuf    : List (List LinkUnit)
  credit   : Nat
  owed     : Nat
  peer     : Peer
  nonceOut : Option (BitVec 256)
  nonceIn  : Option (BitVec 256)
  idBytes  : List Byte
  /-- the identity packet being received, units still announced -/
  idPart   : List LinkUnit
  idLeft   : Nat
  /-- this IDENTIFY's codewords (R266, R268): next SEQ, SEQ of the last one received good, NAK being sent, those sent and not acknowledged -/
  idSeq    : Nat
  idAck    : Option Nat
  idNak    : Bool
  idBuf    : List SentCw
  /-- identity packets of a retrain that wait for credit (R270) -/
  idQ      : List (List LinkUnit)
  /-- SPARE_REQ outstanding for a lane of the receive direction, lanes that wait, and switches agreed -/
  spareOut : Option Nat
  spareQ   : List Nat
  rxSwitch : Option (Nat × Nat)
  txSwitch : Option (Nat × Nat)
  /-- the 100 ms hold after an identity failure runs -/
  hold     : Bool
  lastDown : Nat
  /-- symbol errors per receive lane since the link came up -/
  laneErr  : Tab Nat
  deriving DecidableEq, Repr

def Lanes9.zero : Lanes9 := ⟨false, 0, 0, 0, Option.none, Vector.replicate 4 0⟩
def Peer.unknown : Peer := ⟨false, [], 0, 0, 0⟩

def Port.off : Port :=
  { st := .off, train := .negotiate, wasActive := false, enable := false, loopback := false, clash := false, cand := 0, rate := 0,
    width := 0, oldRate := 0, oldWidth := 0, reversed := false, inverted := 0, tx := Lanes9.zero, rx := Lanes9.zero, peerRate := 0,
    peerMin := 0, seq := 0, ack := 511, nak := false, replayBuf := [], resend := 0, txQ := [], txPart := [],
    rxPart := [], rxLeft := 0, rxDrop := false, rxBuf := [], credit := 0, owed := 0, peer := Peer.unknown, nonceOut := none,
    nonceIn := none, idBytes := [], idPart := [], idLeft := 0, idSeq := 0, idAck := none, idNak := false, idBuf := [], idQ := [],
    spareOut := none, spareQ := [], rxSwitch := none, txSwitch := none, hold := false, lastDown := 0, laneErr := [] }

end Sys2Proof.Machine
end

