-- ==== Sys2Proof/Machine/MemState.lean ====
section
/-! DEFINITION. State of HBM, the memory controllers and the Canopy (chapters 01 and 08). Plain data. -/

namespace Sys2Proof.Machine

/-- A range of HBM whose contents are open: the bytes from `lo` to `hi` − 1 that nothing has written since read as the open
values numbered `n` (R362, R378, R331). -/
structure Fill where
  lo : Nat
  hi : Nat
  n  : Nat
  deriving DecidableEq, Repr

/-- HBM by device physical address (R214, R215); `fills`, newest first, decides what an unlisted byte reads as. -/
structure Hbm where
  cells : List Host.Cell
  fills : List Fill
  /-- errors and poison of codewords, by DPA ÷ 16 (R228, R229) -/
  bad   : Tab CwErr
  /-- debug-locked 2 MiB pages to the context that owns them (R419) -/
  locks : Tab Nat
  deriving DecidableEq, Repr

/-- What a transfer of one row is (R110, R124). -/
inductive XKind where
  | read | write | push | pull | local | hint
  deriving DecidableEq, Repr

/-- Where a transfer of one row stands. -/
inductive XSt where
  /-- its request flit is on the Canopy -/
  | req
  /-- the request has reached the controller or the remote nib, or a write's row its controller -/
  | travel
  /-- answered BANK_BUSY (R224) -/
  | busy
  /-- holding a controller tag (R220) -/
  | tag (n : Nat)
  /-- its row has left the controller and its tag n is free, for the sake of another request (R224); the reply is due -/
  | left (n : Nat)
  /-- its flits are on the Canopy -/
  | flying
  /-- every flit has arrived -/
  | arrived
  deriving DecidableEq, Repr

/-- A transfer of one row of a descriptor: the issuing logical nib, the descriptor's place in program order, row i. -/
structure Xfer where
  nib    : Nat
  seq    : Nat
  row    : Nat
  /-- the request that carries the row (R119): its request tag is this one's -/
  group  : Nat
  kind   : XKind
  st     : XSt
  /-- DPA of the HBM row, or the remote logical nib -/
  place  : Nat
  /-- virtual address, or the remote row -/
  addr   : Nat
  data   : Row
  parts  : Nat
  /-- what the stack or the cache answered a waiting read before a later write of its row took effect (R223): the row, or a failure -/
  early  : Option (Option Row)
  deriving DecidableEq, Repr

/-- A flit in flight (R23 to R26): its transfer, its part of the row, its plane, its source's router, the router it has reached and the one
it is bound for, as 32 y + x. A request's flit has part 8 and stands for its transfer's whole request. -/
structure Flit where
  id    : Nat
  nib   : Nat
  seq   : Nat
  row   : Nat
  part  : Nat
  plane : Nat
  src   : Nat
  at_   : Nat
  dst   : Nat
  /-- the ports by which it came from its source and leaves at its destination: 0 the nib's, else the side of the edge block -/
  sport : Nat
  dport : Nat
  /-- the input port of that router it waits at: 0 local, 1 north, 2 east, 3 south, 4 west; a perimeter router's outward port, to its edge
  block, stands on the side where it has no neighbour (R22, R23) -/
  port  : Nat
  deriving DecidableEq, Repr

/-- A seam link-direction (R28 to R30, R36). -/
structure SeamDir where
  /-- spare wires in use, bit k for spare k -/
  spares  : Nat
  failed  : Bool
  /-- CRC failures since power-up -/
  crcs    : Nat
  /-- flits that have crossed, and the numbers of those of the last 2^20 that failed -/
  flits   : Nat
  recent  : List Nat
  /-- wire to be replaced when the drain ends -/
  drain   : Option Nat
  deriving DecidableEq, Repr

def SeamDir.zero : SeamDir := ⟨0, false, 0, 0, [], none⟩

structure Canopy where
  flits  : List Flit
  nextId : Nat
  seams  : Tab SeamDir
  xfers  : List Xfer
  /-- the input port served last by an output port: 8 × (1,024 × plane + router) + output port (R24) -/
  robin  : Tab Nat
  deriving DecidableEq, Repr

/-- A post-package repair in progress (R231): DRAM row key (pseudo-channel, bank, row) and whether it answers an
uncorrectable error. -/
structure Repair where
  key : Nat
  ue  : Bool
  deriving DecidableEq, Repr

/-- A line of the memory-side cache (R226, R227). -/
structure Line where
  /-- the row: DPA ÷ 512 -/
  row   : Nat
  way   : Nat
  dirty : Bool
  /-- a prefetch hint filled it and nothing has used it: it is the least recently used -/
  low   : Bool
  /-- errors and poison of its codewords, 0 to 31 -/
  errs  : Tab CwErr
  deriving DecidableEq, Repr

/-- A memory controller and its stack (R220 to R233). -/
structure Mc where
  trained  : Bool
  tempC    : Nat
  doubled  : Bool
  /-- correctable errors per DRAM row key -/
  ceRow    : Tab Nat
  repairs  : List Repair
  /-- DRAM row key to its kind of repair: 1 soft, 2 remapped, 3 hard -/
  repaired : Tab Nat
  /-- banks whose soft repair resource has been used (R231) -/
  softBanks : Tab Bool
  soft     : Nat
  slots    : Nat
  /-- bank (as R216 numbers it, bank × 64 + pseudo-channel) to the DRAM row whose page is open (R221) -/
  pages    : Tab Nat
  /-- set to its lines, most recently used first (R226) -/
  cache    : Tab (List Line)
  /-- retired way-slices, slice × 16 + way (R227) -/
  wayGone  : Tab Bool
  /-- correctable errors of each way-slice since power-up (R407) -/
  wayCe    : Tab Nat
  /-- next row of the patrol, local address ÷ 512 -/
  patrol   : Nat
  /-- the first row of the DRAM row under patrol had an error (R231) -/
  passBad  : Bool
  deriving DecidableEq, Repr

def Mc.off : Mc := ⟨false, 0, false, [], [], [], [], 0, 0, [], [], [], [], 0, false⟩

/-- Page-table invalidation in progress (R219), and the Spatter evaluation (R186). -/
structure Mmu where
  inv     : Option Nat
  spatter : Option (List Word32)
  deriving DecidableEq, Repr

end Sys2Proof.Machine
end

