-- ==== Sys2Proof/Machine/RegMap.lean ====
section
/-! DEFINITION. The registers of every page (R35, R36, R64, R97, R128, R130, R165, R167, R186, R187, R212, R233, R235, R262,
R282, R283, R309, R340, R342, R366, R368, R370, R395, R397, R399, R400, R426): offset in the page and the bits of each access
code of R10. Reserved bits are in no mask (R11). -/

namespace Sys2Proof.Machine

/-- The page types of R433. -/
inductive Page where
  | boot | security | pcie | understory | clock | supply | seedbank | ranger | sheet | canopy | numeric | matrix | inkwell | dma
  | vector | quill | thin | litter | spatter | mmu | scribe | links | ligature | memctl | port | vfunc | ctx
  deriving DecidableEq, Repr

/-- One register: its offset and the masks of its RW, RWL, WO, W1C, RC and RO bits. -/
structure RegInfo where
  off : Nat
  rw  : Nat
  rwl : Nat
  wo  : Nat
  w1c : Nat
  rc  : Nat
  ro  : Nat
  deriving DecidableEq, Repr

/-- BOOT page. -/
def bootRegs : List RegInfo :=
  [⟨0x40, 0, 0, 0, 0, 0, 0x3FF⟩, ⟨0x44, 0, 0, 0x1F, 0, 0, 0⟩, ⟨0x48, 0, 0, 0, 0, 0, 0xFFFF⟩,
   ⟨0x4C, 0, 0, 0, 0, 0, 0xFFFFFFF⟩, ⟨0x50, 0, 0, 0, 0, 0, 0xFF⟩, ⟨0x54, 0, 0xFFFFFFFF, 0, 0, 0, 0⟩,
   ⟨0x58, 0, 0xFFFFFFFF, 0, 0, 0, 0⟩, ⟨0x5C, 0, 0xFFFFFFFF, 0, 0, 0, 0⟩, ⟨0x60, 0, 0xFFFFFFFF, 0, 0, 0, 0⟩,
   ⟨0x64, 0, 0xF, 0, 0, 0, 0⟩, ⟨0x68, 0, 0, 0xF, 0, 0, 0⟩, ⟨0x6C, 0, 0, 0, 0, 0, 0x1F⟩,
   ⟨0x70, 0, 0, 0, 0, 0xFFFFFFFF, 0⟩, ⟨0x80, 0, 0xFFFFFFFF, 0, 0, 0, 0⟩, ⟨0x84, 0, 0xFFFFFFFF, 0, 0, 0, 0⟩,
   ⟨0x88, 0, 0xFFFFFFFF, 0, 0, 0, 0⟩, ⟨0x8C, 0, 0xFFFFFFFF, 0, 0, 0, 0⟩, ⟨0x90, 0, 0xFFFFFFFF, 0, 0, 0, 0⟩,
   ⟨0x94, 0, 0xFFFFFFFF, 0, 0, 0, 0⟩, ⟨0x98, 0, 0xFFFFFFFF, 0, 0, 0, 0⟩, ⟨0x9C, 0, 0xFFFFFFFF, 0, 0, 0, 0⟩,
   ⟨0xA0, 0, 0, 0, 0, 0, 0xFFFFFFFF⟩, ⟨0xA4, 0, 0, 0, 0, 0, 0xFFFFFFFF⟩, ⟨0xA8, 0, 0, 0, 0, 0, 0xFFFFFFFF⟩,
   ⟨0xAC, 0, 0, 0, 0, 0, 0xFFFFFFFF⟩, ⟨0xB0, 0, 0, 0, 0, 0, 0xFFFFFFFF⟩, ⟨0xB4, 0, 0, 0, 0, 0, 0xFFFFFFFF⟩,
   ⟨0xB8, 0, 0, 0, 0, 0, 0xFFFFFFFF⟩, ⟨0xBC, 0, 0, 0, 0, 0, 0xFFFFFFFF⟩]

/-- SECURITY page. -/
def securityRegs : List RegInfo :=
  [⟨0x40, 0, 0, 1, 0, 0, 0⟩, ⟨0x44, 0, 0, 0, 0, 0, 3⟩, ⟨0x48, 0xFFFFFFFF, 0, 0, 0, 0, 0⟩,
   ⟨0x4C, 0xFFFFFFFF, 0, 0, 0, 0, 0⟩, ⟨0x50, 0xFFFFFFFF, 0, 0, 0, 0, 0⟩, ⟨0x54, 0xFFFFFFFF, 0, 0, 0, 0, 0⟩,
   ⟨0x58, 0xFFFFFFFF, 0, 0, 0, 0, 0⟩, ⟨0x5C, 0xFFFFFFFF, 0, 0, 0, 0, 0⟩, ⟨0x60, 0xFFFFFFFF, 0, 0, 0, 0, 0⟩,
   ⟨0x64, 0xFFFFFFFF, 0, 0, 0, 0, 0⟩, ⟨0x68, 0, 0, 0, 0, 0, 0xFFFFFFFF⟩, ⟨0x6C, 0, 0, 0, 0, 0, 0xFFFFFFFF⟩,
   ⟨0x70, 0, 0, 0, 0, 0, 0xFFFFFFFF⟩, ⟨0x74, 0, 0, 0, 0, 0, 0xFFFFFFFF⟩, ⟨0x78, 0, 0, 0, 0, 0, 0xFFFFFFFF⟩,
   ⟨0x7C, 0, 0, 0, 0, 0, 0xFFFFFFFF⟩, ⟨0x80, 0, 0, 0, 0, 0, 0xFFFFFFFF⟩, ⟨0x84, 0, 0, 0, 0, 0, 0xFFFFFFFF⟩,
   ⟨0x88, 0, 0, 0, 0, 0, 0xFFFFFFFF⟩, ⟨0x8C, 0, 0, 0, 0, 0, 0xFFFFFFFF⟩, ⟨0x90, 0, 0, 0, 0, 0, 0xFFFFFFFF⟩,
   ⟨0x94, 0, 0, 0, 0, 0, 0xFFFFFFFF⟩, ⟨0x98, 0, 0, 0, 0, 0, 0xFFFFFFFF⟩, ⟨0x9C, 0, 0, 0, 0, 0, 0xFFFFFFFF⟩,
   ⟨0xA0, 0, 0, 0, 0, 0, 0xFFFFFFFF⟩, ⟨0xA4, 0, 0, 0, 0, 0, 0xFFFFFFFF⟩, ⟨0xA8, 0, 0, 0, 0, 0, 0xFFFFFFFF⟩,
   ⟨0xAC, 0, 0, 0, 0, 0, 0xFFFFFFFF⟩]

/-- PCIE page. -/
def pcieRegs : List RegInfo :=
  [⟨0x40, 0, 0, 0, 0, 0, 0x1FF⟩, ⟨0x44, 0x7F, 0, 0, 0, 0, 0⟩, ⟨0x48, 0, 0, 0, 0, 0, 0xFFFE⟩,
   ⟨0x4C, 0, 0, 0, 0, 0xFFFFFFFF, 0⟩, ⟨0x50, 0, 0, 0, 0, 0xFFFFFFFF, 0⟩, ⟨0x54, 0, 0, 0, 0, 0, 0x7FFFFFFF⟩,
   ⟨0x80, 0x8007FFFF, 0, 0, 0, 0, 0⟩, ⟨0x84, 0x8007FFFF, 0, 0, 0, 0, 0⟩, ⟨0x88, 0x8007FFFF, 0, 0, 0, 0, 0⟩,
   ⟨0x8C, 0x8007FFFF, 0, 0, 0, 0, 0⟩, ⟨0x90, 0x8007FFFF, 0, 0, 0, 0, 0⟩, ⟨0x94, 0x8007FFFF, 0, 0, 0, 0, 0⟩,
   ⟨0x98, 0x8007FFFF, 0, 0, 0, 0, 0⟩, ⟨0x9C, 0x8007FFFF, 0, 0, 0, 0, 0⟩, ⟨0xA0, 0x8007FFFF, 0, 0, 0, 0, 0⟩,
   ⟨0xA4, 0x8007FFFF, 0, 0, 0, 0, 0⟩, ⟨0xA8, 0x8007FFFF, 0, 0, 0, 0, 0⟩, ⟨0xAC, 0x8007FFFF, 0, 0, 0, 0, 0⟩,
   ⟨0xB0, 0x8007FFFF, 0, 0, 0, 0, 0⟩, ⟨0xB4, 0x8007FFFF, 0, 0, 0, 0, 0⟩, ⟨0xB8, 0x8007FFFF, 0, 0, 0, 0, 0⟩,
   ⟨0xBC, 0x8007FFFF, 0, 0, 0, 0, 0⟩]

/-- UNDERSTORY page. -/
def understoryRegs : List RegInfo :=
  [⟨0x40, 0, 0, 0, 0, 0, 0xFFFFFFFF⟩, ⟨0x44, 0, 0, 0, 0, 0, 0xFFFFFFFF⟩, ⟨0x48, 0, 0x3FFF, 0, 0, 0, 0⟩,
   ⟨0x4C, 0, 1, 0, 0, 0, 0⟩, ⟨0x50, 0, 0, 0, 0, 0, 0xFFFFFFFF⟩, ⟨0x54, 0, 0, 0, 0, 0, 0xFFFFFFFF⟩,
   ⟨0x58, 0, 0, 0, 0, 0, 0xFFFFFFFF⟩, ⟨0x5C, 0, 0, 0, 0, 0, 0xFFFFFFFF⟩, ⟨0x60, 0, 0, 0, 0x1F, 0, 0⟩,
   ⟨0x64, 0, 0, 0, 0, 0xFFFFFFFF, 0⟩, ⟨0x68, 0, 0, 0, 0, 0xFFFFFFFF, 0⟩, ⟨0x6C, 0, 0, 0, 0, 0, 3⟩]

/-- CLOCK page. -/
def clockRegs : List RegInfo :=
  [⟨0x40, 0, 0x1F, 0, 0, 0, 0⟩, ⟨0x44, 0x3F, 0, 0, 0, 0, 0⟩, ⟨0x48, 0, 0, 0, 0, 0, 0x7FFFF⟩,
   ⟨0x4C, 0, 0, 0, 0, 0, 0x3FF⟩, ⟨0x50, 0, 0, 0, 0, 0xFFFFFFFF, 0⟩, ⟨0x54, 0, 0, 0, 0, 0, 0xF⟩]

/-- SUPPLY page. -/
def supplyRegs : List RegInfo :=
  [⟨0x40, 0, 0xFFF, 0, 0, 0, 0⟩, ⟨0x44, 0, 0xFFFF, 0, 0, 0, 0⟩, ⟨0x48, 0, 0, 0, 0, 0, 0x3FFFF⟩,
   ⟨0x4C, 0, 0, 0, 0, 0, 0xFFFF⟩, ⟨0x50, 0, 0, 0, 0, 0, 0xFFFFFFFF⟩, ⟨0x54, 0, 0, 0, 0, 0xFFFFFFFF, 0⟩,
   ⟨0x58, 0x7F, 0, 0, 0, 0, 0⟩, ⟨0x5C, 0, 0, 0, 0, 0, 0xFFFF⟩, ⟨0x60, 0, 0, 0, 0, 0, 0x7FFF⟩,
   ⟨0x64, 0, 0, 0, 0, 0xFFFFFFFF, 0⟩, ⟨0x80, 0, 0xFFFFFF, 0, 0, 0, 0⟩, ⟨0x84, 0, 0x3FFFF, 0, 0, 0, 0⟩,
   ⟨0x88, 0, 0xFFFFFF, 0, 0, 0, 0⟩, ⟨0x8C, 0, 0x3FFFF, 0, 0, 0, 0⟩, ⟨0x90, 0, 0xFFFFFF, 0, 0, 0, 0⟩,
   ⟨0x94, 0, 0x3FFFF, 0, 0, 0, 0⟩, ⟨0x98, 0, 0xFFFFFF, 0, 0, 0, 0⟩, ⟨0x9C, 0, 0x3FFFF, 0, 0, 0, 0⟩,
   ⟨0xA0, 0, 0xFFFFFF, 0, 0, 0, 0⟩, ⟨0xA4, 0, 0x3FFFF, 0, 0, 0, 0⟩, ⟨0xA8, 0, 0xFFFFFF, 0, 0, 0, 0⟩,
   ⟨0xAC, 0, 0x3FFFF, 0, 0, 0, 0⟩, ⟨0xB0, 0, 0xFFFFFF, 0, 0, 0, 0⟩, ⟨0xB4, 0, 0x3FFFF, 0, 0, 0, 0⟩,
   ⟨0xB8, 0, 0xFFFFFF, 0, 0, 0, 0⟩, ⟨0xBC, 0, 0x3FFFF, 0, 0, 0, 0⟩, ⟨0xC0, 0, 0, 0, 0, 0, 0xFFFFFF⟩,
   ⟨0xC4, 0, 0, 0, 0, 0, 0xFFFFFF⟩, ⟨0xC8, 0, 0, 0, 0, 0, 0xFFFFFF⟩, ⟨0xCC, 0, 0, 0, 0, 0, 0xFFFFFF⟩,
   ⟨0xD0, 0, 0, 0, 0, 0, 0xFFFFFF⟩, ⟨0xD4, 0, 0, 0, 0, 0, 0xFFFFFF⟩, ⟨0xD8, 0, 0, 0, 0, 0, 0xFFFFFF⟩,
   ⟨0xDC, 0, 0, 0, 0, 0, 0xFFFFFF⟩]

/-- SEEDBANK page. -/
def seedbankRegs : List RegInfo :=
  [⟨0x40, 0, 0xFFFFFF, 0, 0, 0, 0⟩, ⟨0x44, 0, 0, 0, 0, 0, 0xFFFFF⟩, ⟨0x48, 0, 0, 0, 0, 0, 0xFFFFFFFF⟩,
   ⟨0x4C, 0, 0, 0, 0, 0, 0x1FFFF⟩, ⟨0x50, 0, 0, 0, 0, 0, 0x7FFFFFFF⟩, ⟨0x54, 0x7FF, 0, 0, 0, 0, 0⟩,
   ⟨0x58, 0, 0, 0, 0, 0, 0xFFFFFFF⟩, ⟨0x5C, 0, 0, 0, 0, 0, 0xFFFFFFFF⟩, ⟨0x60, 0, 0, 0, 0, 0xFFFFFFFF, 0⟩,
   ⟨0x64, 0, 0, 0, 0, 0xFFFFFFFF, 0⟩, ⟨0x68, 0, 0, 0, 0, 0, 0xFFFFFFFF⟩, ⟨0x6C, 0, 0, 0, 0, 0, 0xFFFFFFFF⟩,
   ⟨0x70, 0, 0, 0, 0, 0, 0xFFFFFFFF⟩, ⟨0x74, 0, 0, 0, 0, 0, 0xFFFFFFFF⟩, ⟨0x78, 0, 0, 0, 0, 0xFFFFFFFF, 0⟩,
   ⟨0x7C, 0, 0, 0, 0, 0, 0xFFFFFFFF⟩, ⟨0x80, 0, 0, 0, 0, 0, 0x1FF⟩]

/-- RANGER page. -/
def rangerRegs : List RegInfo :=
  [⟨0x40, 0x1FFFFFF, 0, 0, 0, 0, 0⟩, ⟨0x44, 0, 0xFFFFFFF, 0, 0, 0, 0⟩, ⟨0x48, 0, 0x1F, 0, 0, 0, 0⟩,
   ⟨0x4C, 0, 0, 0, 0, 0, 0xFFFFFFFF⟩, ⟨0x50, 0, 0, 0, 0, 0, 0xFFFFFFFF⟩, ⟨0x54, 0, 0, 0, 0, 0, 0x7FFF⟩,
   ⟨0x58, 0, 0, 0, 0, 0, 0xFFFFFFFF⟩, ⟨0x5C, 0, 0, 0, 0, 0, 0xFFFFFFFF⟩, ⟨0x60, 0, 0, 0, 0, 0, 0xFFFFFFFF⟩,
   ⟨0x64, 0, 0, 0, 0, 0, 0xFFFFFFFF⟩, ⟨0x68, 0, 0, 0, 0, 0, 0xFFFF⟩, ⟨0x6C, 0, 0, 0, 0, 0, 0x3FFF⟩,
   ⟨0x70, 0, 0, 0, 0, 0xFFFFFFFF, 0⟩, ⟨0x74, 0, 0, 0, 0, 0xFFFFFFFF, 0⟩, ⟨0x78, 0, 0, 0, 0, 0xFFFFFFFF, 0⟩,
   ⟨0x7C, 0, 0, 0, 0, 0, 0xFFFFFFFF⟩, ⟨0x80, 0, 0, 0, 0, 0, 0xFFFFFFFF⟩]

/-- SHEET page. -/
def sheetRegs : List RegInfo :=
  [⟨0x40, 0, 0, 0, 0, 0, 0xF⟩, ⟨0x44, 0, 0, 0, 0, 0, 0xFFFFFFF⟩, ⟨0x48, 0, 0, 0, 0, 0, 0xFFFFFFFF⟩,
   ⟨0x4C, 0, 0, 0, 0, 0, 0xFFFFFFFF⟩, ⟨0x50, 0, 0, 0, 0, 0, 0xFFFFFFFF⟩, ⟨0x54, 0, 0, 0, 0, 0, 0xFFFFFFFF⟩,
   ⟨0x58, 0, 0, 0, 0, 0, 0x7F⟩]

/-- CANOPY page. -/
def canopyRegs : List RegInfo :=
  [⟨0x40, 0, 0xFF03, 0, 0, 0, 0⟩, ⟨0x44, 0xFF, 0, 0, 0, 0, 0⟩, ⟨0x48, 0, 0, 0, 0, 0, 0xFFFFFF1F⟩,
   ⟨0x4C, 0, 0, 0, 0, 0, 0x3FFFFF⟩, ⟨0x50, 0, 0, 0, 0, 0xFFFFFFFF, 0⟩]

/-- NUMERIC page. -/
def numericRegs : List RegInfo :=
  [⟨0x40, 0, 0x33, 0, 0, 0, 0⟩, ⟨0x44, 0, 0, 0, 0, 0xFFFFFFFF, 0⟩, ⟨0x48, 0, 0, 0, 0, 0xFFFFFFFF, 0⟩,
   ⟨0x4C, 0, 0, 0, 0, 0xFFFFFFFF, 0⟩, ⟨0x50, 0, 0, 0, 0, 0xFFFFFFFF, 0⟩, ⟨0x54, 0, 0, 0, 0, 0, 0xFF⟩]

/-- MATRIX page. -/
def matrixRegs : List RegInfo :=
  [⟨0x40, 0, 0xFFFFFF, 0, 0, 0, 0⟩, ⟨0x44, 0, 0, 0, 0, 0xFFFFFFFF, 0⟩, ⟨0x48, 0x3FF, 0, 0, 0, 0, 0⟩,
   ⟨0x4C, 0, 0, 0, 0, 0, 0x1FFF⟩, ⟨0x50, 0, 0, 0, 0, 0, 0xFFFFFFFF⟩, ⟨0x54, 0, 0, 0, 0, 0, 0xFFFFFFFF⟩,
   ⟨0x58, 0, 0, 0, 0, 0, 0xFFFFFFFF⟩, ⟨0x5C, 0, 0, 0, 0, 0, 0xFFFFFFFF⟩, ⟨0x60, 0, 0, 0, 0, 0, 0xFFFFFFFF⟩,
   ⟨0x64, 0, 0, 0, 0, 0, 0xFFFFFFFF⟩, ⟨0x68, 0, 0, 0, 0, 0, 0xFFFFFFFF⟩, ⟨0x6C, 0, 0, 0, 0, 0, 0xF⟩]

/-- INKWELL page. -/
def inkwellRegs : List RegInfo :=
  [⟨0x40, 0, 0xF, 0, 0, 0, 0⟩, ⟨0x44, 0, 0, 0, 0, 0xFFFFFFFF, 0⟩, ⟨0x48, 0x3FF, 0, 0, 0, 0, 0⟩,
   ⟨0x4C, 0, 0, 0, 0, 0, 0x7FFFFF⟩, ⟨0x50, 0, 0, 0, 0, 0, 0xFFFFFFFF⟩, ⟨0x54, 0, 0, 0, 0, 0, 0xFFFFFFFF⟩,
   ⟨0x58, 0, 0, 0, 0, 0, 0xFFFFFFFF⟩, ⟨0x5C, 0, 0, 0, 0, 0, 0xFFFFFFFF⟩]

/-- DMA page. -/
def dmaRegs : List RegInfo :=
  [⟨0x40, 0, 0xFFFFF, 0, 0, 0, 0⟩, ⟨0x44, 0, 0, 0, 0, 0xFFFFFFFF, 0⟩, ⟨0x48, 0, 0, 0, 0, 0xFFFFFFFF, 0⟩,
   ⟨0x4C, 0x3FFF, 0, 0, 0, 0, 0⟩, ⟨0x50, 0, 0, 0, 0, 0, 0xFFFF⟩, ⟨0x54, 0, 0, 0, 0, 0, 0xFFFFFFFF⟩,
   ⟨0x58, 0, 0, 0, 0, 0, 0xFFFFFFFF⟩, ⟨0x5C, 0, 0, 0, 0, 0, 0xFFFFFFFF⟩, ⟨0x60, 0, 0, 0, 0, 0, 0xFFFFFFFF⟩,
   ⟨0x64, 0, 0, 0, 0, 0, 0xFFFFFFFF⟩, ⟨0x68, 0, 0, 0, 0, 0, 0xFFFFFFFF⟩, ⟨0x6C, 0, 0, 0, 0, 0, 0x3FF⟩,
   ⟨0x70, 0, 0, 0, 0, 0, 0xFFFF⟩]

/-- VECTOR page. -/
def vectorRegs : List RegInfo :=
  [⟨0x40, 0, 0xFFF, 0, 0, 0, 0⟩, ⟨0x44, 0, 0, 0, 0, 0xFFFFFFFF, 0⟩, ⟨0x48, 0x3FF, 0, 0, 0, 0, 0⟩,
   ⟨0x4C, 0, 0, 0, 0, 0, 0xFFFF⟩, ⟨0x50, 0, 0, 0, 0, 0, 0xFFFFFFFF⟩, ⟨0x54, 0, 0, 0, 0, 0, 0xFFFFFFFF⟩,
   ⟨0x58, 0, 0, 0, 0, 0, 0xFFFFFFFF⟩, ⟨0x5C, 0, 0, 0, 0, 0, 0xFFFFFFFF⟩, ⟨0x60, 0, 0, 0, 0, 0, 0xF⟩]

/-- QUILL page. -/
def quillRegs : List RegInfo :=
  [⟨0x40, 0, 0xFFF, 0, 0, 0, 0⟩, ⟨0x44, 0, 0, 0, 0, 0xFFFFFFFF, 0⟩, ⟨0x48, 0x3FF, 0, 0, 0, 0, 0⟩,
   ⟨0x4C, 0, 0, 0, 0, 0, 0x7FFFF⟩, ⟨0x50, 0, 0, 0, 0, 0, 0xFFFFFF⟩, ⟨0x54, 0, 0, 0, 0, 0, 0x1FFFFFF⟩,
   ⟨0x58, 0, 0, 0, 0, 0, 0x1FFFF⟩, ⟨0x5C, 0, 0, 0, 0, 0, 0xFFFFFFFF⟩, ⟨0x60, 0, 0, 0, 0, 0, 0xFFFFFFFF⟩]

/-- THIN page. -/
def thinRegs : List RegInfo :=
  [⟨0x40, 0, 0xFFFFF, 0, 0, 0, 0⟩, ⟨0x44, 0, 0, 0, 0, 0xFFFFFFFF, 0⟩, ⟨0x48, 0, 0, 0, 0, 0xFFFFFFFF, 0⟩,
   ⟨0x4C, 0, 0, 0, 0, 0xFFFFFFFF, 0⟩, ⟨0x50, 0, 0, 0, 0, 0xFFFFFFFF, 0⟩, ⟨0x54, 0, 0, 0, 0, 0xFFFFFFFF, 0⟩,
   ⟨0x58, 0, 0, 0, 0, 0, 0xFFFFFFFF⟩, ⟨0x5C, 0, 0, 0, 0, 0, 0x1FF⟩, ⟨0x60, 0x3FF, 0, 0, 0, 0, 0⟩,
   ⟨0x64, 0, 0, 0, 0, 0, 0xFF⟩, ⟨0x68, 0, 0, 0, 0, 0, 0xFFFFFFFF⟩, ⟨0x6C, 0, 0, 0, 0, 0, 0xFFFFFFFF⟩,
   ⟨0x70, 0, 0, 0, 0, 0, 7⟩]

/-- LITTER page. -/
def litterRegs : List RegInfo :=
  [⟨0x40, 0, 1, 0, 0, 0, 0⟩, ⟨0x44, 0, 0, 0, 0, 0xFFFFFFFF, 0⟩, ⟨0x48, 0, 0, 0, 0, 0xFFFFFFFF, 0⟩,
   ⟨0x4C, 0, 0, 0, 0, 0xFFFFFFFF, 0⟩, ⟨0x50, 0, 0, 0, 0, 0, 0x7FFFFFF⟩, ⟨0x54, 0, 0, 0, 0, 0, 0xFFFFFFFF⟩,
   ⟨0x58, 0, 0, 0, 0, 0, 0xFFFFFFFF⟩, ⟨0x5C, 0, 0, 0, 0, 0, 0xFFFFFFFF⟩, ⟨0x60, 0, 0, 0, 0, 0, 0xFFFFFFFF⟩]

/-- SPATTER page. -/
def spatterRegs : List RegInfo :=
  [⟨0x40, 0xFFFFFFFF, 0, 0, 0, 0, 0⟩, ⟨0x44, 0xFFFFFFFF, 0, 0, 0, 0, 0⟩, ⟨0x48, 0xFFFFFFFF, 0, 0, 0, 0, 0⟩,
   ⟨0x4C, 0xFFFFFFFF, 0, 0, 0, 0, 0⟩, ⟨0x50, 0xFFFFFFFF, 0, 0, 0, 0, 0⟩, ⟨0x54, 0xFFFFFFFF, 0, 0, 0, 0, 0⟩,
   ⟨0x58, 0, 0, 1, 0, 0, 0⟩, ⟨0x5C, 0, 0, 0, 0, 0, 0xFFFFFFFF⟩, ⟨0x60, 0, 0, 0, 0, 0, 0xFFFFFFFF⟩,
   ⟨0x64, 0, 0, 0, 0, 0, 0xFFFFFFFF⟩, ⟨0x68, 0, 0, 0, 0, 0, 0xFFFFFFFF⟩]

/-- MMU page. -/
def mmuRegs : List RegInfo :=
  [⟨0x40, 0, 0, 0x1FF, 0, 0, 0⟩, ⟨0x44, 0, 0, 0, 0, 0, 1⟩, ⟨0x48, 0, 0, 0, 0, 0xFFFFFFFF, 0⟩,
   ⟨0x4C, 0, 0, 0, 0, 0xFFFFFFFF, 0⟩, ⟨0x50, 0, 0, 0, 0, 0, 0xFFFFFFFF⟩, ⟨0x54, 0, 0, 0, 0, 0, 0x3FFFFFF⟩]

/-- SCRIBE page. -/
def scribeRegs : List RegInfo :=
  [⟨0x40, 0, 0xFFF, 0, 0, 0, 0⟩, ⟨0x44, 0, 0, 0, 0, 0, 0xFFFFFFFF⟩, ⟨0x48, 0, 0, 0, 0, 0, 0xFFFFFFFF⟩,
   ⟨0x4C, 0, 0, 0, 0, 0xFFFFFFFF, 0⟩, ⟨0x50, 0, 0, 0, 0, 0xFFFFFFFF, 0⟩, ⟨0x54, 0, 0, 0, 0, 0xFFFFFFFF, 0⟩,
   ⟨0x58, 0, 0, 0, 0, 0xFFFFFFFF, 0⟩, ⟨0x5C, 7, 0, 0, 0, 0, 0⟩, ⟨0x60, 0, 0, 0, 0, 0, 0xFFF⟩,
   ⟨0x64, 0, 0, 0, 0, 0, 0xFFFFFFFF⟩, ⟨0x68, 0, 0, 0, 0, 0, 0xFFFF1FFF⟩, ⟨0x6C, 0, 0, 0, 0, 0, 0x7FFFF⟩]

/-- LINKS page. -/
def linksRegs : List RegInfo :=
  [⟨0x40, 0, 0xFFF1FFF, 0, 0, 0, 0⟩, ⟨0x44, 0, 0, 0, 0, 0, 0xFFFFFFFF⟩, ⟨0x48, 0, 0, 0, 0, 0xFFFFFFFF, 0⟩]

/-- LIGATURE page. -/
def ligatureRegs : List RegInfo :=
  [⟨0x40, 0, 0xFFF7F, 0, 0, 0, 0⟩, ⟨0x44, 0x1FF, 0, 0, 0, 0, 0⟩, ⟨0x48, 0xFFFFFFFF, 0, 0, 0, 0, 0⟩,
   ⟨0x4C, 0xFFFF, 0, 0, 0, 0, 0⟩, ⟨0x50, 0, 0, 0, 0, 0, 0xFFF7FFF⟩, ⟨0x54, 0, 0, 0, 0, 0, 0xFFFFFFFF⟩,
   ⟨0x58, 0, 0, 0, 0, 0, 0xFFFFFFFF⟩, ⟨0x5C, 0, 0, 0, 0, 0, 0xFFFFFFFF⟩, ⟨0x60, 0, 0, 0, 0, 0, 0xFFFF7F⟩,
   ⟨0x64, 0, 0, 0, 0, 0xFFFFFFFF, 0⟩, ⟨0x68, 0, 0, 0, 0, 0xFFFFFFFF, 0⟩, ⟨0x6C, 0, 0, 0, 0, 0, 0xFFFFFFFF⟩,
   ⟨0x70, 0, 0, 0, 0, 0, 0xFFFFFFFF⟩, ⟨0x74, 0, 0, 0, 0, 0, 0xFFFF⟩]

/-- MEMCTL page. -/
def memctlRegs : List RegInfo :=
  [⟨0x40, 0, 0x7FFFFF, 0, 0, 0, 0⟩, ⟨0x44, 0, 0xFFFFFF, 0, 0, 0, 0⟩, ⟨0x48, 0, 0, 0, 0, 0, 0xFFF1FFF⟩,
   ⟨0x4C, 0, 0, 0, 0, 0xFFFFFFFF, 0⟩, ⟨0x50, 0, 0, 0, 0, 0xFFFFFFFF, 0⟩, ⟨0x54, 0, 0, 0, 0, 0xFFFFFFFF, 0⟩,
   ⟨0x58, 0, 0, 0, 0, 0, 0xFFFFFFFF⟩, ⟨0x5C, 0, 0, 0, 0, 0, 0xFFFFFFFF⟩, ⟨0x60, 0, 0, 0, 0, 0, 0xFFFFFFFF⟩,
   ⟨0x64, 0, 0, 0, 0, 0, 0xFFFFFFFF⟩, ⟨0x68, 0, 0, 0, 0, 0, 0xFFFFFFFF⟩, ⟨0x6C, 0, 0, 0, 0, 0, 0xFFFFF⟩,
   ⟨0x70, 0, 0, 0, 0, 0, 0x1FFFFFFF⟩, ⟨0x74, 0, 0, 0, 0, 0, 0x1FF⟩, ⟨0x78, 0x7FF, 0, 0, 0, 0, 0⟩,
   ⟨0x7C, 0, 0, 0, 0, 0, 0xFF03⟩]

/-- PORT page. -/
def portRegs : List RegInfo :=
  [⟨0x40, 0, 0xF, 0, 0, 0, 0⟩, ⟨0x44, 1, 0, 6, 0, 0, 0⟩, ⟨0x48, 0, 0, 0, 0, 0, 0x1FFF⟩,
   ⟨0x4C, 0, 0, 0, 0, 0, 0x3FFFF⟩, ⟨0x50, 0, 0, 0, 0, 0, 0x7FFFFFF⟩, ⟨0x54, 0, 0, 0, 0, 0, 0x1FFFF⟩,
   ⟨0x58, 0, 0, 0, 0, 0, 0xFFFFFFFF⟩, ⟨0x5C, 0, 0, 0, 0, 0, 0xFFFFFFFF⟩, ⟨0x60, 0, 0, 0, 0, 0, 0xFFFFFFFF⟩,
   ⟨0x64, 0, 0, 0, 0, 0, 0xFFFFFFFF⟩, ⟨0x68, 0, 0, 0, 0, 0, 0xFFFFFFFF⟩, ⟨0x6C, 0, 0, 0, 0, 0, 0xFFFFFFFF⟩,
   ⟨0x70, 0, 0, 0, 0, 0, 0xFFFFFFFF⟩, ⟨0x74, 0, 0, 0, 0, 0, 0xFFFFFFFF⟩, ⟨0x78, 0, 0, 0, 0, 0, 0xFFFFFFFF⟩,
   ⟨0x7C, 0, 0, 0, 0, 0, 0xFFFFFFFF⟩, ⟨0x80, 0xF, 0, 0, 0, 0, 0⟩, ⟨0x84, 0, 0, 0, 0, 0, 0xFFFFFFFF⟩,
   ⟨0x88, 0, 0, 0, 0, 0xFFFFFFFF, 0⟩, ⟨0x8C, 0, 0, 0, 0, 0xFFFFFFFF, 0⟩, ⟨0x90, 0, 0, 0, 0, 0, 0xFFFFFFFF⟩,
   ⟨0x94, 0, 0, 0, 0, 0, 0xFFFFFFFF⟩, ⟨0x98, 0, 0, 0, 0, 0, 0xFFFFFFFF⟩, ⟨0x9C, 0, 0, 0, 0, 0, 0xFFFFFFFF⟩,
   ⟨0xA0, 0, 0, 0, 0, 0, 0xFFFFFFFF⟩]

/-- VFUNC page. -/
def vfuncRegs : List RegInfo :=
  [⟨0x40, 0xFFE00001, 0, 0, 0, 0, 0⟩, ⟨0x44, 0xFFFFFF, 0, 0, 0, 0, 0⟩, ⟨0x48, 0xFFE00001, 0, 0, 0, 0, 0⟩,
   ⟨0x4C, 0xFFFFFF, 0, 0, 0, 0, 0⟩, ⟨0x50, 0xFFE00001, 0, 0, 0, 0, 0⟩, ⟨0x54, 0xFFFFFF, 0, 0, 0, 0, 0⟩,
   ⟨0x58, 0xFFE00001, 0, 0, 0, 0, 0⟩, ⟨0x5C, 0xFFFFFF, 0, 0, 0, 0, 0⟩]

/-- CTX page. -/
def ctxRegs : List RegInfo :=
  [⟨0x40, 1, 0, 0xE, 0, 0, 0⟩, ⟨0x44, 0xFFFFF, 0, 0, 0, 0, 0⟩, ⟨0x48, 0xFFFFFFFF, 0, 0, 0, 0, 0⟩,
   ⟨0x4C, 0xFF, 0, 0, 0, 0, 0⟩, ⟨0x50, 0xFFFFFFFF, 0, 0, 0, 0, 0⟩, ⟨0x54, 0xFFFFFFFF, 0, 0, 0, 0, 0⟩,
   ⟨0x58, 0xFFFFFFFF, 0, 0, 0, 0, 0⟩, ⟨0x5C, 0xFFFFFFFF, 0, 0, 0, 0, 0⟩, ⟨0x60, 0xFFFFFFFF, 0, 0, 0, 0, 0⟩,
   ⟨0x64, 0xFFFFFFFF, 0, 0, 0, 0, 0⟩, ⟨0x68, 0, 0, 0xFFFFFFFF, 0, 0, 0⟩, ⟨0x6C, 0, 0, 0xFFFFFFFF, 0, 0, 0⟩,
   ⟨0x70, 0, 0, 0, 0, 0, 0x3FFFFFF⟩, ⟨0x74, 0, 0, 0, 0, 0, 0xFFFFF⟩, ⟨0x78, 0, 0, 0, 0, 0, 0xFFFFFFFF⟩,
   ⟨0x7C, 0, 0, 0, 0, 0, 0xFFFFFFFF⟩, ⟨0x80, 0, 0, 0, 0, 0, 0xFFFFFFFF⟩, ⟨0x84, 0, 0, 0, 0, 0, 0xFFFFFFFF⟩,
   ⟨0x88, 0, 0, 0, 0, 0, 0xFFFFFFFF⟩, ⟨0x8C, 0, 0, 0, 0, 0, 0xFFFFFFFF⟩, ⟨0x90, 0, 0, 0, 0, 0, 0xFFFFFFFF⟩,
   ⟨0x94, 0, 0, 0, 0, 0, 0xFFFFFFFF⟩, ⟨0x98, 0, 0, 0, 0, 0, 0xFFFFFFFF⟩, ⟨0x9C, 0, 0, 0, 0, 0, 0xFFFFFFFF⟩,
   ⟨0xA0, 0, 0, 0, 0, 0, 0xFFFFFFFF⟩, ⟨0xA4, 0, 0, 0, 0, 0, 0xFFFFFFFF⟩, ⟨0xA8, 0, 0, 0, 0, 0, 0xFFFFFFFF⟩,
   ⟨0xAC, 0, 0, 0, 0, 0, 0xFFFFFFFF⟩, ⟨0xB0, 0, 0, 0, 0, 0, 0xFFFFFFFF⟩, ⟨0xB4, 0, 0, 0, 0, 0, 0xFFFFFFFF⟩,
   ⟨0xB8, 0, 0, 0, 0, 0, 0xFFFFFFFF⟩, ⟨0xBC, 0, 0, 0, 0, 0, 0xFFFFFFFF⟩, ⟨0xC0, 0, 0, 0, 0, 0, 0xFFFFFFFF⟩,
   ⟨0xC4, 0, 0, 0, 0, 0, 0xFFFFFFFF⟩, ⟨0xC8, 0, 0, 0, 0, 0, 0xFFFFFFFF⟩, ⟨0xCC, 0, 0, 0, 0, 0, 0xFFFFFFFF⟩,
   ⟨0xD0, 0, 0, 0, 0, 0, 0xFFFFFFFF⟩, ⟨0xD4, 0, 0, 0, 0, 0, 0xFFFFFFFF⟩, ⟨0xD8, 0, 0, 0, 0, 0, 0xFFFFFFFF⟩,
   ⟨0xDC, 0, 0, 0, 0, 0, 0xFFFFFFFF⟩, ⟨0xE0, 0, 0, 0, 0, 0, 0xFFFFFFFF⟩, ⟨0xE4, 0, 0, 0, 0, 0, 0xFFFFFFFF⟩,
   ⟨0xE8, 0, 0, 0, 0, 0, 0xFFFFFFFF⟩, ⟨0xEC, 0, 0, 0, 0, 0, 0xFFFFFFFF⟩]

def pageRegs (p : Page) : List RegInfo :=
  match p with
  | .boot => bootRegs
  | .security => securityRegs
  | .pcie => pcieRegs
  | .understory => understoryRegs
  | .clock => clockRegs
  | .supply => supplyRegs
  | .seedbank => seedbankRegs
  | .ranger => rangerRegs
  | .sheet => sheetRegs
  | .canopy => canopyRegs
  | .numeric => numericRegs
  | .matrix => matrixRegs
  | .inkwell => inkwellRegs
  | .dma => dmaRegs
  | .vector => vectorRegs
  | .quill => quillRegs
  | .thin => thinRegs
  | .litter => litterRegs
  | .spatter => spatterRegs
  | .mmu => mmuRegs
  | .scribe => scribeRegs
  | .links => linksRegs
  | .ligature => ligatureRegs
  | .memctl => memctlRegs
  | .port => portRegs
  | .vfunc => vfuncRegs
  | .ctx => ctxRegs

/-- Offsets of the low words of the read-only pairs (R8). -/
def pairLows (p : Page) : List Nat :=
  match p with
  | .boot => []
  | .security => [0x68]
  | .pcie => []
  | .understory => [0x40, 0x50, 0x58]
  | .clock => []
  | .supply => []
  | .seedbank => [0x68, 0x70]
  | .ranger => [0x7C]
  | .sheet => [0x48, 0x50]
  | .canopy => []
  | .numeric => []
  | .matrix => [0x50, 0x58, 0x60]
  | .inkwell => [0x54]
  | .dma => [0x54, 0x5C, 0x64]
  | .vector => [0x50, 0x58]
  | .quill => [0x5C]
  | .thin => [0x68]
  | .litter => [0x54, 0x5C]
  | .spatter => []
  | .mmu => [0x50]
  | .scribe => [0x44]
  | .links => []
  | .ligature => [0x54, 0x6C]
  | .memctl => [0x58, 0x60, 0x68]
  | .port => [0x58, 0x90, 0x98]
  | .vfunc => []
  | .ctx => [0x78, 0x80, 0x88, 0x90, 0x98, 0xA0, 0xA8, 0xB0, 0xB8, 0xC0, 0xC8, 0xD0, 0xD8, 0xE0]

end Sys2Proof.Machine
end

