-- ==== Sys2Proof/Machine/State.lean ====
section
/-! DEFINITION. The state of the SL4, the reasons a step can stop, and the state after the power-on reset of the Understory. -/

namespace Sys2Proof.Machine

/-- Configuration space of one function, as far as the manual names it (R343, R377, R384), and its pending bits by vector: the Command word with
Bus Master in bit 2, the MSI-X Control word with the table size less one in bits 10:0, the function mask in bit 14 and MSI-X Enable in bit 15. The
places of the bits are PRESUMED, log 5. -/
structure Msix where
  command : BitVec 16
  control : BitVec 16
  pba     : Nat
  deriving DecidableEq, Repr

/-- After a reset of the function: no Bus Master, MSI-X not enabled, a table of 64 vectors (log 5). -/
def Msix.cold : Msix := ⟨0, 63, 0⟩

/-- The whole machine. -/
structure State where
  /-- commands waiting, first in first out -/
  pending  : List Instr
  /-- the model's own: how many open values have been taken (log 2) -/
  free     : Nat
  /-- what the block has sent, newest first -/
  outs     : List Out
  /-- stored register words and staging windows by PF BAR0 offset; a VF's MSI-X table at 0x1000_0000 × v + offset -/
  regs     : Tab Word32
  /-- read latch of each function: low-word offset and latched high word (R8, R429) -/
  latches  : Tab (Nat × Word32)
  msix     : Tab Msix
  /-- UCLK_COUNT at the end of the last tick (R347) -/
  uclk     : Nat
  /-- the model's own: the least UCLK cycles that have passed since then, 0 to 999 (log 9) -/
  inTick   : Nat
  fuses    : Fuses
  power    : Power
  boot     : Boot
  blotter  : Blotter
  hbm      : Hbm
  mcs      : Vector Mc 8
  mmu      : Mmu
  groves   : Vector Grove 64
  pnibs    : Tab PNib
  nibs     : Tab Nib
  canopy   : Canopy
  ctxs     : Tab Ctx
  /-- engine time of each context (R339): ACC_MX, ACC_VEC, ACC_SCRIBE, ACC_RC_TIME -/
  times    : Tab EngineTime
  ranger   : Ranger
  supply   : Supply
  seedbank : Seedbank
  scribes  : Vector Scribe 8
  lig      : Lig
  ports    : Vector Port 16
  /-- event indications that a family's accumulator may still hold (R357): 0 ACLK, 1 FCLK, 2 MCLK, 3 LCLK, 4 PCLK (log 120) -/
  xings    : Vector Nat 5
  deriving DecidableEq, Repr

/-- Why a step can stop with a fault. -/
inductive Fault where
  /-- the command's operands name no access of its row's kind: a full-width aligned access given to NARROW_ACCESS, an empty
  BAR2 access. Raised by NARROW_ACCESS, BAR2_READ and BAR2_WRITE; safe: no such command reaches the part. -/
  | illFormed
  deriving DecidableEq, Repr

/-- Why a step can be refused. -/
inductive Refusal where
  /-- the command has no meaning yet; raised by exec's arm for it; safe -/
  | notModelled (mnemonic : String)
  deriving DecidableEq, Repr

/-- A context that has used no engine time since its accounting registers were cleared. -/
def EngineTime.zero : EngineTime := ⟨false, 0, 0, 0, 0⟩

def Ctx.free : Ctx :=
  { st := .free, slot := none, runnable := false, curRec := 0, watch := none, woken := false, record := none, wait := 0,
    blocked := 0, lastCode := 0, lastPrio := 0, seq := 0, fresh := false, plot := [], saved := none,
    phase := .none, started := false, opened := false, urgent := false, replays := 0, cause := 0, blameNib := none,
    blameRow := 0, preempted := false, evict := false,
    step := 9, retain := false, dense := false, rerunDense := false, miss := 0, missFlag := false, vote := 0, drawn := 0,
    energyAcc := 0, tickBytes := 0, ujRem := 0, lit := none, upd := none, image := Vector.replicate 5 0, since := 0, ligWait := false,
    killDue := none, releaseDue := false }

/-- A grove after power-up: gated, PLL 0 (R348); the steps of the Ranger and of the thermal limit read 0 (R368) until RUN is entered. -/
def Grove.cold : Grove :=
  { pw := .gated, retain := false, step := 0, therm := 0, pll := 0, pllBad0 := false, pllBad1 := false, lock := 0, idle := 0,
    wanted := false, owner := none, dirty := false, spareAt := none, swept := 0 }

def PNib.cold : PNib :=
  { retiring := false, retired := false, failed := false, sweptOk := false, margin := 0, lowTicks := 0, remap := [],
    detects := [], rowsDue := [], badSpare := [] }

def Boot.held : Boot :=
  { st := .held, mapReady := false, selfBuilt := false, imgBusy := false, mapBusy := false, selfBusy := false,
    disarming := false, supv := false, fault := 0, detail := 0, faultAddr := 0, images := Vector.replicate 4 none,
    keys := Vector.replicate 4 none, keyReject := false, keyParse := none, imgKind := 0, imgValid := false, imgResult := 0,
    attNonce := none, attValid := false, report := [], digestDev := [], accepted := none, linkReady := false, rate := 0,
    width := 0, flit := false, vfEn := 0, service := true, fclk := false, mclk := false, pclk := false, stopping := none,
    stopCode := 0, hardEn := 0 }

def Ranger.cold : Ranger :=
  { tokens := 0, eRem := 0, refRem := 0, envW := 0, capMj := 0, slots := Vector.replicate 16 none, powerW := 0,
    overEnv := false, overPeak := false, stopped := false, graceTicks := 0, idleEnergy := 0 }

/-- No rail below a threshold; present voltages read 0 until sampled and the lowest is not yet set (log 6). -/
def Rail.cold : Rail := ⟨0, 4095, false, 0, false, 0, false, false⟩

def Supply.cold : Supply :=
  { rails := Vector.replicate 8 Rail.cold, order := [], dip := false, recover := false, temps := Vector.replicate 72 0,
    highs := Vector.replicate 72 0, holds := [], trip := false, tripHeld := false }

def Seedbank.cold : Seedbank :=
  { entries := [], gen := 0, errReason := 0, errIndex := 0, sweeping := none, lastSweep := 0, lastOk := false, sweeps := 0,
    sweepAt := 0, avRun := 0, avLost := 0 }

/-- Pins after step 2 of R446 with MOD_EN 0 and PERST# asserted (log 3). -/
def Power.cold : Power :=
  { p54v := true, vaon := true, released := true, modEn := false, mainUp := false, ramp := [], pwrgd := false,
    perst := true,
    brake := false, thermtrip := false, slotId := 0, mevent := 0, brakes := 0, cables := Vector.replicate 4 Cable.none,
    inMv := 0, inMa := 0, inW := 0, uvNow := false }

/-- A FRU record (R450): the ordering code NMF-SL4-640 in ASCII, then a serial number and a date of zeros; the layout is the model's, log 4. -/
def fruOne : List Byte := [0x4E, 0x4D, 0x46, 0x2D, 0x53, 0x4C, 0x34, 0x2D, 0x36, 0x34, 0x30] ++ List.replicate 245 0

/-- What is fused into a module; the values of one module, log 4. -/
def Fuses.one : Fuses := ⟨0, List.replicate 1793 0, List.replicate 1793 0, fruOne⟩

/-- The machine when the Understory leaves its power-on reset (R446 step 2): HELD, BOOT_FAULT 0, UCLK_COUNT 0, everything
empty and every configuration field 0 (R12). -/
def State.reset : State :=
  { pending := [], free := 0, outs := [], regs := [], latches := [], msix := [], uclk := 0, inTick := 0, fuses := Fuses.one,
    power := Power.cold, boot := Boot.held, blotter := ⟨[], 0, []⟩, hbm := ⟨[], [], [], []⟩,
    mcs := Vector.replicate 8 Mc.off, mmu := ⟨none, none⟩, groves := Vector.replicate 64 Grove.cold, pnibs := [], nibs := [],
    canopy := ⟨[], 0, [], [], []⟩, ctxs := [], times := [], ranger := Ranger.cold, supply := Supply.cold,
    seedbank := Seedbank.cold,
    scribes := Vector.replicate 8 Scribe.idle, lig := Lig.closed, ports := Vector.replicate 16 Port.off,
    xings := Vector.replicate 5 0 }

end Sys2Proof.Machine
end

