-- ==== Sys2Proof/Machine/Ops.lean ====
section
/-! DEFINITION. Named operations over registers, events, the Blotter, MSI-X, HBM and translation (chapters 08, 14, 15, 16). -/

namespace Sys2Proof.Machine

/-! ## Register words -/

/-- Base of a page type (R433). -/
def pageBase : Page → Nat
  | .boot => 0x0 | .security => 0x1000 | .pcie => 0x2000 | .understory => 0x3000 | .clock => 0x4000 | .supply => 0x5000
  | .seedbank => 0x6000 | .ranger => 0x7000 | .sheet => 0x8000 | .canopy => 0x9000 | .numeric => 0xA000
  | .matrix => 0xB000 | .inkwell => 0xC000 | .dma => 0xD000 | .vector => 0xE000 | .quill => 0xF000 | .thin => 0x1_0000
  | .litter => 0x1_1000 | .spatter => 0x1_2000 | .mmu => 0x1_3000 | .scribe => 0x1_4000 | .links => 0x1_5000
  | .ligature => 0x1_6000 | .memctl => 0x2_0000 | .port => 0x3_0000 | .vfunc => 0x4_0000 | .ctx => 0x10_0000

/-- BLOCK code of a page type (R433). -/
def pageCode : Page → Nat
  | .boot => 1 | .security => 2 | .pcie => 3 | .understory => 4 | .clock => 5 | .supply => 6 | .seedbank => 7
  | .ranger => 8 | .sheet => 9 | .canopy => 0xA | .numeric => 0xB | .matrix => 0xC | .inkwell => 0xD | .dma => 0xE
  | .vector => 0xF | .quill => 0x10 | .thin => 0x11 | .litter => 0x12 | .spatter => 0x13 | .mmu => 0x14
  | .scribe => 0x15 | .links => 0x16 | .ligature => 0x17 | .memctl => 0x18 | .port => 0x19 | .vfunc => 0x1A
  | .ctx => 0x1B

/-- CAP of a page type: the EVENT bits it implements (R431, R433). -/
def pageCap : Page → Nat
  | .boot => 0x1F | .security => 1 | .pcie => 7 | .understory => 3 | .clock => 7 | .supply => 0x3F | .seedbank => 0x1FF
  | .ranger => 0x7F | .sheet => 0 | .canopy => 0x1F | .numeric => 0x1F | .matrix => 3 | .inkwell => 1 | .dma => 0xF
  | .vector => 3 | .quill => 3 | .thin => 0xF | .litter => 0x1F | .spatter => 0 | .mmu => 1 | .scribe => 0xFF
  | .links => 0 | .ligature => 0x1F | .memctl => 0x3F | .port => 0x1FF | .vfunc => 0 | .ctx => 0

/-- PF BAR0 offset of a register of instance j. -/
def regAt (p : Page) (j off : Nat) : Nat := pageBase p + 0x1000 * j + off

/-- A stored word. -/
def getR (s : State) (a : Nat) : Nat := (tabGet 0 s.regs a).toNat

def setR (a v : Nat) (s : State) : State := { s with regs := tabSet 0 s.regs a (BitVec.ofNat 32 v) }

/-- Field hi to lo of a stored word. -/
def getF (s : State) (a hi lo : Nat) : Nat := bits (getR s a) hi lo

def setF (a hi lo v : Nat) (s : State) : State := setR a (putBits (getR s a) hi lo v) s

/-- Saturating addition to a counter field (R10). -/
def bump (a hi lo n : Nat) (s : State) : State := setF a hi lo (satAdd (hi + 1 - lo) (getF s a hi lo) n) s

/-- A pair of words as one 64-bit number (R8). -/
def getPair (s : State) (a : Nat) : Nat := getR s a + 2 ^ 32 * getR s (a + 4)

def setPair (a v : Nat) (s : State) : State := setR (a + 4) (v / 2 ^ 32) (setR a (v % 2 ^ 32) s)

/-- Where a written 64-bit configuration pair keeps the value in effect: it changes when the high word comes (R8). -/
def effAt (a : Nat) : Nat := 0x10_0000_0000 + a

/-- A written 64-bit configuration value in effect. -/
def cfgPair (s : State) (a : Nat) : Nat := getPair s (effAt a)

/-- A 64-bit counter advances. -/
def addPair (a n : Nat) (s : State) : State := setPair a (getPair s a + n) s

/-! ## Open values and time -/

/-- UCLK cycles since the last tick's end, at this moment: an open number, never below one that was taken before in this tick, and below 1,000
(R347; log 9). -/
def sinceTick (s : State) : Nat := min 999 (s.inTick + Config.uclkInTick s.free)

/-- Take the next open value (log 2); time goes on to the moment at which it is taken. -/
def takeFree (s : State) : State := { s with free := s.free + 1, inTick := sinceTick s }

/-- UCLK_COUNT now: the last tick's end plus the time inside the tick (R347). -/
def now (s : State) : Nat := s.uclk + sinceTick s

/-! ## Units by number -/

def getCtx (s : State) (c : Nat) : Ctx := tabGet Ctx.free s.ctxs c
def setCtx (c : Nat) (x : Ctx) (s : State) : State := { s with ctxs := tabSet Ctx.free s.ctxs c x }
def modCtx (c : Nat) (f : Ctx → Ctx) (s : State) : State := setCtx c (f (getCtx s c)) s

def getNib (s : State) (n : Nat) : Nib := tabGet Nib.cold s.nibs n
def setNib (n : Nat) (x : Nib) (s : State) : State := { s with nibs := tabSet Nib.cold s.nibs n x }
def modNib (n : Nat) (f : Nib → Nib) (s : State) : State := setNib n (f (getNib s n)) s

def getPNib (s : State) (n : Nat) : PNib := tabGet PNib.cold s.pnibs n
def setPNib (n : Nat) (x : PNib) (s : State) : State := { s with pnibs := tabSet PNib.cold s.pnibs n x }
def modPNib (n : Nat) (f : PNib → PNib) (s : State) : State := setPNib n (f (getPNib s n)) s

/-- A unit of a fixed array; an index beyond it reads as the last default and is never written. -/
def vget {α : Type} {n : Nat} (d : α) (v : Vector α n) (i : Nat) : α := (v.toList[i]?).getD d
def vset {α : Type} {n : Nat} (v : Vector α n) (i : Nat) (x : α) : Vector α n := v.setIfInBounds i x

def getGrove (s : State) (g : Nat) : Grove := vget Grove.cold s.groves g
def setGrove (g : Nat) (x : Grove) (s : State) : State := { s with groves := vset s.groves g x }
def modGrove (g : Nat) (f : Grove → Grove) (s : State) : State := setGrove g (f (getGrove s g)) s

def getMc (s : State) (m : Nat) : Mc := vget Mc.off s.mcs m
def setMc (m : Nat) (x : Mc) (s : State) : State := { s with mcs := vset s.mcs m x }
def modMc (m : Nat) (f : Mc → Mc) (s : State) : State := setMc m (f (getMc s m)) s

def getPort (s : State) (p : Nat) : Port := vget Port.off s.ports p
def setPort (p : Nat) (x : Port) (s : State) : State := { s with ports := vset s.ports p x }
def modPort (p : Nat) (f : Port → Port) (s : State) : State := setPort p (f (getPort s p)) s

def getScribe (s : State) (m : Nat) : Scribe := vget Scribe.idle s.scribes m
def setScribe (m : Nat) (x : Scribe) (s : State) : State := { s with scribes := vset s.scribes m x }
def modScribe (m : Nat) (f : Scribe → Scribe) (s : State) : State := setScribe m (f (getScribe s m)) s

def getMsix (s : State) (fn : Nat) : Msix := tabGet Msix.cold s.msix fn
def setMsix (fn : Nat) (x : Msix) (s : State) : State := { s with msix := tabSet Msix.cold s.msix fn x }

/-- Apply an operation for each element, first to last. -/
def forEach {α : Type} (xs : List α) (f : α → State → State) (s : State) : State := xs.foldl (fun s x => f x s) s

/-- Send something out of the block; the trace is newest first. -/
def emit (o : Out) (s : State) : State := { s with outs := o :: s.outs }

/-! ## MSI-X (R377) -/

/-- MSI-X messages are sent in RUN and STOPPED only. -/
def irqLive (s : State) : Bool := s.boot.st == .run || s.boot.st == .stopped

/-- Word of the model's register space that holds Vector Control of a table entry, its mask bit inverted (log 5). -/
def vecControl (fn vec : Nat) : Nat :=
  if fn = 0 then 0x20_0000 + 16 * vec + 12 else 0x1000_0000 * fn + 0x10_1000 + 16 * vec + 12

/-- No vector of the function is sent: the function mask is set, or MSI-X Enable or Bus Master is 0 (log 5). -/
def Msix.masked (m : Msix) : Bool := bit m.control.toNat 14 || !bit m.control.toNat 15 || !bit m.command.toNat 2

def vecMasked (s : State) (fn vec : Nat) : Bool := (getMsix s fn).masked || !bit (getR s (vecControl fn vec)) 0

/-- Send vector `vec` of a function, or make it pending. -/
def sendMsix (fn vec : Nat) (s : State) : State :=
  if irqLive s then
    if vecMasked s fn vec then
      let m := getMsix s fn
      setMsix fn { m with pba := putBits m.pba vec vec 1 } s
    else emit (.msix fn vec) s
  else s

/-- Deliver what is pending at an unmasked vector. -/
def flushVec (fn vec : Nat) (s : State) : State :=
  if irqLive s && bit (getMsix s fn).pba vec && !vecMasked s fn vec then
    let m := getMsix s fn
    emit (.msix fn vec) (setMsix fn { m with pba := putBits m.pba vec vec 0 } s)
  else s

/-- Every function's pending vectors that are unmasked are delivered, as RUN is entered: an unmask in HELD or VERIFY sends nothing then (R377). -/
def flushAll (s : State) : State := forEach s.msix (fun e s => forEach (List.range 64) (flushVec e.1) s) s

/-- The PF vector of page events, when EVT_EN is 1 (R432). -/
def sendEvent (s : State) : State :=
  let irq := getR s (regAt .pcie 0 0x44)
  if bit irq 6 then sendMsix 0 (bits irq 5 0) s else s

/-! ## Blotter and events (R422 to R424, R432) -/

/-- What a Blotter entry says beside its source. -/
structure Note where
  ctx  : Option Nat
  nib  : Option Nat
  arg0 : Nat
  arg1 : Nat
  deriving DecidableEq, Repr

def Note.none : Note := ⟨Option.none, Option.none, 0, 0⟩
def Note.args (a0 a1 : Nat) : Note := ⟨Option.none, Option.none, a0, a1⟩
def Note.of (ctx : Nat) (a0 a1 : Nat) : Note := ⟨some ctx, Option.none, a0, a1⟩

/-- SEQ after an entry: 0xFFFF_FFFF is skipped (R423). -/
def nextSeq (q : Word32) : Word32 := if q + 1 = 0xFFFF_FFFF then 0 else q + 1

/-- A slot that was never written (R423). -/
def BlotEntry.empty : BlotEntry := ⟨0, 0xFFFF_FFFF, 0, 0, 0, 0, 0, 0, 0, 0⟩

def logAt (stamp : Nat) (coalesced : Bool) (p : Page) (j event : Nat) (n : Note) (s : State) : State :=
  let q := s.blotter.next
  let flags := (if n.ctx.isSome then 1 else 0) + (if n.nib.isSome then 2 else 0) + (if coalesced then 4 else 0)
  let e : BlotEntry := ⟨BitVec.ofNat 64 stamp, q, BitVec.ofNat 8 (pageCode p), BitVec.ofNat 8 event, BitVec.ofNat 16 j,
    BitVec.ofNat 8 (n.ctx.getD 0), BitVec.ofNat 8 flags, BitVec.ofNat 16 (n.nib.getD 0), BitVec.ofNat 32 n.arg0,
    BitVec.ofNat 64 n.arg1⟩
  { s with blotter := { s.blotter with ring := tabInsert s.blotter.ring (q.toNat % 4096) e, next := nextSeq q } }

/-- An entry written now. -/
def logNow (p : Page) (j event : Nat) (n : Note) (s : State) : State := takeFree (logAt (now s) false p j event n s)

/-- Set an EVENT bit; a rise of PEND sends the page's message (R432). -/
def setEvent (p : Page) (j event : Nat) (s : State) : State :=
  let a := regAt p j 0x10
  let old := getR s a
  let en := getR s (a + 4)
  let s := setR a (old ||| 2 ^ event) s
  if old &&& en = 0 ∧ bit en event then sendEvent s else s

/-- The family whose crossing carries a page's event indications into the Understory (R344, R357): 0 ACLK, 1 FCLK, 2 MCLK, 3 LCLK,
4 PCLK; none for a page of the Understory. Chapter 13 names no family for a page: log 120. -/
def xingOf : Page → Option Nat
  | .numeric | .matrix | .inkwell | .dma | .vector | .quill | .thin | .litter => some 0
  | .canopy => some 1
  | .mmu | .scribe | .memctl => some 2
  | .ligature | .port => some 3
  | .pcie => some 4
  | _ => none

/-- The accumulator that an indication of page p comes to is full (R357). It holds at most the indications since reset; once that bound is 255 it is
open whether it is full (log 120). -/
def crossFull (p : Page) (s : State) : Bool := match xingOf p with
  | Option.none => false
  | some f => decide (255 ≤ vget 0 s.xings f) && Config.xingFull s.free

/-- A counter fed by the indications of page p counts one: a full accumulator holds 255 and the indication is lost to the counter, which is a lower
bound from then on (R357). Asked in the state in which the event is raised. -/
def countEvent (p : Page) (a hi lo : Nat) (s : State) : State := if crossFull p s then s else bump a hi lo 1 s

/-- One indication crosses in family f (R357). Where the accumulator is full the overrun bit sets and XING_OVERRUN is raised (log 120). -/
def crossEvent (full : Bool) (f : Nat) (s : State) : State :=
  let n := vget 0 s.xings f
  if n < 255 then { s with xings := vset s.xings f (n + 1) }
  else
    let a0 := (Config.freeWord s.free).toNat
    let a1 := (Config.freeWord (s.free + 1)).toNat
    let s := takeFree (takeFree s)
    if full then
      setEvent .understory 0 1 (logNow .understory 0 1 ⟨Option.none, Option.none, a0, a1⟩
        (setF (regAt .understory 0 0x60) f f 1 s))
    else s

/-- The indication of an event of page p crosses into the Understory. -/
def crossOf (full : Bool) (p : Page) (s : State) : State := match xingOf p with
  | Option.none => s
  | some f => crossEvent full f s

/-- An event of a page: logged whatever EVENT_EN holds, its indication carried into the Understory, its EVENT bit set. `full`: it meets a full
accumulator. -/
def raiseWith (full : Bool) (p : Page) (j event : Nat) (n : Note) (s : State) : State :=
  setEvent p j event (crossOf full p (logNow p j event n s))

def raise (p : Page) (j event : Nat) (n : Note) (s : State) : State := raiseWith (crossFull p s) p j event n s

/-- An event whose Blotter arguments the manual does not lay out (R422 has no class for the page): they are open values (log 42). -/
def raiseOpen (p : Page) (j event : Nat) (ctx : Option Nat) (s : State) : State :=
  let a0 := (Config.freeWord s.free).toNat
  let a1 := (Config.freeWord (s.free + 1)).toNat
  raiseWith (crossFull p s) p j event ⟨ctx, none, a0, a1⟩ (takeFree (takeFree s))

/-- The start of the Litter aperture (R173); it runs to 2⁴⁸ − 1. -/
def aperture : Nat := 0xFF00_0000_0000

/-! ## HBM (R214 to R216) -/

/-- The last valid DPA (R215). -/
def dpaEnd : Nat := 0x95_0000_0000

/-- What a byte that nothing has written reads as: the open value of the newest range that holds it (log 8), else 0 (log 7). -/
def hbmFill : List Fill → Nat → Byte
  | [], _ => 0
  | f :: t, a => if f.lo ≤ a ∧ a < f.hi then Config.hbmUndefined f.n a else hbmFill t a

def lookCell (a : Nat) (d : Byte) : List Host.Cell → Byte
  | [] => d
  | (k, v) :: t => if k = a then v else lookCell a d t

/-- One byte of HBM. -/
def Hbm.byte (h : Hbm) (a : Nat) : Byte := lookCell a (hbmFill h.fills a) h.cells

/-- Bytes a to a + n − 1. -/
def Hbm.read (h : Hbm) (a n : Nat) : List Byte :=
  let w := h.cells.filter (fun c => decide (a ≤ c.1) && decide (c.1 < a + n))
  (List.range n).map (fun i => lookCell (a + i) (hbmFill h.fills (a + i)) w)

/-- Cells for bytes written from a on; a byte equal to what an unlisted one reads as is not listed. -/
def freshCells (fills : List Fill) : Nat → List Byte → List Host.Cell
  | _, [] => []
  | a, b :: t => if b = hbmFill fills a then freshCells fills (a + 1) t else (a, b) :: freshCells fills (a + 1) t

/-- The cells outside [a, a + n), with `mid` between them. -/
def spliceCells (cells : List Host.Cell) (a n : Nat) (mid : List Host.Cell) : List Host.Cell :=
  cells.filter (fun c => decide (c.1 < a)) ++ mid ++ cells.filter (fun c => decide (a + n ≤ c.1))

/-- Write bytes from a on, keeping the canonical form. -/
def Hbm.write (h : Hbm) (a : Nat) (data : List Byte) : Hbm :=
  { h with cells := spliceCells h.cells a data.length (freshCells h.fills a data) }

/-- Whether a range holds bytes of an open fill. -/
def Hbm.open? (h : Hbm) (a n : Nat) : Bool := h.fills.any (fun f => decide (f.lo < a + n) && decide (a < f.hi))

/-- Write n zero bytes from a on. -/
def Hbm.zero (h : Hbm) (a n : Nat) : Hbm :=
  if h.open? a n then h.write a (List.replicate n 0) else { h with cells := spliceCells h.cells a n [] }

/-- The contents of [a, a + n) become open. -/
def Hbm.blur (h : Hbm) (a n tag : Nat) : Hbm :=
  { h with cells := spliceCells h.cells a n [], fills := ⟨a, a + n, tag⟩ :: h.fills }

/-- Addresses rise strictly from lo on and no cell holds what an unlisted one reads as. -/
def cellsWf (fills : List Fill) : Nat → List Host.Cell → Bool
  | _, [] => true
  | lo, (k, v) :: t => decide (lo ≤ k) && decide (v ≠ hbmFill fills k) && cellsWf fills (k + 1) t

/-- The canonical form of memory. -/
def Memory.wf (h : Hbm) : Bool := cellsWf h.fills 0 h.cells

/-- Controller of a DPA (R215). -/
def mcOf (dpa : Nat) : Nat := bits dpa 16 14 ^^^ bits dpa 23 21

/-- Local address (R215). -/
def localOf (dpa : Nat) : Nat := bits dpa 39 21 * 262144 + bits dpa 20 17 * 16384 + bits dpa 13 0

/-- DPA of a controller's local address: the inverse of the two above. -/
def dpaOf (mc loc : Nat) : Nat :=
  let p := loc / 262144
  p * 2 ^ 21 + bits loc 17 14 * 2 ^ 17 + (mc ^^^ (p % 8)) * 2 ^ 14 + loc % 16384

/-- The 1 KiB DRAM row of a local address: pseudo-channel, bank and DRAM row together (R216). -/
def dramOf (loc : Nat) : Nat := loc / 1024

/-- Bank number, bank × 64 + pseudo-channel. -/
def bankOf (dram : Nat) : Nat := dram % 1024

/-- FP8_OVF = 1. -/
def fp8Sat (s : State) : Bool := getF s (regAt .numeric 0 0x40) 1 0 == 1

/-! ## Sheet places (R14, R16, R20) -/

/-- Grove of a logical nib and of a physical nib. -/
def groveOf (nib : Nat) : Nat := nib / 16
def groveOfPhys (nib : Nat) : Nat := nib / 17

/-- Physical nib behind a logical one: slot = stop, or slot 16 when the spare is bound there. -/
def physOf (s : State) (nib : Nat) : Nat :=
  let g := nib / 16
  let spare := (getGrove s g).spareAt
  17 * g + (if spare = some (nib % 16) then 16 else nib % 16)

/-- Logical nib of a plot rank, and rank of a logical nib (R32): rank r is stop r mod 16 of list index r div 16. -/
def nibOfRank (plot : List Nat) (r : Nat) : Option Nat := (plot[r / 16]?).map (fun g => 16 * g + r % 16)

def rankOfNib (plot : List Nat) (nib : Nat) : Option Nat :=
  (plot.idxOf? (nib / 16)).map (fun i => 16 * i + nib % 16)

/-- Logical nibs of a plot, by rank. -/
def plotNibs (plot : List Nat) : List Nat := plot.flatMap (fun g => (List.range 16).map (fun i => 16 * g + i))

/-- The context whose plot holds a nib's grove. -/
def ctxOfNib (s : State) (nib : Nat) : Option Nat := (getGrove s (nib / 16)).owner

/-- A grove is available unless retired; GROVE_AVAIL is 0 until the map is applied (R21, R35), which a map whose stack failed to train is not
taken to be (DESIGN CHOICE, log 130). -/
def groveAvail (s : State) (g : Nat) : Bool := s.boot.mapReady && (getGrove s g).pw != .retired

def availCount (s : State) : Nat := ((List.range 64).filter (groveAvail s)).length

end Sys2Proof.Machine
end

