-- ==== Sys2Proof/Machine/MapOps.lean ====
section
/-! DEFINITION. The repair map in force and its changes in service (R413, R415). -/

namespace Sys2Proof.Machine

/-- An entry of a kind with its field bits (R413). -/
def mapEntry (kind fields : Nat) : Nat := kind * 2 ^ 60 + fields

def entryKind (e : Nat) : Nat := e / 2 ^ 60

/-- Insert into a strictly increasing list; an entry already there stays once. -/
def insertEntry (e : Word64) : List Word64 → List Word64
  | [] => [e]
  | f :: t => if e < f then e :: f :: t else if e = f then f :: t else f :: insertEntry e t

/-- MAP_CHANGED after entries were added or rewritten (R415). -/
def mapChanged (e : Nat) (s : State) : State :=
  raise .seedbank 0 7 (.args 0 e)
    { s with seedbank := { s.seedbank with gen := (s.seedbank.gen + 1) % 2 ^ 32 } }

/-- Add an entry to the map in force. -/
def mapAdd (e : Nat) (s : State) : State :=
  if s.seedbank.entries.contains (BitVec.ofNat 64 e) then s
  else mapChanged e { s with seedbank := { s.seedbank with entries := insertEntry (BitVec.ofNat 64 e) s.seedbank.entries } }

/-- Replace an entry. -/
def mapRewrite (old new : Nat) (s : State) : State :=
  mapChanged new { s with seedbank := { s.seedbank with
    entries := insertEntry (BitVec.ofNat 64 new) (s.seedbank.entries.filter (fun e => e.toNat != old)) } }

/-- Entries of a kind, their field bits. -/
def entriesOf (s : State) (kind : Nat) : List Nat :=
  (s.seedbank.entries.map (fun e => e.toNat)).filterMap (fun e => if entryKind e = kind then some (e % 2 ^ 60) else none)

/-! ## Redundant rows (R407, R409, R413) -/

/-- KIND 4 entries of a physical nib: every redundant row that it has been given, again for a row that retired twice. -/
def rowsGiven (s : State) (p : Nat) : List Nat := (entriesOf s 4).filter (fun e => decide (bits e 10 0 = p))

/-- Redundant rows of a bank that cannot be given any more: mapped, given out before, or found bad while unused. -/
def bankTaken (s : State) (p bank : Nat) : List Nat :=
  let q := getPNib s p
  (q.remap.filter (fun e => e.1 / 256 == bank)).map (fun e => e.2) ++
  ((rowsGiven s p).filter (fun e => decide (bits e 23 11 / 256 = bank))).map (fun e => bits e 25 24) ++
  (q.badSpare.filter (fun e => e.1 == bank)).map (fun e => e.2)

/-- A free redundant row of a bank. -/
def freeRedundant (s : State) (p bank : Nat) : Option Nat := (List.range 4).find? (fun r => !(bankTaken s p bank).contains r)

/-- The entry bytes of the map in force. -/
def entryBytes (es : List Word64) : List Byte := es.flatMap (fun e => bytesOf 8 e.toNat)

/-- The 64-byte header (R413). -/
def mapHeader (s : State) : List Byte :=
  bytesOf 4 0x5052_4D4E ++ bytesOf 2 1 ++ bytesOf 2 0 ++ bytesOf 8 s.fuses.serial.toNat ++
  bytesOf 4 s.seedbank.entries.length ++ bytesOf 4 s.seedbank.gen ++ (shake256 (entryBytes s.seedbank.entries)).take 8 ++
  List.replicate 32 0

end Sys2Proof.Machine
end

