-- ==== Sys2Proof/Machine/MemOps.lean ====
section
/-! DEFINITION. HBM behind its controllers: errors and repairs, request tags, the memory-side caches, what a read or a write of bytes does,
and translation (R217 to R231, R454). -/

namespace Sys2Proof.Machine

/-! ## Errors (R228, R229, R231) -/

/-- MC_CFG acts: in RUN, and in the STOPPED that follows it (R441; DESIGN CHOICE, log 137). -/
def mcActs (s : State) : Bool := s.boot.st == .run || s.boot.st == .stopped

/-- BANK_TAG_CAP, 0 where none acts; MSC_MODE, bypass where none acts; PPR_THRESH (R233, R441). -/
def bankCap (s : State) (mc : Nat) : Nat := if mcActs s then getF s (regAt .memctl mc 0x40) 13 2 else 0
def mscMode (s : State) (mc : Nat) : Nat := if mcActs s then getF s (regAt .memctl mc 0x40) 1 0 else 2
def pprThresh (s : State) (mc : Nat) : Nat := if mcActs s then getF s (regAt .memctl mc 0x40) 21 14 else 0

/-- ERR_LAST (R233). -/
def errLast (mc dpa cls : Nat) (s : State) : State :=
  let k := dramOf (localOf dpa)
  setPair (regAt .memctl mc 0x68) (dpa % 2 ^ 32 + 2 ^ 32 * (dpa / 2 ^ 32 + cls * 2 ^ 8 + k % 64 * 2 ^ 10 + k / 64 % 16 * 2 ^ 16)) s

/-- A DRAM row starts its repair unless it is under repair (R231). -/
def startRepair (mc key : Nat) (ue : Bool) (s : State) : State :=
  let m := getMc s mc
  if m.repairs.any (fun r => r.key == key) then s
  else setMc mc { m with repairs := m.repairs ++ [⟨key, ue⟩] } s

/-- A corrected codeword (R228): counted, coalesced for the Blotter (R424). -/
def noteCe (mc cw : Nat) (s : State) : State :=
  let dpa := 16 * cw
  let full := crossFull .memctl s
  let s := countEvent .memctl (regAt .memctl mc 0x4C) 31 0 s
  let s := errLast mc dpa 1 s
  let t := tabFind? s.blotter.ces mc
  let e : CeTick := match t with
    | some c => ⟨c.stamp, satAdd 32 c.count 1, dpa⟩
    | none => ⟨BitVec.ofNat 64 (now s), 1, dpa⟩
  setEvent .memctl mc 0 (crossOf full .memctl (takeFree { s with blotter := { s.blotter with ces := tabInsert s.blotter.ces mc e } }))

/-- A codeword of a stack corrected: it counts toward its DRAM row's repair (R231). -/
def memCe (mc cw : Nat) (s : State) : State :=
  let key := dramOf (localOf (16 * cw))
  let s := noteCe mc cw s
  let m := getMc s mc
  let n := tabGet 0 m.ceRow key + 1
  let s := setMc mc { m with ceRow := tabSet 0 m.ceRow key n } s
  if pprThresh s mc ≠ 0 ∧ n ≥ pprThresh s mc then startRepair mc key false s else s

/-- A stack reports its temperature; refresh doubles at 85 °C (R221, R452; DEDUCED, log 41). -/
def setStackTemp (mc t : Nat) (s : State) : State :=
  modMc mc (fun x => { x with tempC := min 255 t, doubled := decide (85 ≤ t) }) s

/-- A row with an uncorrectable codeword (R228, R229): counted once, MEM_UE, repair at once. `poisoned`: it was written so. -/
def memUe (mc cw : Nat) (poisoned : Bool) (s : State) : State :=
  let dpa := 16 * cw
  let s := countEvent .memctl (regAt .memctl mc 0x50) 31 0 s
  let s := errLast mc dpa (if poisoned then 3 else 2) s
  let s := raise .memctl mc 1 (.args (if poisoned then 3 else 2) dpa) s
  startRepair mc (dramOf (localOf dpa)) true s

/-- ERR_INJ (R233): ARMED with a mode corrupts the first codeword of a row that the controller writes to the stack; one written poisoned
stays so. -/
def injectError (row : Nat) (s : State) : State :=
  let a := regAt .memctl (mcOf row) 0x78
  let inj := getR s a
  if bit inj 10 && bits inj 1 0 != 0 then
    setR a (putBits inj 10 10 0) { s with hbm := { s.hbm with
      bad := if (tabFind? s.hbm.bad (row / 16)).isSome then s.hbm.bad
        else tabInsert s.hbm.bad (row / 16) (if bits inj 1 0 = 1 then .single else .double) } }
  else s

/-- The recorded errors of the row at `row` in the stack. -/
def stackErrs (s : State) (row : Nat) : Tab CwErr :=
  s.hbm.bad.filter (fun p => decide (row / 16 ≤ p.1) && decide (p.1 < row / 16 + 32))

/-- The bank of a DPA. -/
def bankAt (dpa : Nat) : Nat := bankOf (dramOf (localOf dpa))

/-- The page of a bank's DRAM row opens (R221). -/
def openPage (dpa : Nat) (s : State) : State :=
  modMc (mcOf dpa) (fun m => { m with pages := tabInsert m.pages (bankAt dpa) (dramOf (localOf dpa)) }) s

/-- The row at `row` is written to the stack with fresh check bits, but for the codewords that `keep` makes poisoned. -/
def stackWrite (row : Nat) (keep : Nat → Bool) (s : State) : State :=
  injectError row (openPage row { s with hbm := { s.hbm with bad := s.hbm.bad.filterMap (fun p =>
    if row / 16 ≤ p.1 ∧ p.1 < row / 16 + 32 then (if keep (p.1 - row / 16) then some (p.1, CwErr.poison) else none) else some p) } })

/-- Every codeword of the row at `row` poisoned: the row is written to the stack so (R229). -/
def poisonRow (row : Nat) (s : State) : State :=
  injectError row (openPage row { s with hbm := { s.hbm with
    bad := (List.range 32).foldl (fun t k => tabInsert t (row / 16 + k) CwErr.poison) s.hbm.bad } })

/-- Check the 32 codewords of the row at `row` in the stack (R454): correct single errors, report the row if any codeword is
uncorrectable. `back`: a corrected row is written back at once (R228), not with a merged row. -/
def checkRow (row : Nat) (back : Bool) (s : State) : State :=
  let found := stackErrs s row
  let singles := found.filter (fun p => p.2 == .single)
  let ues := found.filter (fun p => p.2 != .single)
  let s := forEach singles (fun p s =>
    memCe (mcOf row) p.1 { s with hbm := { s.hbm with bad := tabErase s.hbm.bad p.1 } }) s
  let s := if back ∧ singles ≠ [] then injectError row s else s
  match ues with
  | [] => s
  | p :: _ => memUe (mcOf row) p.1 (ues.any (fun q => q.2 == .poison)) s

/-- The uncorrectable codewords of the row at `row` of the stack, counted in the row. -/
def stackBad (s : State) (row : Nat) : List Nat :=
  ((stackErrs s row).filter (fun p => p.2 != .single)).map (fun p => p.1 - row / 16)

/-- The 1 KiB of a DRAM row copied through the code (R231): single errors are corrected and counted, uncorrectable codewords are
poisoned and not counted again, and both rows are written (what a copy counts is a DESIGN CHOICE, log 157). -/
def copyDram (mc key : Nat) (s : State) : State :=
  let lo := dpaOf mc (1024 * key)
  forEach [lo, lo + 512] (fun row s =>
    let s := forEach ((stackErrs s row).filter (fun p => p.2 == .single)) (fun p s =>
      noteCe mc p.1 { s with hbm := { s.hbm with bad := tabErase s.hbm.bad p.1 } }) s
    let bad := stackBad s row
    stackWrite row (fun k => bad.contains k) s) s

/-- A repair holds a bank's requests (R231). -/
def bankHeld (s : State) (mc bank : Nat) : Bool := (getMc s mc).repairs.any (fun r => bankOf r.key == bank)

/-- A request to a bank under repair waits and sees the repaired data (R231): the copy comes first. -/
def awaitRepair (dpa : Nat) (s : State) : State :=
  let mc := mcOf dpa
  forEach ((getMc s mc).repairs.filter (fun r => bankOf r.key == bankAt dpa)) (fun r s => copyDram mc r.key s) s

/-! ## Tags (R220, R224) -/

/-- Controller tags in use, with the bank each is for. A request that begins and ends inside one command takes its tag and gives it back
inside it (log 92). -/
def mcTags (s : State) (mc : Nat) : List (Nat × Nat) :=
  s.canopy.xfers.filterMap (fun x => match x.st with
    | .tag n => if mcOf x.place = mc then some (n, bankAt x.place) else none
    | _ => none)

def bankTags (s : State) (mc bank : Nat) : Nat := ((mcTags s mc).filter (fun p => p.2 == bank)).length

/-- The lowest free tag. -/
def freeTag (s : State) (mc : Nat) : Option Nat := (List.range 4096).find? (fun n => (mcTags s mc).all (fun p => p.1 != n))

/-- A bank is at its cap (R224). -/
def bankFull (s : State) (dpa : Nat) : Bool :=
  bankCap s (mcOf dpa) != 0 && decide (bankCap s (mcOf dpa) ≤ bankTags s (mcOf dpa) (bankAt dpa))

/-- A prefetch hint that comes to its controller is dropped (R220, R226). -/
def hintRefused (s : State) (dpa : Nat) : Bool :=
  mscMode s (mcOf dpa) != 1 || decide (3072 < (mcTags s (mcOf dpa)).length) || bankFull s dpa

/-- BANK_BUSY: counted, BANK_CAP raised. -/
def answerBusy (dpa : Nat) (s : State) : State :=
  raise .memctl (mcOf dpa) 4 (.args 0 dpa) (countEvent .memctl (regAt .memctl (mcOf dpa) 0x54) 31 0 s)

/-! ## The memory-side cache (R226, R227) -/

/-- How an access allocates: as usual, as a prefetch hint, or not at all (the Litter aperture's rows). -/
inductive Alloc where
  | usual | hint | none
  deriving DecidableEq, Repr

/-- Set of a row, and the slice of sets that its ways are retired in. -/
def setOf (dpa : Nat) : Nat := bits (localOf dpa) 20 9
def sliceOf (dpa : Nat) : Nat := bits (localOf dpa) 20 17

def setLines (s : State) (dpa : Nat) : List Line := tabGet [] (getMc s (mcOf dpa)).cache (setOf dpa)

def putLines (dpa : Nat) (ls : List Line) (s : State) : State :=
  modMc (mcOf dpa) (fun m => { m with cache := tabSet [] m.cache (setOf dpa) ls }) s

/-- The line that holds a row. -/
def lineOf (s : State) (dpa : Nat) : Option Line := (setLines s dpa).find? (fun l => l.row == dpa / 512)

/-- The line of a row goes. -/
def dropLine (dpa : Nat) (s : State) : State := putLines dpa ((setLines s dpa).filter (fun l => l.row != dpa / 512)) s

/-- A line is used: it becomes the most recently used of its set. -/
def useLine (l : Line) (s : State) : State :=
  let dpa := 512 * l.row
  putLines dpa ({ l with low := false } :: (setLines s dpa).filter (fun k => k.row != l.row)) s

/-- Ways of a slice that are not retired (R227). -/
def goodWays (s : State) (mc slice : Nat) : List Nat :=
  (List.range 16).filter (fun w => !tabGet false (getMc s mc).wayGone (16 * slice + w))

/-- An update layer runs. -/
def updateRuns (s : State) : Bool :=
  s.ctxs.any (fun p => p.2.st == .running && (match p.2.record with
    | some r => r.update
    | none => false))

/-- The way of a slice that the Scribe reserves for pre-images while an update layer runs: the highest one not retired (R257). -/
def reservedWay (s : State) (mc slice : Nat) : Option Nat := if updateRuns s then (goodWays s mc slice).getLast? else none

/-- Ways of a row's set that serve. -/
def liveWays (s : State) (dpa : Nat) : List Nat :=
  (goodWays s (mcOf dpa) (sliceOf dpa)).filter (fun w => reservedWay s (mcOf dpa) (sliceOf dpa) != some w)

/-- The way-slice of a line. -/
def wayOf (l : Line) : Nat := 16 * sliceOf (512 * l.row) + l.way

/-- A correctable error in a line is corrected in place and counted, for its way-slice too (R227, R407). -/
def lineCe (l : Line) (k : Nat) (s : State) : State :=
  let mc := mcOf (512 * l.row)
  modMc mc (fun m => { m with wayCe := tabSet 0 m.wayCe (wayOf l) (tabGet 0 m.wayCe (wayOf l) + 1) }) (noteCe mc (32 * l.row + k) s)

/-- The single errors of a line are corrected. -/
def correctLine (l : Line) (s : State) : State := forEach (l.errs.filter (fun p => p.2 == .single)) (fun p s => lineCe l p.1 s) s

/-- A line has a new uncorrectable error. -/
def Line.broken (l : Line) : Bool := l.errs.any (fun p => p.2 == .double)

/-- A line leaves its set: its single errors are corrected, and a dirty one is written to the stack, poisoned as it is by R229, its whole
row where it has an uncorrectable error. -/
def spillLine (l : Line) (s : State) : State :=
  let row := 512 * l.row
  let s := dropLine row (correctLine l s)
  if !l.dirty then s
  else if l.broken then poisonRow row s
  else
    let lost (k : Nat) : Bool := l.errs.any (fun p => p.1 == k && p.2 == .poison)
    stackWrite row lost { s with hbm := { s.hbm with
      bad := l.errs.foldl (fun t p => if p.2 = .poison then tabInsert t (row / 16 + p.1) CwErr.poison else t) s.hbm.bad } }

/-- The lines of one way of a slice. -/
def wayLines (s : State) (mc slice w : Nat) : List Line :=
  (getMc s mc).cache.flatMap (fun p => if p.1 / 256 = slice then p.2.filter (fun l => l.way == w) else [])

/-- A way-slice fails: an uncorrectable error in one of its lines `ls`, or the fourth correctable one (R407, log 61). -/
def wayFails (s : State) (mc w : Nat) (ls : List Line) : Bool :=
  !tabGet false (getMc s mc).wayGone w && (ls.any Line.broken || decide (4 ≤ tabGet 0 (getMc s mc).wayCe w))

/-- A way-slice is retired once its lines have left: recorded in the map (R227, R407). -/
def dropWay (mc w : Nat) (s : State) : State :=
  mapAdd (mapEntry 8 (mc + 2 ^ 3 * (w / 16) + 2 ^ 7 * (w % 16)))
    (modMc mc (fun m => { m with wayGone := tabSet false m.wayGone w true }) s)

/-- The way of a slice that is reserved now is cleared (R257); where that shows the way to fail it is retired, and the next one is reserved.
`fuel` bounds the ways. -/
def reserveWay (mc slice : Nat) : Nat → State → State
  | 0, s => s
  | fuel + 1, s =>
    match reservedWay s mc slice with
    | none => s
    | some k =>
      let ls := wayLines s mc slice k
      let s := forEach ls spillLine s
      if wayFails s mc (16 * slice + k) ls then reserveWay mc slice fuel (dropWay mc (16 * slice + k) s) else s

/-- A way-slice is retired: its lines leave (R227, R407). While an update layer runs the way that is reserved from now on is cleared too. -/
def retireWay (mc w : Nat) (s : State) : State :=
  reserveWay mc (w / 16) 16 (dropWay mc w (forEach (wayLines s mc (w / 16) (w % 16)) spillLine s))

/-- A line that had errors: its way-slice is retired if it fails. -/
def judgeWay (l : Line) (s : State) : State :=
  if wayFails s (mcOf (512 * l.row)) (wayOf l) [l] then retireWay (mcOf (512 * l.row)) (wayOf l) s else s

/-- The line that gives way in a full set: an unused hint's, else any but the most recently used, as an open value chooses (log 12). -/
def victimOf (n : Nat) (ls : List Line) : Option Line :=
  match ls.reverse.find? (fun l => l.low) with
  | some l => some l
  | none => ls[min (ls.length - 1) (1 + n % (ls.length - 1))]?

/-- A line comes into its set. -/
def insertLine (al : Alloc) (dpa : Nat) (dirty : Bool) (errs : Tab CwErr) (s : State) : State :=
  let ways := liveWays s dpa
  let ls := setLines s dpa
  let line (w : Nat) : Line := ⟨dpa / 512, w, dirty, al == .hint, errs⟩
  let put (w : Nat) (s : State) : State :=
    putLines dpa (if al = .hint then setLines s dpa ++ [line w] else line w :: setLines s dpa) s
  match ways.find? (fun w => ls.all (fun l => l.way != w)) with
  | some w => put w s
  | none =>
    match victimOf (Config.freeWord s.free).toNat (ls.filter (fun l => ways.contains l.way)) with
    | none => spillLine (line 0) s
    | some v => judgeWay v (put v.way (spillLine v (takeFree s)))

/-- Every way that the Scribes reserve is cleared: an update layer begins to run (R257). -/
def reserveWays (s : State) : State :=
  forEach (List.range 8) (fun mc s => forEach (List.range 16) (fun slice s => reserveWay mc slice 16 s) s) s

/-- The device leaves RUN and STOPPED for HELD, where MSC_MODE does not act: the lines of every cache leave (log 137). -/
def flushCaches (s : State) : State :=
  forEach (List.range 8) (fun mc s => forEach ((getMc s mc).cache.flatMap (fun p => p.2)) (fun l s =>
    if (lineOf s (512 * l.row)).isSome then judgeWay l (spillLine l s) else s) s) s

/-- Errors of a line that an access meets (R227): single ones are corrected; an uncorrectable one discards a clean line and poisons the row
of a dirty one. -/
def settleLine (dpa : Nat) (s : State) : State :=
  match lineOf s dpa with
  | none => s
  | some l =>
    if l.errs.all (fun p => p.2 == .poison) then s
    else if l.broken then judgeWay l (spillLine l s)
    else
      let keep := l.errs.filter (fun p => p.2 != .single)
      judgeWay l (putLines dpa ((setLines s dpa).map (fun k => if k.row = l.row then { k with errs := keep } else k)) (correctLine l s))

/-- The row is in its controller's cache. -/
def inCache (s : State) (dpa : Nat) : Bool := mscMode s (mcOf dpa) == 1 && (lineOf s dpa).isSome

/-- Read the row at `row`: from its line, else from the stack. The answer is its uncorrectable codewords, counted in the row. A row that
has any allocates no line (DESIGN CHOICE, log 138). -/
def readRowAt (al : Alloc) (row : Nat) (s : State) : List Nat × State :=
  let mc := mcOf row
  let s := settleLine row (awaitRepair row s)
  if inCache s row then
    let s := addPair (regAt .memctl mc 0x58) 1 s
    match lineOf s row with
    | none => ([], s)
    | some l =>
      let s := useLine l s
      match l.errs with
      | [] => ([], s)
      | p :: t => ((p :: t).map (fun q => q.1), memUe mc (row / 16 + p.1) true s)
  else
    let s := if mscMode s mc = 1 then addPair (regAt .memctl mc 0x60) 1 s else s
    let bad := stackBad s row
    let s := checkRow row true (openPage row s)
    (bad, if mscMode s mc = 1 ∧ al ≠ .none ∧ bad = [] then insertLine al row false [] s else s)

/-- Codewords of the row of `a` that a write of [a, a + n) inside it covers in full. -/
def covers (a n k : Nat) : Bool := decide (a % 512 ≤ 16 * k) && decide (16 * k + 16 ≤ a % 512 + n)

/-- Write [a, a + n) inside one row, as far as its codewords, its line and the stack go: a partial write meets the errors of a line (R227), and
one that misses fills the row first (R226, R454); a write of the whole row reads nothing. -/
def writeRowAt (al : Alloc) (a n : Nat) (s : State) : State :=
  let row := a / 512 * 512
  let mc := mcOf row
  let s := awaitRepair row s
  let s := if n = 512 then s else settleLine row s
  if inCache s row then
    let s := addPair (regAt .memctl mc 0x58) 1 s
    match lineOf s row with
    | none => s
    | some l => useLine { l with dirty := true, errs := l.errs.filter (fun p => !covers a n p.1) } s
  else
    let cached : Bool := mscMode s mc == 1
    let s := if cached then addPair (regAt .memctl mc 0x60) 1 s else s
    let s := if n = 512 then s else checkRow row false (openPage row s)
    let left := (stackBad s row).filter (fun k => !covers a n k)
    if cached && al != .none then insertLine al row true (left.map (fun k => (k, CwErr.poison))) s
    else stackWrite row (fun k => left.contains k) s

/-! ## Order of a row's requests (R222, R223) -/

/-- How the read of a transfer allocates. -/
def xferAlloc (x : Xfer) : Alloc := if aperture ≤ x.addr then .none else if x.kind = .hint then .hint else .usual

/-- A read of the row at `row` that holds a tag and has not been served. -/
def waitsFor (row : Nat) (x : Xfer) : Bool :=
  (match x.st with
   | .tag _ => true
   | _ => false) && x.place / 512 == row / 512 && x.early.isNone

/-- One access of a row serves every read of it that waits (R222): each keeps the row, or that it failed. -/
def serveReads (row : Nat) (s : State) : State :=
  match s.canopy.xfers.find? (waitsFor row) with
  | none => s
  | some x =>
    let (bad, s) := readRowAt (xferAlloc x) row s
    let answer : Option Row := if bad = [] then some (BitVec.ofNat 4096 (ofBytes (s.hbm.read row 512))) else none
    { s with canopy := { s.canopy with
      xfers := s.canopy.xfers.map (fun y => if waitsFor row y then { y with early := some answer } else y) } }

/-- Rows of [lo, hi) that accepted reads wait for. -/
def waitedRows (s : State) (lo hi : Nat) : List Nat :=
  ((s.canopy.xfers.filter (fun x => decide (lo / 512 * 512 ≤ x.place) && decide (x.place < hi) && waitsFor x.place x)).map
    (fun x => x.place / 512 * 512)).eraseDups

/-- A write of [lo, hi) takes effect after the reads of its rows that were accepted before it (R223). -/
def readsFirst (lo hi : Nat) (s : State) : State := forEach (waitedRows s lo hi) serveReads s

/-! ## Which read is served (R221) -/

/-- Requests that wait for a bank of the stack, oldest first. -/
def bankMisses (s : State) (mc bank : Nat) : List Xfer :=
  s.canopy.xfers.filter (fun x => waitsFor x.place x && mcOf x.place == mc && bankAt x.place == bank && !inCache s x.place)

/-- The DRAM row that a bank has open. -/
def pageOpen (s : State) (x : Xfer) : Bool :=
  tabFind? (getMc s (mcOf x.place)).pages (bankAt x.place) == some (dramOf (localOf x.place))

def ageLimit (s : State) (mc : Nat) : Nat := getF s (regAt .memctl mc 0x44) 23 12

/-- A waiting miss is served next in its bank: the oldest once it has waited AGE_LIMIT × 16 MCLK cycles (`aged`; never where AGE_LIMIT
is 0), else a request to the open page ahead of the others (R221; `aged` comes with the command, log 136). -/
def servedNext (aged : Bool) (s : State) (x : Xfer) : Bool :=
  let ms := bankMisses s (mcOf x.place) (bankAt x.place)
  if aged && ageLimit s (mcOf x.place) != 0 then ms.head? == some x else pageOpen s x || !ms.any (pageOpen s)

/-- The read that leaves a controller first, to free a tag: of the bank if it is at its cap, else of any; one already served, else one that
is served next. -/
def firstToLeave (s : State) (dpa : Nat) : Option Xfer :=
  let held := s.canopy.xfers.filter (fun x => (match x.st with
    | .tag _ => true
    | _ => false) && mcOf x.place == mcOf dpa && (bankAt x.place == bankAt dpa || !bankFull s dpa))
  match held.find? (fun x => x.early.isSome || servedNext false s x) with
  | some x => some x
  | none => held.head?

/-- A read's row leaves its controller, for every read that waits for it (R222), and their tags are free. -/
def leaveTag (x : Xfer) (s : State) : State :=
  let s := if x.early.isSome then s else serveReads x.place s
  { s with canopy := { s.canopy with xfers := s.canopy.xfers.map (fun y => match y.st with
    | .tag n => if y.place / 512 = x.place / 512 ∧ y.early.isSome then { y with st := .left n } else y
    | _ => y) } }

/-- A request of the device itself or of the host comes to its bank. At the cap it is answered BANK_BUSY and is sent again until it is
accepted (R224; one answer is counted, log 111); it is accepted once a read that holds one of the bank's tags, or, where none of the
controller's 4,096 is free, any tag, has left. -/
def comeToBank (dpa : Nat) (s : State) : State :=
  let full := bankFull s dpa
  let s := if full then answerBusy dpa s else s
  if full || (freeTag s (mcOf dpa)).isNone then
    match firstToLeave s dpa with
    | some x => leaveTag x s
    | none => s
  else s

/-! ## Reading and writing bytes -/

/-- Split [a, a + n) at multiples of `unit`; `fuel` bounds the pieces. -/
def splitAt' (unit : Nat) : Nat → Nat → Nat → List (Nat × Nat)
  | 0, _, _ => []
  | fuel + 1, a, n =>
    if n = 0 then []
    else
      let k := min n (unit - a % unit)
      (a, k) :: splitAt' unit fuel (a + k) (n - k)

def pieces (unit a n : Nat) : List (Nat × Nat) := splitAt' unit (n / unit + 2) a n

/-- Read bytes at a DPA through the controllers, as every access does that is not a DMA row or request: it goes as no flits, so no CRC fails in it
(R31; DESIGN CHOICE, log 66). The answer is the first row in which a codeword that holds an asked byte is uncorrectable,
or the bytes (R229, R454). -/
def memReadAs (al : Alloc) (a n : Nat) (s : State) : (Except Nat (List Byte)) × State :=
  let (bad, s) := (pieces 512 a n).foldl (fun (acc : Option Nat × State) p =>
    let row := p.1 / 512 * 512
    let (bad, s) := readRowAt al row (comeToBank row acc.2)
    let hit := bad.any (fun k => decide (p.1 % 512 / 16 ≤ k) && decide (k ≤ (p.1 % 512 + p.2 - 1) / 16))
    (if acc.1.isNone && hit then some row else acc.1, s)) (none, s)
  (match bad with
   | some row => .error row
   | none => .ok (s.hbm.read a n), s)

/-- Read bytes at a DPA; `none` where they cannot be delivered. -/
def memRead (a n : Nat) (s : State) : Option (List Byte) × State :=
  let (r, s) := memReadAs .usual a n s
  (r.toOption, s)

/-- Write bytes at a DPA; a write never fails. -/
def memWriteAs (al : Alloc) (a : Nat) (data : List Byte) (s : State) : State :=
  let s := readsFirst a (a + data.length) s
  let s := forEach (pieces 512 a data.length) (fun p s => writeRowAt al p.1 p.2 s) s
  { s with hbm := s.hbm.write a data }

/-- A write of the device itself or of the host. -/
def memWrite (a : Nat) (data : List Byte) (s : State) : State :=
  memWriteAs .usual a data (forEach (pieces 512 a data.length) (fun p s => comeToBank (p.1 / 512 * 512) s) s)

/-- The first row that each controller serves in [lo, hi): granules of 16 KiB go round the controllers (R215). -/
def firstRows (lo hi : Nat) : List Nat :=
  let starts := lo :: ((List.range 16).map (fun k => (lo / 2 ^ 14 + 1 + k) * 2 ^ 14)).filter (fun a => decide (a < hi))
  (List.range 8).filterMap (fun m => starts.find? (fun a => mcOf a == m))

/-- The last row that a controller serves in [lo, hi). -/
def lastRow (lo hi m : Nat) : Option Nat :=
  let ends := (hi - 512) :: ((List.range 16).map (fun k => hi / 2 ^ 14 * 2 ^ 14 - 2 ^ 14 * k - 512)).filter (fun a => decide (lo ≤ a))
  ends.find? (fun a => mcOf a == m)

/-- DRAM rows that a controller writes last in [lo, hi), rising: one for each bank at most, since 1 MiB goes round the banks (R216). -/
def lastDram (lo hi m : Nat) : List Nat :=
  match (firstRows lo hi).find? (fun a => mcOf a == m), lastRow lo hi m with
  | some a, some b =>
    let k := dramOf (localOf b)
    let j := max (dramOf (localOf a)) (k - 1023)
    (List.range (k + 1 - j)).map (fun i => j + i)
  | _, _ => []

/-- The rows of [lo, hi) that a controller without a cache writes to its stack at once: errors go, pages open, ERR_INJ meets the first row. -/
def bypassRows (lo hi : Nat) (s : State) : State :=
  let mine (a : Nat) : Bool := mscMode s (mcOf a) != 1
  forEach ((firstRows lo hi).filter mine) injectError { s with
    hbm := { s.hbm with bad := s.hbm.bad.filter (fun p => decide (p.1 < lo / 16) || decide (hi / 16 ≤ p.1) || !mine (16 * p.1)) }
    mcs := Vector.ofFn (fun m => let x := getMc s m.val
      if mscMode s m.val = 1 then x else { x with pages := (lastDram lo hi m.val).foldl (fun t k => tabInsert t (bankOf k) k) x.pages }) }

/-- Whole rows of [lo, hi), one after the other. -/
def rowsIn (lo hi : Nat) : List Nat := (List.range ((hi - lo) / 512)).map (fun k => lo + 512 * k)

/-- Whole rows [lo, hi) are written (scrubs and saves): each comes to its bank and takes its line as any write does; where no tag is held and
no repair runs, the rows of controllers without a cache go to their stacks together. -/
def writeBulk (lo hi : Nat) (s : State) : State :=
  let s := readsFirst lo hi s
  let quiet := (List.range 8).all (fun m => (mcTags s m).isEmpty && (getMc s m).repairs.isEmpty)
  if hi ≤ lo then s
  else if quiet then
    let s := bypassRows lo hi s
    if (List.range 8).all (fun m => mscMode s m != 1) then s
    else forEach ((rowsIn lo hi).filter (fun a => mscMode s (mcOf a) == 1)) (fun a s => writeRowAt .usual a 512 s) s
  else forEach (rowsIn lo hi) (fun a s => writeRowAt .usual a 512 (comeToBank a s)) s

/-- Write zeros to [a, a + n), a range of whole rows. -/
def memZero (a n : Nat) (s : State) : State :=
  let s := writeBulk a (a + n) s
  { s with hbm := s.hbm.zero a n }

/-- The rows that [a, a + n) covers in part. -/
def partRows (a n : Nat) : List (Nat × Nat) := (pieces 512 a n).filter (fun p => p.2 != 512)

/-- Write contents that the manual leaves open to [a, a + n). A row that the range covers in part is merged as by any partial write (R226). -/
def memBlur (a n : Nat) (s : State) : State :=
  let s := writeBulk ((a + 511) / 512 * 512) ((a + n) / 512 * 512) s
  let s := forEach (partRows a n) (fun p s =>
    writeRowAt .usual p.1 p.2 (comeToBank (p.1 / 512 * 512) (readsFirst p.1 (p.1 + p.2) s))) s
  takeFree { s with hbm := s.hbm.blur a n s.free }

def rowOfBytes (b : List Byte) : Row := BitVec.ofNat 4096 (ofBytes b)
def bytesOfRow (r : Row) : List Byte := bytesOf 512 r.toNat

/-! ## Translation (R217, R218) -/

/-- What a walk answers. -/
inductive Walk where
  | ok (dpa : Nat) (write scrub : Bool)
  | bad (reason : Nat)
  deriving DecidableEq, Repr

/-- Check one page-table entry and give its address: reason 1 for V = 0, 3 for a malformed one. -/
def checkEntry (leaf : Bool) (e : Nat) : Nat ⊕ Nat :=
  if !bit e 0 then .inr 1
  else if bits e 11 3 ≠ 0 ∨ bits e 63 40 ≠ 0 ∨ (leaf ∧ bits e 20 12 ≠ 0) then .inr 3
  else
    let a := bits e 39 12 * 4096
    if a ≥ dpaEnd then .inr 3 else .inl a

/-- One table read of a walk; an uncorrectable error is reason 3 (R229). -/
def walkRead (table idx : Nat) (s : State) : Option Nat × State :=
  let (r, s) := memRead (table + 8 * idx) 8 s
  (r.map ofBytes, s)

/-- The root table's DPA of a context; bits 11:0 are ignored (R218, R342). -/
def ptRoot (s : State) (c : Nat) : Nat :=
  let v := cfgPair s (regAt .ctx c 0x48)
  bits v 39 12 * 4096

/-- Walk the three levels for a 48-bit virtual address from the context's root. -/
def walkLevels (c va : Nat) (s : State) : Walk × State :=
  let root := ptRoot s c
  if root ≥ dpaEnd then (.bad 3, s)
  else
    match walkRead root (bits va 47 39) s with
    | (none, s) => (.bad 3, s)
    | (some e1, s) =>
      match checkEntry false e1 with
      | .inr r => (.bad r, s)
      | .inl mid =>
        match walkRead mid (bits va 38 30) s with
        | (none, s) => (.bad 3, s)
        | (some e2, s) =>
          match checkEntry false e2 with
          | .inr r => (.bad r, s)
          | .inl leaf =>
            match walkRead leaf (bits va 29 21) s with
            | (none, s) => (.bad 3, s)
            | (some e3, s) =>
              match checkEntry true e3 with
              | .inr r => (.bad r, s)
              | .inl page => (.ok (page + bits va 20 0) (bit e3 1) (bit e3 2), s)

/-- A walk, counted in PT_WALKS as it starts (R218). The Litter aperture is never walked: no table is consulted for it (R173; reason 3, log 113). -/
def walk (c va : Nat) (s : State) : Walk × State :=
  if aperture ≤ va then (.bad 3, s) else walkLevels c va (bump (regAt .mmu 0 0x4C) 31 0 1 s)

/-- A translation for reading or for writing: DPA or reason (R218). -/
def translate (c va : Nat) (write : Bool) (s : State) : (Nat ⊕ Nat) × State :=
  match walk c va s with
  | (.bad r, s) => (.inr r, s)
  | (.ok a w _, s) => if write && !w then (.inr 2, s) else (.inl a, s)

/-- PT_FAULT (R236): PT_LAST_FAULT, its counter and event. -/
def ptFault (c va reason : Nat) (s : State) : State :=
  let s := countEvent .mmu (regAt .mmu 0 0x48) 31 0 s
  let s := setPair (regAt .mmu 0 0x50) (bits va 47 0 + 2 ^ 48 * c + 2 ^ 56 * reason) s
  raise .mmu 0 0 (.of c reason (bits va 47 0)) s

/-- How a virtual access of the device fails. -/
inductive VErr where
  /-- a translation fault of reason r -/
  | page (va reason : Nat)
  /-- an uncorrectable error in the row at a DPA -/
  | data (dpa : Nat)
  deriving DecidableEq, Repr

/-- How an access translates an address: DPA or reason. -/
abbrev Translate := Nat → State → (Nat ⊕ Nat) × State

/-- Read bytes at a virtual address, page by page, translated by `tr`. -/
def vReadBy (tr : Translate) (va n : Nat) (s : State) : (Except VErr (List Byte)) × State :=
  (pieces (2 ^ 21) va n).foldl (fun (acc : (Except VErr (List Byte)) × State) p =>
    match acc with
    | (.error e, s) => (.error e, s)
    | (.ok got, s) =>
      match tr p.1 s with
      | (.inr r, s) => (.error (.page p.1 r), s)
      | (.inl a, s) =>
        match memReadAs .usual a p.2 s with
        | (.error row, s) => (.error (.data row), s)
        | (.ok b, s) => (.ok (got ++ b), s)) (.ok [], s)

/-- Read bytes at a virtual address of a context. -/
def vRead (c va n : Nat) (s : State) : (Except VErr (List Byte)) × State := vReadBy (fun va s => translate c va false s) va n s

/-- Translate every page of [va, va + n) by `tr`. -/
def vTargetsBy (tr : Translate) (va n : Nat) (s : State) : (Except VErr (List (Nat × Nat))) × State :=
  (pieces (2 ^ 21) va n).foldl (fun (acc : (Except VErr (List (Nat × Nat))) × State) p =>
    match acc with
    | (.error e, s) => (.error e, s)
    | (.ok got, s) =>
      match tr p.1 s with
      | (.inr r, s) => (.error (.page p.1 r), s)
      | (.inl a, s) => (.ok (got ++ [(a, p.2)]), s)) (.ok [], s)

/-- Translate every page of [va, va + n) for writing. -/
def vTargets (c va n : Nat) (s : State) : (Except VErr (List (Nat × Nat))) × State :=
  vTargetsBy (fun va s => translate c va true s) va n s

def writePieces : List (Nat × Nat) → List Byte → State → State
  | [], _, s => s
  | (a, n) :: t, data, s => writePieces t (data.drop n) (memWrite a (data.take n) s)

/-- Write bytes at a virtual address translated by `tr`: all of it, or nothing where a page has no valid or no writable entry. -/
def vWriteBy (tr : Translate) (va : Nat) (data : List Byte) (s : State) : Option VErr × State :=
  match vTargetsBy tr va data.length s with
  | (.error e, s) => (some e, s)
  | (.ok ps, s) => (none, writePieces ps data s)

/-- Write bytes at a virtual address of a context. -/
def vWrite (c va : Nat) (data : List Byte) (s : State) : Option VErr × State := vWriteBy (fun va s => translate c va true s) va data s

end Sys2Proof.Machine
end

