-- ==== Sys2Proof/Machine/NibOps.lean ====
section
/-! DEFINITION. Rows of a nib, their detection codes and valid bits, descriptors' fields, and what a landing row does
(R99 to R118, R351, R417). -/

namespace Sys2Proof.Machine

/-! ## Rows -/

/-- A row: none when its valid bit is clear. -/
def Nib.row (n : Nib) (r : Nat) : Option RowCell :=
  tabGet (if n.zeroed then some ⟨0, []⟩ else none) n.rows r

def Nib.setCell (n : Nib) (r : Nat) (c : Option RowCell) : Nib :=
  { n with rows := tabSet (if n.zeroed then some ⟨0, []⟩ else none) n.rows r c }

/-- A buffered copy of row r, if the feeder holds one (R93). -/
def Nib.buffered (n : Nib) (r : Nat) : Option Row :=
  ((n.actBuf ++ n.wBuf.toList.filterMap id ++ n.scaleBuf).find? (fun p => p.1 == r)).map (fun p => p.2)

/-- Every feeder buffer empty. -/
def Nib.unbuffered (n : Nib) : Nib := { n with actBuf := [], wBuf := Vector.replicate 4 none, scaleBuf := [] }

/-- A write of row r invalidates its buffered copies (R93). -/
def Nib.unbuffer (n : Nib) (r : Nat) : Nib :=
  { n with
      actBuf := n.actBuf.filter (fun p => p.1 != r), scaleBuf := n.scaleBuf.filter (fun p => p.1 != r),
      wBuf := n.wBuf.map (fun p => p.filter (fun q => q.1 != r)) }

/-- A row write: fresh codes, valid bit set, buffered copies gone (R93, R105, R106). -/
def Nib.writeRow (n : Nib) (r : Nat) (d : Row) : Nib := (n.setCell r (some ⟨d, []⟩)).unbuffer r

/-- Make every row invalid (GATED, RETIRED) or a valid row of zeros (scrub). -/
def Nib.allRows (n : Nib) (zeroed : Bool) : Nib := { n with zeroed := zeroed, rows := [], slotTag := [] }

/-- One step of the detection code: x⁸ + x² + x + 1 (R106). -/
def crcBit (c : Nat) (d : Bool) : Nat :=
  let top := (c / 128 % 2 == 1) != d
  let c := c * 2 % 256
  if top then c ^^^ 0x07 else c

/-- The code of 128 data bits from a starting value, bits 127 down to 0. -/
def crc128 (init : Nat) (d : Nat) : Nat :=
  (List.range 128).foldl (fun c i => crcBit c (bit d (127 - i))) init

/-- The detection code of a word (R106): initial value 0xFF. -/
def detectCode (d : Nat) : Nat := crc128 0xFF d

/-- Upsets in stored words: the code is linear, so a flip changes the syndrome by the flip's own code from 0. -/
def flipCell (u : Upset) (c : RowCell) : RowCell :=
  let w := u.word.val
  let syn := (tabGet 0 c.syn w).toNat ^^^ crc128 0 u.data.toNat ^^^ u.code.toNat
  ⟨c.data ^^^ BitVec.ofNat 4096 (u.data.toNat * 2 ^ (128 * w)), tabSet 0 c.syn w (BitVec.ofNat 8 syn)⟩

/-- The bits that flipped since the nib's rows were last read. -/
def Nib.upset (n : Nib) (ups : List Upset) : Nib :=
  ups.foldl (fun n u => match n.row u.row.val with
    | none => n
    | some c => n.setCell u.row.val (some (flipCell u c))) n

/-- What a row read gives (R107, R351). -/
inductive RowRead where
  | ok (d : Row)
  | stale
  | detect
  deriving DecidableEq, Repr

def Nib.readRow (n : Nib) (r : Nat) : RowRead :=
  match n.row r with
  | none => .stale
  | some c => if c.syn = [] then .ok c.data else .detect

/-- A row as the feeder gets it: from a buffer, else from the Inkwell. -/
def Nib.feedRow (n : Nib) (r : Nat) : RowRead :=
  match n.buffered r with
  | some d => .ok d
  | none => n.readRow r

/-- What reading rows in order gives: the rows, or the first one that cannot be delivered. -/
inductive RowsRead where
  | ok (ds : List Row)
  | stale (r : Nat)
  | detect (r : Nat)
  deriving DecidableEq, Repr

def readRowsBy (read : Nat → RowRead) : List Nat → RowsRead
  | [] => .ok []
  | r :: t =>
    match read r with
    | .stale => .stale r
    | .detect => .detect r
    | .ok d =>
      match readRowsBy read t with
      | .ok ds => .ok (d :: ds)
      | e => e

def Nib.readRows (n : Nib) (rs : List Nat) : RowsRead := readRowsBy n.readRow rs
def Nib.feedRows (n : Nib) (rs : List Nat) : RowsRead := readRowsBy n.feedRow rs

/-! ## Descriptors (R109, R110) -/

def Desc.kind (d : Desc) : Nat := bits d.word 2 0
def Desc.transpose (d : Desc) : Bool := bit d.word 3
def Desc.es (d : Desc) : Nat := bits d.word 4 4
def Desc.fence (d : Desc) : Bool := bit d.word 5
def Desc.signal (d : Desc) : Bool := bit d.word 6
def Desc.tag (d : Desc) : Nat := bits d.word 13 8
def Desc.sigIdx (d : Desc) : Nat := bits d.word 17 14
def Desc.rows (d : Desc) : Nat := bits d.word 31 19
def Desc.lrow (d : Desc) : Nat := bits d.word 44 32
def Desc.xrow (d : Desc) : Nat := bits d.word 76 64
def Desc.xrank (d : Desc) : Nat := bits d.word 89 80
def Desc.stride (d : Desc) : Int := sbits d.word 119 96
def Desc.va (d : Desc) : Nat := bits d.word 191 128

/-- HBM address of row i, as an integer. -/
def Desc.addr (d : Desc) (i : Nat) : Int := d.va + 512 * (i * d.stride)

def Nib.desc? (n : Nib) (seq : Nat) : Option Desc := n.descs.find? (fun d => d.seq == seq)
def Nib.setDesc (n : Nib) (d : Desc) : Nib := { n with descs := n.descs.map (fun e => if e.seq = d.seq then d else e) }

/-- Bᵀ of one transpose block (R118): b rows of elements of ES + 1 bytes. -/
def transposeBlock (es : Nat) (rows : List Row) : List Row :=
  let src := rows.map bytesOfRow
  let byteAt (r p : Nat) : Byte := ((src[r]?).getD [])[p]?.getD 0
  let w := es + 1
  (List.range rows.length).map (fun k =>
    rowOfBytes ((List.range 512).map (fun p =>
      let i := 16 * k + p / 32
      let f := p % 32 / w
      byteAt (f / 16) (32 * (f % 16) + w * i + p % w))))

/-- A row that has been accepted or written elsewhere. -/
def markLanded (seq i : Nat) (n : Nib) : Nib :=
  match n.desc? seq with
  | none => n
  | some d => n.setDesc { d with landed := d.landed ++ [i] }

/-- The transfer of a descriptor fails: it never completes (R116). -/
def failDesc (seq : Nat) (n : Nib) : Nib :=
  match n.desc? seq with
  | none => n
  | some d => n.setDesc { d with failed := true }

/-! ## Cached translations (R218) -/

/-- A cached translation of a nib: DPA of the page and W. -/
def Nib.cached (n : Nib) (c va : Nat) : Option (Nat × Bool) :=
  (n.tlb.find? (fun e => e.1 == c * 2 ^ 27 + va / 2 ^ 21)).map (fun e => e.2)

/-- A nib caches the translation of an address. Which one a full cache of 16 drops is open: log 12. -/
def cacheTranslation (nib c va a : Nat) (w : Bool) (s : State) : State :=
  let drop := (Config.freeWord s.free).toNat % 16
  takeFree (modNib nib (fun n =>
    let kept := if 16 ≤ n.tlb.length then n.tlb.eraseIdx drop else n.tlb
    { n with tlb := (c * 2 ^ 27 + va / 2 ^ 21, a - va % 2 ^ 21, w) :: kept }) s)

/-- A nib's translation: the cached one, or that of a walk, which it then caches. -/
def nibTranslate (nib c : Nat) (write : Bool) (va : Nat) (s : State) : (Nat ⊕ Nat) × State :=
  match (getNib s nib).cached c va with
  | some (a, w) => (if write && !w then .inr 2 else .inl (a + va % 2 ^ 21), s)
  | none =>
    match walk c va s with
    | (.bad r, s) => (.inr r, s)
    | (.ok a w _, s) => if write && !w then (.inr 2, s) else (.inl a, cacheTranslation nib c va a w s)

/-! ## Start and scrub -/

/-- The core without anything of a layer's; its read latch stays, as R8 has it until the reader next reads a low word (log 126). -/
def Quill.clear (q : Quill) : Quill := { Quill.cold with latch := q.latch }

/-- A nib with nothing running or queued: what a layer start, a fault or a kill leaves of its engines (R95, R126, R163). Rows,
slots and the counters since power-up stay. -/
def Nib.stopped (n : Nib) : Nib :=
  { Nib.cold with zeroed := n.zeroed, rows := n.rows, slotTag := n.slotTag, count := n.count, tlb := n.tlb, quill := n.quill.clear }

/-- No array holds weights (R77, R95). -/
def Nib.unloaded (n : Nib) : Nib := { n with held := Nib.cold.held }

/-- Everything zero and every row a valid row of zeros (R417); the counters since power-up and cached translations stay. -/
def Nib.scrubbed (n : Nib) : Nib := { Nib.cold with zeroed := true, count := n.count, tlb := n.tlb, quill := n.quill.clear }

/-- Everything lost and every valid bit clear (R351). The counts stay, with MX_NIB_GATHERED and the fields for the last fault and the last error
(DESIGN CHOICE, log 135), and the core's read latch, which no rule ends (R8, log 126). -/
def Nib.lost (n : Nib) : Nib := { Nib.cold with count := n.count, quill := n.quill.clear }

/-- Accumulate the detection errors of a nib (R107, R128): reader 0 feeder, 1 vector engine, 2 DMA engine, 3 pull served. -/
def noteDetect (r reader : Nat) (n : Nib) : Nib :=
  { n with count := { n.count with detects := satAdd 16 n.count.detects 1, lastDet := some (reader, r) } }

end Sys2Proof.Machine
end

