-- ==== Sys2Proof/Machine/Operands.lean ====
section
/-! DEFINITION. Operand forms of a nib's programs: the fields of Quill, matrix and vector instructions, the rows that they name,
and how elements lie in rows (R42, R70 to R72, R75, R78, R79, R82, R84, R112, R135, R139, R140, R155, R189 to R195). -/

namespace Sys2Proof.Machine

/-! ## Quill instructions (R155) -/

def qOp (w : Nat) : Nat := bits w 6 0
def qRd (w : Nat) : Nat := bits w 11 7
def qRa (w : Nat) : Nat := bits w 16 12
def qRb (w : Nat) : Nat := bits w 21 17
def qFn (w : Nat) : Nat := bits w 31 22
def qImm15 (w : Nat) : Int := sbits w 31 17
def qImm20 (w : Nat) : Int := sbits w 31 12
/-- RB of the B format. -/
def qBrb (w : Nat) : Nat := bits w 11 7
/-- W3 of the Q format; W0, W1 and W2 stand where RD, RA and RB do. -/
def qW3 (w : Nat) : Nat := bits w 26 22
/-- The index that CSRR, CSRW, WTAG and RSUM take from IMM15. -/
def qField (w hi lo : Nat) : Nat := bits w (17 + hi) (17 + lo)

/-- OP and FN are defined (R156). -/
def qDefined (w : Nat) : Bool :=
  let o := qOp w
  (o == 1 && decide (qFn w ≤ 14)) || (decide (2 ≤ o) && decide (o ≤ 0x0B)) || (decide (0x10 ≤ o) && decide (o ≤ 0x19))

/-! ## Formats (R42, R49, R68, R70) -/

def isBlock (f : Nat) : Bool := f == 6 || f == 7

/-- The operand pairs of R49. -/
def pairOk (a w : Nat) : Bool :=
  (a == 1 && w == 1) || (a == 2 && w == 2) || ((a == 3 || a == 4) && (w == 3 || w == 4)) || (a == 5 && w == 5) ||
  (isBlock a && isBlock w)

/-- K-slices per row. -/
def kSlices (f : Nat) : Nat := if f ≤ 2 then 1 else if f = 7 then 4 else 2

/-- Data rows per scale row: Q of R72. -/
def scaleQ (f : Nat) : Nat := if f = 7 then 16 else 32

/-- Bits hi to lo of a row. -/
def rowBits (r : Row) (hi lo : Nat) : Nat := bits r.toNat hi lo

def rowByte (r : Row) (k : Nat) : Nat := rowBits r (8 * k + 7) (8 * k)

/-- The pattern of element e of vector v (R70). -/
def vecElem (f : Nat) (r : Row) (v e : Nat) : Nat :=
  if f ≤ 2 then rowBits r (8 * (32 * v + 2 * e) + 15) (8 * (32 * v + 2 * e))
  else if f = 7 then rowBits r (8 * (32 * v) + 4 * e + 3) (8 * (32 * v) + 4 * e)
  else rowByte r (32 * v + e)

/-- The value of element e of vector v; `scale` is the scale row and the data row's index in it (R72). -/
def vecValue (f : Nat) (r : Row) (scale : Row × Nat) (v e : Nat) : Num :=
  let b := vecElem f r v e
  if f = 6 then blockElem false b (rowByte scale.1 (16 * scale.2 + v))
  else if f = 7 then blockElem true b (rowByte scale.1 (32 * scale.2 + 2 * v + e / 32))
  else elemValue (fmtOfCode f) b

/-- The 16 elements of slice sl of vector v. -/
def sliceValues (f : Nat) (r : Row) (scale : Row × Nat) (v sl : Nat) : List Num :=
  (List.range 16).map (fun k => vecValue f r scale v (16 * sl + k))

/-! ## Matrix instructions (R75, R78, R82) -/

/-- Field of word k of a 128-bit instruction. -/
def wf (w k hi lo : Nat) : Nat := bits w (32 * k + hi) (32 * k + lo)
def wb (w k i : Nat) : Bool := bit w (32 * k + i)

def mxOp (w : Nat) : Nat := wf w 0 7 0

/-- A matrix or vector instruction's tag field: the tag and its valid bit. -/
abbrev TagRef := Nat × Bool

structure Mma where
  afmt   : Nat
  wfmt   : Nat
  amask  : Nat
  m      : Nat
  acc    : Nat
  clr    : Bool
  aSel   : Nat
  wSel   : Nat
  wmode  : Nat
  gather : Bool
  anchor : Int
  aRow   : Nat
  wRow   : Nat
  aSrow  : Nat
  aSi    : Nat
  wSrow  : Nat
  wSi    : Nat
  tag0   : TagRef
  tag1   : TagRef
  deriving DecidableEq, Repr

def Mma.ofWord (w : Nat) : Mma :=
  { afmt := wf w 0 10 8, wfmt := wf w 0 13 11, amask := wf w 0 17 14, m := wf w 0 24 18, acc := wf w 0 30 25, clr := wb w 0 31,
    aSel := wf w 1 1 0, wSel := wf w 1 3 2, wmode := wf w 1 5 4, gather := wb w 1 6, anchor := sbits w (32 + 17) (32 + 8),
    aRow := wf w 1 29 18, wRow := wf w 2 11 0, aSrow := wf w 2 23 12, aSi := wf w 2 28 24, wSrow := wf w 3 11 0,
    wSi := wf w 3 16 12, tag0 := (wf w 3 22 17, wb w 3 23), tag1 := (wf w 3 29 24, wb w 3 30) }

/-- Arrays that an instruction enables. -/
def arraysOf (mask : Nat) : List Nat := (List.range 4).filter (fun a => bit mask a)

/-- M = 0 or AMASK = 0 (R83). -/
def Mma.idle (i : Mma) : Bool := i.m == 0 || i.amask == 0

def Mma.dataRows (i : Mma) : List Nat := if i.idle then [] else (List.range ((i.m + 15) / 16)).map (fun g => i.aRow + g)

/-- Weight rows, with their arrays. -/
def Mma.weightRows (i : Mma) : List Nat := if i.idle || i.wmode == 1 then [] else (arraysOf i.amask).map (fun a => i.wRow + a)

/-- Scale row and index of activation data row g, and of array a's weight row (R72). -/
def Mma.aScale (i : Mma) (g : Nat) : Nat × Nat := (i.aSrow + (i.aSi + g) / scaleQ i.afmt, (i.aSi + g) % scaleQ i.afmt)
def Mma.wScale (i : Mma) (a : Nat) : Nat × Nat := (i.wSrow + (i.wSi + a) / scaleQ i.wfmt, (i.wSi + a) % scaleQ i.wfmt)

def Mma.aScaleRows (i : Mma) : List Nat :=
  if i.idle || !isBlock i.afmt then [] else (List.range ((i.m + 15) / 16)).map (fun g => (i.aScale g).1)

def Mma.wScaleRows (i : Mma) : List Nat :=
  if i.idle || i.wmode != 0 || !isBlock i.wfmt then [] else (arraysOf i.amask).map (fun a => (i.wScale a).1)

/-- Every operand and scale row of an MMA, in the order in which they are read: of two that cannot be delivered the first is reported (DESIGN
CHOICE, log 149). -/
def Mma.rows (i : Mma) : List Nat := i.dataRows ++ i.aScaleRows ++ i.weightRows ++ i.wScaleRows

/-- Reasons 1 to 3 of R84; 0 where none applies. -/
def Mma.shapeReason (i : Mma) : Nat :=
  if !pairOk i.afmt i.wfmt then 1 else if i.m > 64 then 2 else if i.acc + i.m > 64 then 3 else 0

/-- The reason of R84 for an MMA; `held` tells whether an array holds weights. -/
def Mma.reason (i : Mma) (held : Nat → Bool) : Nat :=
  if i.shapeReason ≠ 0 then i.shapeReason
  else if i.wmode = 3 ∨ (i.wmode = 2 ∧ i.wfmt > 2) then 4
  else if i.wmode = 1 ∧ (arraysOf i.amask).any (fun a => !held a) then 5
  else if kSlices i.afmt ≤ i.aSel ∨ (i.wmode ≠ 1 ∧ kSlices i.wfmt ≤ i.wSel) ∨
      (isBlock i.afmt ∧ scaleQ i.afmt ≤ i.aSi) ∨ (isBlock i.wfmt ∧ i.wmode = 0 ∧ scaleQ i.wfmt ≤ i.wSi) then 6
  else if i.rows.any (fun r => decide (4095 < r)) then 7
  else 0

structure Readout where
  array  : Nat
  acc    : Nat
  n      : Nat
  tfmt   : Nat
  dest   : Bool
  clr    : Bool
  sr     : Bool
  dRow   : Nat
  fbIdx  : Nat
  srBase : Nat
  tensor : Nat
  stride : Nat
  deriving DecidableEq, Repr

def Readout.ofWord (w : Nat) : Readout :=
  { array := wf w 0 9 8, acc := wf w 0 15 10, n := wf w 0 22 16, tfmt := wf w 0 25 23, dest := wb w 0 26, clr := wb w 0 27,
    sr := wb w 0 28, dRow := wf w 1 11 0, fbIdx := wf w 1 31 12, srBase := wf w 2 31 0, tensor := wf w 3 15 0,
    stride := wf w 3 31 16 }

/-- Bytes of an entry (R79). -/
def Readout.bytes (i : Readout) : Nat := match i.tfmt with
  | 0 => 4 | 1 => 2 | 2 => 2 | 6 => 8 | _ => 1

/-- Accumulator rows per Inkwell row: P of R79. -/
def Readout.perRow (i : Readout) : Nat := 32 / i.bytes

/-- Destination rows. -/
def Readout.rows (i : Readout) : List Nat :=
  if i.dest then (List.range ((i.n + i.perRow - 1) / i.perRow)).map (fun k => i.dRow + k) else []

/-- Reasons of R84. The rows of TFMT 7, which has no format, are taken at one byte an entry (DESIGN CHOICE, log 132). -/
def Readout.reason (i : Readout) : Nat :=
  if i.n > 64 then 2
  else if i.acc + i.n > 64 then 3
  else if i.rows.any (fun r => decide (4095 < r)) then 7
  else if i.tfmt = 7 ∨ (!i.dest ∧ i.tfmt ≠ 0) then 8
  else 0

structure AccClr where
  amask : Nat
  acc   : Nat
  n     : Nat
  deriving DecidableEq, Repr

def AccClr.ofWord (w : Nat) : AccClr := ⟨wf w 0 11 8, wf w 0 17 12, wf w 0 24 18⟩

def AccClr.reason (i : AccClr) : Nat := if i.n > 64 then 2 else if i.acc + i.n > 64 then 3 else 0

/-! ## Sparse MMAs (R192 to R196) -/

def regionFirst (r : Nat) : Nat := bits r 11 0
def regionLast (r : Nat) : Nat := bits r 23 12
def regionMode (r : Nat) : Nat := bits r 25 24
def regionValid (r : Nat) : Bool := bit r 31

/-- The valid region that holds an MMA's A_ROW. -/
def regionOf (regions : List Nat) (aRow : Nat) : Option Nat :=
  regions.find? (fun r => regionValid r && decide (regionFirst r ≤ aRow) && decide (aRow ≤ regionLast r))

/-- An MMA whose A_ROW lies in a valid region. -/
def isSparse (regions : List Nat) (w : Nat) : Bool := mxOp w == 0x40 && (regionOf regions (Mma.ofWord w).aRow).isSome

/-- In-bank rows of one K-block and records per row (R195). -/
def recordsPerRow (wfmt : Nat) : Nat := if wfmt ≤ 2 then 4 else 8
def blockRows (wfmt : Nat) : Nat := if wfmt ≤ 2 then 32 else 16

/-- Row and byte of record k. -/
def recordPlace (wfmt gb k : Nat) : Nat × Nat :=
  let rpr := recordsPerRow wfmt
  let q := k / 16
  (256 * (k % 16) + (gb + q / rpr) % 256, q % rpr * (512 / rpr))

/-- Operand rows of a sparse MMA for the interlocks (R196). -/
def Mma.sparseRows (i : Mma) (region : Nat) : List Nat :=
  if i.idle then []
  else
    let tile := (List.range (regionLast region + 1 - regionFirst region)).map (fun k => regionFirst region + k)
    let n := blockRows i.wfmt
    tile ++ (List.range 16).flatMap (fun b =>
      (List.range n).map (fun k => 256 * b + (i.wRow + n * i.wSrow + k) % 256))

/-- Reasons of R204; 0 where none applies. -/
def Mma.sparseReason (i : Mma) : Nat :=
  if isBlock i.afmt ∨ isBlock i.wfmt then 1
  else if i.m > 16 then 2
  else if i.aSel ≠ 0 ∨ i.wSel ≠ 0 ∨ i.wmode ≠ 0 ∨ i.aSrow ≠ 0 ∨ i.aSi ≠ 0 ∨ i.wSi ≠ 0 then 3
  else if i.wRow > 255 then 4
  else if (if i.wfmt ≤ 2 then 8 else 16) ≤ i.wSrow then 5
  else 0

/-- Rows that a matrix instruction reads, whatever it is. -/
def mxReads (regions : List Nat) (w : Nat) : List Nat :=
  if mxOp w = 0x40 then
    let i := Mma.ofWord w
    match regionOf regions i.aRow with
    | some r => i.sparseRows r
    | none => i.rows
  else []

/-- Rows that it writes. -/
def mxWrites (w : Nat) : List Nat := if mxOp w = 0x48 then (Readout.ofWord w).rows else []

/-! ## Vector instructions (R135, R139, R140, R150) -/

def vxOp (w : Nat) : Nat := wf w 0 7 0
def vxDst (w : Nat) : Nat := wf w 0 11 8
def vxA (w : Nat) : Nat := wf w 0 15 12
def vxB (w : Nat) : Nat := wf w 0 19 16
def vxC (w : Nat) : Nat := wf w 0 23 20
def vxRows (w : Nat) : Nat := wf w 0 28 24
def vxBscal (w : Nat) : Bool := wb w 0 29
def vxScalar (w : Nat) : Nat := wf w 2 31 0
/-- SIDX of VLD and VST. -/
def vxSidx (w : Nat) : Nat := wf w 0 20 16
def vxIrow (w : Nat) : Nat := wf w 1 11 0
def vxFmt (w : Nat) : Nat := wf w 1 14 12
def vxSr (w : Nat) : Bool := wb w 1 15
def vxBrow (w : Nat) : Bool := wb w 1 16
def vxSrow (w : Nat) : Nat := wf w 1 28 17
def vxTag (w : Nat) : TagRef := (wf w 2 5 0, wb w 2 6)
def vxTensor (w : Nat) : Nat := wf w 3 15 0
def vxStride (w : Nat) : Nat := wf w 3 31 16

/-- Inkwell rows of a tile in a format (R140). -/
def tileRows (f : Nat) : Nat := if f = 0 then 8 else if f ≤ 2 then 4 else if f = 7 then 1 else 2

/-- Inkwell row (from IROW) and bit of element (r, c). -/
def tilePlace (f r c : Nat) : Nat × Nat :=
  if f = 0 then (r / 2, 8 * (256 * (r % 2) + 4 * c))
  else if f ≤ 2 then (c / 16, 8 * (32 * r + 2 * (c % 16)))
  else if f = 7 then (0, 8 * (32 * r) + 4 * c)
  else (c / 32, 8 * (32 * r + c % 32))

/-- Bits of an element. -/
def elemBits (f : Nat) : Nat := if f = 0 then 32 else if f ≤ 2 then 16 else if f = 7 then 4 else 8

/-- Scale row (from SROW) and byte of the block of element (r, c) (R141). -/
def tileScale (f sidx r c : Nat) : Nat × Nat :=
  if f = 7 then (0, 32 * sidx + 2 * r + c / 32)
  else ((sidx + c / 32) / 32, 16 * ((sidx + c / 32) % 32) + r)

/-- Scale rows of a block-scaled tile. -/
def tileScaleRows (f sidx srow : Nat) : List Nat :=
  if f = 6 then (if (sidx + 1) / 32 = sidx / 32 then [srow + sidx / 32] else [srow + sidx / 32, srow + sidx / 32 + 1])
  else if f = 7 then [srow]
  else []

/-- Data rows that a VLD reads or a VST writes. A VLD reads the rows that hold the tile rows it loads. -/
def vldRows (w : Nat) : List Nat :=
  let f := vxFmt w
  let n := if vxRows w = 0 then 0 else if f = 0 then (if vxBrow w then 1 else (vxRows w + 1) / 2) else tileRows f
  (List.range n).map (fun k => vxIrow w + k)

def vstRows (w : Nat) : List Nat := if vxRows w = 0 then [] else (List.range (tileRows (vxFmt w))).map (fun k => vxIrow w + k)

def vxScaleRows (w : Nat) : List Nat := if vxRows w = 0 then [] else tileScaleRows (vxFmt w) (vxSidx w) (vxSrow w)

/-- Inkwell rows that a vector instruction reads for the interlocks. -/
def vxReads (w : Nat) : List Nat :=
  if vxOp w = 0x72 then vldRows w ++ vxScaleRows w
  else if vxOp w = 0x78 then (List.range 7).map (fun k => vxIrow w + k)
  else []

/-- Inkwell rows that it writes; the scale row of a VST is read and written back. -/
def vxWrites (w : Nat) : List Nat := if vxOp w = 0x73 then vstRows w ++ vxScaleRows w else []

/-! ## Descriptors (R110, R112) -/

def Desc.localDest (d : Desc) : Bool := d.kind == 0 || d.kind == 2 || d.kind == 4

/-- Local Inkwell row that row i of a descriptor with a local destination writes. -/
def Desc.destRow (d : Desc) (i : Nat) : Nat := d.lrow + i

/-- Local row that row i is read from, for KIND 1, 2 and 3. -/
def Desc.srcRow (d : Desc) (i : Nat) : Nat := if d.kind = 2 then d.xrow + i else d.lrow + i

/-- A range of rows within [lo, hi); a range of no rows lies within any (DESIGN CHOICE, log 134). -/
def within (first n lo hi : Nat) : Bool := n == 0 || (decide (lo ≤ first) && decide (first + n ≤ hi))

/-- Reasons of R112; `rank` is the issuing nib's plot rank. -/
def Desc.reason (d : Desc) (rank : Nat) : Nat :=
  let k := d.kind
  let src := d.srcRow 0
  if 5 ≤ k then 1
  else if d.transpose ∧ (k = 1 ∨ k = 3) then 2
  else if d.transpose ∧ d.es = 0 ∧ d.rows % 2 = 1 then 3
  else if (1 ≤ k ∧ k ≤ 3 ∧ !within src d.rows 0 4096 ∧ !within src d.rows 4096 4608) ∨ (k = 4 ∧ !within d.xrow d.rows 0 4096) then 4
  else if (d.localDest ∧ !within d.lrow d.rows 0 4096) ∨ (k = 3 ∧ !within d.xrow d.rows 0 4096) then 5
  else if d.signal ∧ k ≤ 2 then 6
  else if k ≤ 1 ∧ (bits d.word 136 128 ≠ 0 ∨ bits d.word 191 176 ≠ 0 ∨
      (d.rows ≠ 0 ∧ (d.addr (d.rows - 1) < 0 ∨ 2 ^ 48 ≤ d.addr (d.rows - 1)))) then 7
  else if 3 ≤ k ∧ d.xrank = rank then 8
  else 0

end Sys2Proof.Machine
end

