-- ==== Sys2Proof/Machine/Drain.lean ====
section
/-! DEFINITION. How rows of a descriptor land, are accepted and are signalled, and how a plot drains (R96, R114, R117, R118, R121, R127,
R178). -/

namespace Sys2Proof.Machine

/-- Bytes that a context moved on one path: the ACC counter at `off`, and the recompute counter. -/
def moveBytes (c off n : Nat) (s : State) : State :=
  let s := addPair (regAt .ctx c off) n s
  let s := modCtx c (fun x => { x with tickBytes := x.tickBytes + n }) s
  match (getCtx s c).record with
  | some r => if r.recompute then addPair (regAt .ctx c 0xD0) n s else s
  | none => s

/-! ## Landing (R114, R117, R118) -/

/-- A matrix or vector instruction earlier in program order still has to read row r (R117). The scale row of a VST is read too. -/
def Nib.rowWanted (n : Nib) (seq r : Nat) : Bool :=
  n.mq.any (fun e => decide (e.seq < seq) && (mxReads n.regions e.word).contains r) ||
  n.vq.any (fun e => decide (e.seq < seq) && ((vxReads e.word).contains r || (vxOp e.word == 0x73 && (vxScaleRows e.word).contains r)))

/-- Rows of the block that row i belongs to: one row, or a transpose block of two. -/
def Desc.block (d : Desc) (i : Nat) : List Nat := if d.transpose && d.es == 0 then [i / 2 * 2, i / 2 * 2 + 1] else [i]

/-- Every destination row of row i's block may be written. -/
def Nib.mayLand (n : Nib) (d : Desc) (i : Nat) : Bool := (d.block i).all (fun k => !n.rowWanted d.seq (d.lrow + k))

/-- A row comes to the engine. -/
def holdRow (seq i : Nat) (data : Row) (n : Nib) : Nib :=
  match n.desc? seq with
  | none => n
  | some d => n.setDesc { d with held := tabInsert d.held i data }

/-- The block of row i is written once all its rows have come. -/
def landBlock (seq i : Nat) (n : Nib) : Nib :=
  match n.desc? seq with
  | none => n
  | some d =>
    let ks := d.block i
    let rows := ks.filterMap (tabFind? d.held)
    if rows.length = ks.length then
      let out := if d.transpose then transposeBlock d.es rows else rows
      let n := (ks.zip out).foldl (fun n p => n.writeRow (d.lrow + p.1) p.2) n
      let d := { d with landed := d.landed ++ ks, held := ks.foldl tabErase d.held }
      { n.setDesc d with count := { n.count with dmaIn := n.count.dmaIn + ks.length } }
    else n

/-! ## Acceptance (R114, R178) -/

def winEn (s : State) : Bool := bit (getR s (regAt .litter 0 0x40)) 0

/-- An aperture row is accepted: counted, and kept in the nib's window (R174, R178). -/
def pushRow (nib va : Nat) (data : Row) (s : State) : State :=
  let f := (va - aperture) / 512
  let s := modNib nib (fun n => { n with pushes := n.pushes + 1 }) s
  match winEn s, ctxOfNib s nib with
  | true, some c =>
    let q := match (getCtx s c).lit with
      | some l => l.frameSeq
      | none => 0
    modNib nib (fun n => { n.writeRow (4096 + f % 512) data with slotTag := tabInsert n.slotTag (f % 512) (c, q, f) }) s
  | _, _ => s

/-- A KIND 1 row is accepted by its controller. -/
def acceptWrite (x : Xfer) (s : State) : State :=
  let s := modNib x.nib (markLanded x.seq x.row) (memWriteAs (xferAlloc x) x.place (bytesOfRow x.data) s)
  let s := if aperture ≤ x.addr then pushRow x.nib x.addr x.data s else s
  match ctxOfNib s x.nib with
  | some c => moveBytes c 0xA8 512 s
  | none => s

/-! ## Remote rows and signals (R120, R121) -/

/-- Bytes moved between nibs. -/
def countRemote (nib : Nat) (s : State) : State := match ctxOfNib s nib with
  | some c => moveBytes c 0xB0 512 s
  | none => s

/-- A pushed row is written at the remote nib and acknowledged. -/
def writeRemote (x : Xfer) (s : State) : State :=
  let s := modNib x.place (fun n => { n.writeRow x.addr x.data with count := { n.count with dmaIn := n.count.dmaIn + 1 } }) s
  countRemote x.nib (modNib x.nib (markLanded x.seq x.row) s)

/-- Row i has been read at its source: it has come to the engine or is on its way. -/
def rowServed (s : State) (nib : Nat) (d : Desc) (i : Nat) : Bool :=
  d.landed.contains i || (tabFind? d.held i).isSome ||
  s.canopy.xfers.any (fun x => x.nib == nib && x.seq == d.seq && x.row == i && x.st != .travel && x.st != .req)

/-- Every row that the signal follows is written (push) or read (pull). -/
def signalDue (s : State) (nib : Nat) (d : Desc) : Bool :=
  d.signal && !d.signaled && d.started && !d.failed &&
  (List.range d.rows).all (fun i => if d.kind = 3 then d.landed.contains i else rowServed s nib d i)

/-- Deliver the signal of a push or pull when it is due. -/
def deliverSignal (nib seq : Nat) (s : State) : State :=
  let n := getNib s nib
  match n.desc? seq, ctxOfNib s nib with
  | some d, some c =>
    match signalDue s nib d, nibOfRank (getCtx s c).plot d.xrank with
    | true, some far =>
      let s := modNib nib (fun n => n.setDesc { d with signaled := true }) s
      modNib far (fun n => { n with signals := tabSet 0 n.signals d.sigIdx ((tabGet 0 n.signals d.sigIdx + 1) % 2 ^ 16) }) s
    | _, _ => s
  | _, _ => s

/-! ## Draining -/

/-- A row with a local destination comes in while the plot drains: it is written unless an earlier instruction still has to read its
place, else the engine holds it, with the nib's saved state, and writes it after the plot's return (DESIGN CHOICE, log 160). -/
def settleRow (nib seq i : Nat) (data : Row) (s : State) : State :=
  modNib nib (fun n =>
    let n := holdRow seq i data n
    match n.desc? seq with
    | some d => if n.mayLand d i then landBlock seq i n else n
    | none => n) s

def countOut (n : Nib) : Nib := { n with count := { n.count with dmaOut := n.count.dmaOut + 1 } }

/-- What an error of the replayed class showed: its cause (R425), the logical nib and the row, that of the nib or of HBM (R406). -/
structure Blame where
  cause : Nat
  nib   : Option Nat
  row   : Nat
  deriving DecidableEq, Repr

def Blame.ofCause (cause : Nat) : Blame := ⟨cause, none, 0⟩

def setBlame (b : Blame) (x : Ctx) : Ctx := { x with cause := b.cause, blameNib := b.nib, blameRow := b.row }

/-- A transfer fails while its plot drains: a plot being saved restarts its layer. -/
def failDraining (nib seq : Nat) (b : Blame) (s : State) : State :=
  let s := modNib nib (failDesc seq) s
  match ctxOfNib s nib with
  | some c => modCtx c (fun x => if x.phase = .saving ∧ x.cause = 0 then setBlame b x else x) s
  | none => s

/-- IW_DETECT (R107): the row's physical place counts toward retirement. A row that is retiring in a bank with no redundant row left makes
its nib retiring (R409). -/
def noteIwDetect (c nib row reader : Nat) (s : State) : State :=
  let s := countEvent .inkwell (regAt .inkwell 0 0x44) 31 0 (modNib nib (noteDetect row reader) s)
  let a1 := (getCtx s c).curRec
  let s := raise .inkwell 0 0 ⟨some c, some nib, row + 2 ^ 13 * reader, a1⟩ s
  let p := physOf s nib
  let full : Bool := (freeRedundant s p (row / 256)).isNone
  modPNib p (fun q =>
    let k := tabGet 0 q.detects row + 1
    let due := decide (2 ≤ k) || ((tabFind? q.rowsDue row).getD false)
    { q with
        detects := tabSet 0 q.detects row k, rowsDue := tabInsert q.rowsDue row due
        retiring := q.retiring || (due && full && !q.retired) }) s

/-- A pull whose request has been sent is served while the plot drains: the row lands, or a detection error fails the transfer (R107, R127).
A row whose valid bit is clear faults the context before its plot drains (`stalePull`). -/
def settlePull (x : Xfer) (s : State) : State :=
  match (getNib s x.place).readRow x.addr with
  | .ok d => deliverSignal x.nib x.seq (settleRow x.nib x.seq x.row d (countRemote x.nib (modNib x.place countOut s)))
  | .detect =>
    let s := match ctxOfNib s x.place with
      | some c => noteIwDetect c x.place x.addr 3 s
      | none => s
    failDraining x.nib x.seq ⟨1, some x.place, x.addr⟩ s
  | .stale => modNib x.nib (failDesc x.seq) s

def sameXfer (x y : Xfer) : Bool := x.nib == y.nib && x.seq == y.seq && x.row == y.row

def dropXfer (x : Xfer) (s : State) : State :=
  { s with canopy := { s.canopy with xfers := s.canopy.xfers.filter (fun y => !sameXfer x y) } }

def findXfer (s : State) (nib seq row : Nat) : Option Xfer :=
  s.canopy.xfers.find? (fun x => x.nib == nib && x.seq == seq && x.row == row)

/-- What a read that has been sent is answered while its plot drains: a tag holder is served with every read of its row (R222), another comes
to its bank first. -/
def readDraining (x : Xfer) (s : State) : Option Row × State :=
  match x.st with
  | .tag _ =>
    let s := if x.early.isSome then s else serveReads x.place s
    (((findXfer s x.nib x.seq x.row).bind (fun y => y.early)).join, s)
  | .left _ => (x.early.join, s)
  | _ =>
    let (bad, s) := readRowAt (xferAlloc x) x.place (comeToBank x.place s)
    (if bad = [] then some (rowOfBytes (s.hbm.read x.place 512)) else none, s)

/-- A hint that has been sent is dropped by its controller or fills its line (R124). -/
def settleHint (x : Xfer) (s : State) : State :=
  match x.st with
  | .tag _ => (readDraining x s).2
  | .left _ => s
  | _ => if hintRefused s x.place then s else (readDraining x s).2

/-- One row in flight lands or is accepted (R127), whether or not another row of its descriptor has failed. -/
def settleXfer (x : Xfer) (s : State) : State :=
  match x.kind with
    | .hint => settleHint x s
    | .write => acceptWrite x (comeToBank x.place s)
    | .push => deliverSignal x.nib x.seq (writeRemote x s)
    | .local => settleRow x.nib x.seq x.row x.data s
    | .pull =>
      match x.st with
      | .req => settlePull x s
      | .travel => settlePull x s
      | _ => settleRow x.nib x.seq x.row x.data s
    | .read =>
      match x.st with
      | .flying => settleRow x.nib x.seq x.row x.data s
      | .arrived => settleRow x.nib x.seq x.row x.data s
      | _ =>
        match readDraining x s with
        | (some b, s) =>
          let s := settleRow x.nib x.seq x.row b s
          match ctxOfNib s x.nib with
          | some c => moveBytes c 0xA0 512 s
          | none => s
        | (none, s) => failDraining x.nib x.seq ⟨3, none, x.place / 512⟩ s

/-- Every row of the plot's nibs in flight settles, oldest first, and its flits leave the Canopy. -/
def drainPlot (plot : List Nat) (s : State) : State :=
  let mine (nib : Nat) : Bool := plot.contains (nib / 16)
  let s := forEach (s.canopy.xfers.filter (fun x => mine x.nib)) (fun x s =>
    match findXfer s x.nib x.seq x.row with
    | some y => dropXfer y (settleXfer y s)
    | none => s) s
  { s with canopy := { s.canopy with
      flits := s.canopy.flits.filter (fun f => !mine f.nib) } }

end Sys2Proof.Machine
end

