-- ==== Sys2Proof/Machine/ScribeMath.lean ====
section
/-! DEFINITION. The arithmetic of the Scribe: recurrences, the correction matrix, idle steps, Copperplate programs, gradients and
norms (R244 to R256). FP32 and FP64 values are bit patterns. -/

namespace Sys2Proof.Machine

/-! ## Small helpers -/

/-- n bytes at an offset of a structure, as a number. -/
def fieldOf (b : List Byte) (off n : Nat) : Nat := ofBytes ((b.drop off).take n)

/-- A structure with n bytes at an offset replaced. -/
def putField (b : List Byte) (off n v : Nat) : List Byte := b.take off ++ bytesOf n v ++ b.drop (off + n)

/-- A two's-complement field. -/
def sfieldOf (b : List Byte) (off n : Nat) : Int := signed (8 * n) (fieldOf b off n)

/-- A value times 2^k. -/
def scale2 (v : Num) (k : Int) : Num :=
  match v with
  | .nan => .nan
  | .inf s => .inf s
  | .fin s m e => .fin s m (e + k)

def round64 (v : Num) : Nat := (toFloat fp64L false .ne v).bits
def val64 (b : Nat) : Num := decodeFloat fp64L b

def fin32 (b : Nat) : Bool := (val32 b).isFin
def fin64 (b : Nat) : Bool := (val64 b).isFin

/-- The exact sum of terms, rounded once to FP32; −0 only when every term is −0 (R250). -/
def sum32 : List Num → Nat
  | [] => 0
  | v :: t => round32 (t.foldl addNum v)

/-- +1.0, −1.0, +0 or the canonical NaN (R250, NSEL 3). -/
def signOf (a : Nat) : Nat :=
  match val32 a with
  | .nan => fp32L.nan
  | .inf s => if s then 0xBF80_0000 else 0x3F80_0000
  | .fin s m _ => if m = 0 then 0 else if s then 0xBF80_0000 else 0x3F80_0000

/-! ## Tables (R248, R255) -/

def UpdDesc.word (d : UpdDesc) (k : Nat) : Nat := (d.table.getD k 0).toNat
def UpdDesc.ns (d : UpdDesc) : Nat := if d.copper then bits (d.word 0) 7 6 else bits (d.word 0) 1 0
def UpdDesc.eph (d : UpdDesc) : Nat := bits (d.word 0) 4 2
def UpdDesc.cflag (d : UpdDesc) : Nat := bits (d.word 0) 7 5
def UpdDesc.nsel (d : UpdDesc) : Nat := bits (d.word 0) 9 8
def UpdDesc.lr (d : UpdDesc) : Nat := d.word 1
def UpdDesc.decay (d : UpdDesc) : Nat := d.word 2
def UpdDesc.eps (d : UpdDesc) : Nat := d.word 3
/-- Coefficients with indexes from 0. -/
def UpdDesc.a (d : UpdDesc) (i j : Nat) : Nat := d.word (4 + 3 * i + j)
def UpdDesc.b (d : UpdDesc) (i : Nat) : Nat := d.word (13 + i)
def UpdDesc.c (d : UpdDesc) (i : Nat) : Nat := d.word (16 + i)
/-- State i + 1 is stored. -/
def UpdDesc.stored (d : UpdDesc) (i : Nat) : Bool := decide (i < d.ns) && (d.copper || !bit d.eph i)
/-- Groups of the tensor. -/
def UpdDesc.groups (d : UpdDesc) : Nat := (d.n + 511) / 512
/-- Groups, or list entries, that a tensor's update works through. -/
def UpdTensor.work (t : UpdTensor) : Nat := if t.d.isLazy then t.d.listLen else t.d.groups

/-- Elements of group j. -/
def UpdDesc.inGroup (d : UpdDesc) (j : Nat) : Nat := min 512 (d.n - 512 * j)
/-- Bytes of a gradient element. -/
def UpdDesc.gBytes (d : UpdDesc) : Nat := match d.gfmt with
  | 2 => 2 | 3 => 8 | _ => 4
def UpdDesc.shFmt (d : UpdDesc) : Option Fmt := match d.shfmt with
  | 1 => some .bf16 | 2 => some .fp16 | 3 => some .e5m2 | 4 => some .e4m3 | _ => none
def UpdDesc.shBytes (d : UpdDesc) : Nat := if d.shfmt = 1 ∨ d.shfmt = 2 then 2 else 1
/-- Clipping is enabled: CLIP_MAX is neither +0 nor −0 (R246). -/
def UpdDesc.clips (d : UpdDesc) : Bool := d.clipMax % 2 ^ 31 != 0

/-! ## Matrices in FP64 (R249) -/

abbrev Mat := List (List Nat)

def Mat.at_ (m : Mat) (i j : Nat) : Nat := (m.getD i []).getD j 0
def Mat.build (n : Nat) (f : Nat → Nat → Nat) : Mat := (List.range n).map (fun i => (List.range n).map (f i))
def Mat.all (m : Mat) (p : Nat → Bool) : Bool := List.all m (fun r => r.all p)

def one64 : Nat := 0x3FF0_0000_0000_0000
def mul64 (a b : Nat) : Nat := round64 (mulNum (val64 a) (val64 b))
def fma64 (a b c : Nat) : Nat := round64 (addNum (mulNum (val64 a) (val64 b)) (val64 c))
def neg64 (a : Nat) : Nat := round64 (negNum (val64 a))
def sub64 (a b : Nat) : Nat := round64 (addNum (val64 a) (negNum (val64 b)))

def matMul (n : Nat) (x y : Mat) : Mat :=
  Mat.build n (fun i j =>
    ((List.range n).drop 1).foldl (fun z l => fma64 (x.at_ i l) (y.at_ l j) z) (mul64 (x.at_ i 0) (y.at_ 0 j)))

def matPower (n : Nat) (a : Mat) (t : Nat) : Mat :=
  (List.range 64).foldl (fun r k =>
    let r := matMul n r r
    if bit t (63 - k) then matMul n r a else r) (Mat.build n (fun i j => if i = j then one64 else 0))

/-- The leading NS × NS block of A widened to FP64. -/
def UpdDesc.mat (d : UpdDesc) : Mat := Mat.build d.ns (fun i j => round64 (val32 (d.a i j)))

/-- det and adjugate of m (R249). -/
def detAdj (n : Nat) (m : Mat) : Nat × Mat :=
  match n with
  | 1 => (m.at_ 0 0, [[one64]])
  | 2 => (fma64 (m.at_ 0 0) (m.at_ 1 1) (neg64 (mul64 (m.at_ 0 1) (m.at_ 1 0))),
      [[m.at_ 1 1, neg64 (m.at_ 0 1)], [neg64 (m.at_ 1 0), m.at_ 0 0]])
  | _ =>
    let cof : Mat := Mat.build 3 (fun i j =>
      let i1 := (i + 1) % 3
      let i2 := (i1 + 1) % 3
      let j1 := (j + 1) % 3
      let j2 := (j1 + 1) % 3
      fma64 (m.at_ i1 j1) (m.at_ i2 j2) (neg64 (mul64 (m.at_ i1 j2) (m.at_ i2 j1))))
    (fma64 (m.at_ 0 0) (cof.at_ 0 0) (fma64 (m.at_ 0 1) (cof.at_ 0 1) (mul64 (m.at_ 0 2) (cof.at_ 0 2))),
      Mat.build 3 (fun i j => cof.at_ j i))

/-- K of R249 as FP32 patterns; none where the correction is singular. The quotient is an FP64 operation, rounded to FP64 first. -/
def correction (d : UpdDesc) (t : Nat) : Option Mat :=
  let n := d.ns
  let p := matPower n d.mat t
  let m := Mat.build n (fun i j => if i = j then sub64 one64 (p.at_ i j) else neg64 (p.at_ i j))
  let (det, adj) := detAdj n m
  if !p.all fin64 || !fin64 det || (val64 det).isZero then none
  else
    let k := Mat.build n (fun i j => round32 (val64 (round64 (divNum (val64 (adj.at_ i j)) (val64 det)))))
    if k.all fin32 then some k else none

/-- P of R254 for k idle steps, entries rounded to FP32. -/
def idlePower (d : UpdDesc) (k : Nat) : Mat :=
  let n := d.ns
  let e := Mat.build (n + 1) (fun i j =>
    if i < n ∧ j < n then round64 (val32 (d.a i j))
    else if i = n ∧ j = n then round64 (addNum (.fin false 1 0) (negNum (val32 d.decay)))
    else 0)
  let p := matPower (n + 1) e k
  Mat.build (n + 1) (fun i j => round32 (val64 (p.at_ i j)))

/-! ## One element (R250, R254, R256) -/

/-- A master and its states, FP32 patterns; a state that is not stored is +0. -/
structure Elem where
  p  : Nat
  ms : List Nat
  deriving DecidableEq, Repr

/-- The ordinary update with g; none: left unchanged, since a round32 on the way is not finite: g, an mn, an h, NSEL 2's denominator, n or pn
(R45, R250; log 161). -/
def recurElem (d : UpdDesc) (k : Option Mat) (g : Nat) (x : Elem) : Option Elem :=
  let ns := d.ns
  let gg := mulNum (val32 g) (val32 g)
  let mn := (List.range ns).map (fun i =>
    sum32 ((List.range ns).map (fun j => mulNum (val32 (d.a i j)) (val32 (x.ms.getD j 0))) ++
      [mulNum (val32 (d.b i)) (val32 g), mulNum (val32 (d.c i)) gg]))
  let h := (List.range ns).map (fun i =>
    match k with
    | some k =>
      if bit d.cflag i then sum32 ((List.range ns).map (fun j => mulNum (val32 (k.at_ i j)) (val32 (mn.getD j 0))))
      else mn.getD i 0
    | none => mn.getD i 0)
  let den := fadd (fsqrt (h.getD 1 0)) d.eps
  let n := match d.nsel with
    | 1 => h.getD 0 0
    | 2 => round32 (divNum (val32 (h.getD 0 0)) (val32 den))
    | _ => signOf (h.getD 0 0)
  let pn := sum32 [val32 x.p, negNum (mulNum (val32 d.decay) (val32 x.p)), negNum (mulNum (val32 d.lr) (val32 n))]
  if fin32 pn && fin32 n && fin32 g && (mn ++ h).all fin32 && (d.nsel != 2 || fin32 den) then some ⟨pn, mn⟩ else none

/-- One Copperplate instruction on the registers. -/
def copperStep (d : UpdDesc) (x : List Nat) (w : Nat) : List Nat :=
  let val (sel : Nat) : Nat := if sel < 8 then x.getD sel 0 else d.word (4 + (sel - 8))
  let a := val (bits w 12 8)
  let b := val (bits w 17 13)
  let c := val (bits w 22 18)
  let r := match bits w 3 0 with
    | 0 => fadd a b
    | 1 => fmul a b
    | 2 => ffma a b c
    | 3 => frsqrt a
    | 4 => signOf a
    | 5 => fmaxp a b
    | 6 => fminp a b
    | _ => fsel a b c
  x.set (bits w 6 4) r

def copperElem (d : UpdDesc) (g : Nat) (x : Elem) : Option Elem :=
  let ns := d.ns
  let regs0 := g :: x.p :: ((List.range ns).map (fun i => x.ms.getD i 0) ++ List.replicate (6 - ns) 0)
  let regs := (List.range (bits (d.word 0) 5 0)).foldl (fun r k => copperStep d r (d.word (20 + k))) regs0
  let pn := regs.getD 1 0
  let mn := (List.range ns).map (fun i => regs.getD (2 + i) 0)
  if fin32 pn && mn.all fin32 then some ⟨pn, mn⟩ else none

/-- k idle steps of a lazy group (R254); none where a result is not finite. -/
def idleElem (d : UpdDesc) (pow : Mat) (x : Elem) : Option Elem :=
  let ns := d.ns
  let ms := (List.range ns).map (fun i =>
    if d.stored i then sum32 ((List.range ns).map (fun j => mulNum (val32 (pow.at_ i j)) (val32 (x.ms.getD j 0))))
    else 0)
  let p := round32 (mulNum (val32 (pow.at_ ns ns)) (val32 x.p))
  if fin32 p && ms.all fin32 then some ⟨p, ms⟩ else none

/-- What an update does to one element: the new values, and whether it was left unchanged (R252). -/
structure ElemOut where
  x         : Elem
  unchanged : Bool
  deriving DecidableEq, Repr

/-- One element with its gradient value G (none: not to be updated), loss scale and clip factor. A catch-up that ends finite stays
where the ordinary update leaves the element unchanged (log 30). -/
def updElem (d : UpdDesc) (k : Option Mat) (idle : Option Mat) (ls : Int) (f : Nat) (grad : Option Num) (x : Elem) : ElemOut :=
  let caught := match idle with
    | none => some x
    | some pow => idleElem d pow x
  match caught with
  | none => ⟨x, true⟩
  | some y =>
    match grad with
    | none => ⟨y, true⟩
    | some G =>
      let u := scale2 G (-ls)
      if !u.isFin then ⟨y, true⟩
      else
        let g := round32 (mulNum u (val32 f))
        match (if d.copper then copperElem d g y else recurElem d k g y) with
        | none => ⟨y, true⟩
        | some z => ⟨z, false⟩

/-! ## Gradients and norms (R245, R246) -/

/-- The exact value of a gradient element. -/
def gradValue (gfmt : Nat) (gexp : Int) (raw : Nat) : Num :=
  match gfmt with
  | 2 => decodeFloat bf16L raw
  | 3 =>
    let i := signed 64 raw
    if i = -(2 ^ 63) then .nan else numOfInt i gexp
  | _ => val32 raw

/-- Elements of a byte list, w bytes each. -/
def elemsOf (w : Nat) (b : List Byte) : List Nat := (List.range (b.length / w)).map (fun i => fieldOf b (w * i) w)

/-- A norm sum in progress (R246, R50): the 88-bit sum and NF. A product's SAT_PROD tells nothing of a norm (R55). -/
structure NormSum where
  sum : Int
  nf  : Bool
  deriving DecidableEq, Repr

/-- u × u of one element through R50 from step 2; a zero element contributes 0. -/
def normTerm (anchor ls : Int) (a : NormSum) (G : Num) : NormSum :=
  match scale2 G (-ls) with
  | .nan => { a with nf := true }
  | .inf _ => { a with nf := true }
  | .fin _ m e =>
    if m = 0 then a
    else
      { a with sum := a.sum + (anchorTerm anchor false (m * m) (e + e)).v }

/-- Norm, factor, CLIPPED and NORM_SAT, which tells of a clamp of the total, of a finished sum; none for a non-finite norm (R246). -/
def normOf (clipMax : Nat) (anchor : Int) (a : NormSum) : Option (Nat × Nat × Bool × Bool) :=
  if a.nf then none
  else
    let lim : Int := 2 ^ 63 - 1
    let s := max (-lim) (min lim a.sum)
    let q := round32 (numOfInt s (anchor - 44))
    let norm := fsqrt q
    if !fin32 norm then none
    else if ltNum (val32 clipMax) (val32 norm) then
      some (norm, round32 (divNum (val32 clipMax) (val32 norm)), true, s != a.sum)
    else some (norm, 0x3F80_0000, false, s != a.sum)

/-! ## The update control block (R241, R244) -/

def Ucb.lsExp (b : List Byte) : Int := sfieldOf b 0 2
def Ucb.lsMin (b : List Byte) : Int := sfieldOf b 2 2
def Ucb.lsMax (b : List Byte) : Int := sfieldOf b 4 2
def Ucb.nextStep (b : List Byte) : Nat := fieldOf b 0x10 8

/-- The vote of a step. -/
def Ucb.voteOf (b : List Byte) (step : Nat) : Nat := if fieldOf b 0x18 8 = step then fieldOf b 0x20 4 else 0

def Ucb.setVote (b : List Byte) (step vote : Nat) : List Byte := putField (putField b 0x18 8 step) 0x20 4 vote

/-- The block after a commit. CLEAN_RUN and NEXT_STEP wrap in their fields (DESIGN CHOICE, log 178). -/
def Ucb.commit (b : List Byte) (step : Nat) : List Byte :=
  let run := fieldOf b 0x0C 4 + 1
  let target := fieldOf b 0x08 4
  let full := decide (target ≠ 0) && decide (target ≤ run)
  let ls := if full ∧ Ucb.lsExp b < Ucb.lsMax b then Ucb.lsExp b + 1 else Ucb.lsExp b
  let b := putField (putField b 0 2 (wrap 16 ls)) 0x0C 4 (if full then 0 else run)
  putField (putField b 0x10 8 (step + 1)) 0x28 4 1

/-- LS_FLOOR applies to a skip. -/
def Ucb.atFloor (b : List Byte) : Bool := decide (Ucb.lsExp b ≤ Ucb.lsMin b)

/-- The block after a skip. SKIPPED and NEXT_STEP wrap in their fields (DESIGN CHOICE, log 178). -/
def Ucb.skip (b : List Byte) (step : Nat) : List Byte :=
  let ls := if Ucb.atFloor b then Ucb.lsExp b else Ucb.lsExp b - 1
  let b := putField (putField b 0 2 (wrap 16 ls)) 0x0C 4 0
  putField (putField (putField b 0x10 8 (step + 1)) 0x24 4 (fieldOf b 0x24 4 + 1)) 0x28 4 2

end Sys2Proof.Machine
end

