-- ==== Sys2Proof/Machine/Control.lean ====
section
/-! DEFINITION. What stops, faults, replays or completes a layer, shared by every family (R333 to R337, R404, R405, R417,
R257), and the power states of groves that these use (R348, R351). -/

namespace Sys2Proof.Machine

/-! ## Context registers (R342) -/

def ctxFunc (s : State) (c : Nat) : Nat := getF s (regAt .ctx c 0x44) 3 0
def prioCap (s : State) (c : Nat) : Nat := getF s (regAt .ctx c 0x44) 5 4
def saveGroves (s : State) (c : Nat) : Nat := min 64 (getF s (regAt .ctx c 0x44) 12 6)
def ctxVector (s : State) (c : Nat) : Nat := getF s (regAt .ctx c 0x44) 18 13
def vecEn (s : State) (c : Nat) : Bool := bit (getR s (regAt .ctx c 0x44)) 19
def ctxEn (s : State) (c : Nat) : Bool := bit (getR s (regAt .ctx c 0x40)) 0
def scbVa (s : State) (c : Nat) : Nat := cfgPair s (regAt .ctx c 0x50)
def ucbVa (s : State) (c : Nat) : Nat := cfgPair s (regAt .ctx c 0x58)
def saveVa (s : State) (c : Nat) : Nat := cfgPair s (regAt .ctx c 0x60)

/-- Priority class of the current record under PRIO_CAP (R314). -/
def recPrio (s : State) (c : Nat) : Nat :=
  match (getCtx s c).record with
  | some r => min r.prio (prioCap s c)
  | none => (getCtx s c).lastPrio

/-- Effective priority (R325). -/
def effPrio (s : State) (c : Nat) : Nat :=
  let x := getCtx s c
  if x.st = .ready then
    let age := getF s (regAt .ranger 0 0x44) 7 0
    min 255 (64 * recPrio s c + (if age = 0 then 0 else x.wait / age))
  else 64 * x.lastPrio

def isUrgent (s : State) (c : Nat) : Bool :=
  let u := getF s (regAt .ranger 0 0x44) 15 8
  u != 0 && decide (u ≤ effPrio s c) && (getCtx s c).st == .ready

/-! ## Groves -/

/-- ACLK step of a value in 100 MHz: the next step above (R344, R345). -/
def stepOf (v : Nat) : Nat := (v + 2) / 3

/-- Start a wake (R350, R352): a grove in ENTERING wakes when its entry ends. -/
def wakeGrove (g : Nat) (s : State) : State :=
  let x := getGrove s g
  match x.pw with
  | .entering => setGrove g { x with wanted := true } s
  | .retention => bump (regAt .understory 0 0x64) 15 0 1 (setGrove g { x with pw := .waking, idle := 0 } s)
  | .gated => bump (regAt .understory 0 0x64) 15 0 1 (setGrove g { x with pw := .waking, idle := 0 } s)
  | _ => s

/-- Every nib of a grove changed. -/
def modGroveNibs (g : Nat) (f : Nib → Nib) (s : State) : State :=
  forEach (List.range 16) (fun i s => modNib (16 * g + i) f s) s

/-- A grove loses power: rows and state lost, valid bits clear (R351). -/
def gateGrove (pw : GrovePower) (g : Nat) (s : State) : State :=
  let x := getGrove s g
  if x.pw = .retired then s
  else modGroveNibs g Nib.lost (setGrove g { x with pw := pw, idle := 0, wanted := false, dirty := false } s)

/-- The context that was placed on a grove which another plot still holds, or whose scrub is still owed (R319, R329, R417), if any. -/
def heirOf (s : State) (g : Nat) : Option Nat :=
  (s.ctxs.map (fun p => p.1)).find? (fun d => some d != (getGrove s g).owner && (getCtx s d).plot.contains g)

/-- A grove leaves its plot or its use: it owes a scrub unless it holds nothing (R417), and belongs to no plot until that has ended; a
grove in RETENTION is woken first. -/
def dropGrove (g : Nat) (s : State) : State :=
  let heir := heirOf s g
  let x := { getGrove s g with owner := none }
  match x.pw with
  | .gated => match heir with
    | some d => wakeGrove g (setGrove g { x with owner := heir, step := (getCtx s d).step } s)
    | none => setGrove g x s
  | .retired => modGroveNibs g Nib.lost (setGrove g x s)
  | .retention => wakeGrove g (setGrove g { x with dirty := true } s)
  | .entering => setGrove g { x with dirty := true, wanted := x.wanted || x.retain || heir.isSome } s
  | _ => setGrove g { x with dirty := true } s

/-- Groves of a context's plot that it owns: not those that another plot is still to give up. -/
def heldBy (s : State) (c : Nat) : List Nat := (getCtx s c).plot.filter (fun g => (getGrove s g).owner == some c)

/-- The scrub itself (R417); the grove then goes to the plot that waits for it. -/
def scrubGrove (g : Nat) (s : State) : State :=
  let heir := heirOf s g
  let s := modGroveNibs g Nib.scrubbed
    (modGrove g (fun x => match x.owner, heir with
      | none, some d => { x with dirty := false, owner := heir, step := (getCtx s d).step }
      | _, _ => { x with dirty := false }) s)
  bump (regAt .seedbank 0 0x78) 15 0 1 s

/-- The context gives up its whole plot. -/
def freePlot (c : Nat) (s : State) : State :=
  let x := getCtx s c
  let s := forEach x.plot (fun g s => if (getGrove s g).owner = some c then dropGrove g s else s) s
  modCtx c (fun x => { x with plot := [], step := 9 }) s

/-! ## Scribe roll-back (R257) -/

/-- Write back a pre-image's rows and stamp. -/
def restoreImage (p : PreImage) (s : State) : State :=
  let s := forEach p.rows (fun r s => memWrite r.1 (bytesOfRow r.2) s) s
  match p.stamp with
  | none => s
  | some (a, v) => memWrite a (bytesOf 8 v.toNat) s

/-- Forget that a group was done, so that phase 4 does it again: a commit that was due waits for it. -/
def undoGroup (desc group : Nat) (w : UpdWork) : UpdWork :=
  let undo (p : UpdTensor × Nat) : UpdTensor :=
    if p.2 = desc then { p.1 with done := p.1.done.filter (fun d => d.idx != group), finished := false } else p.1
  let ts := w.tensors.zipIdx.map undo
  { w with tensors := ts, phase := if w.phase = 5 ∧ ts.any (fun t => !t.finished) then 4 else w.phase }

/-- One Scribe restores every pre-image it holds for a context's update layer. -/
def rollScribe (c : Nat) (m : Nat) (s : State) : State :=
  let x := getScribe s m
  let mine := x.pre.filter (fun p => p.ctx == c && !p.circle)
  if mine = [] then s
  else
    let s := forEach mine restoreImage s
    let s := modCtx c (fun y => { y with upd := y.upd.map (fun w => mine.foldl (fun w p => undoGroup p.desc p.group w) w) }) s
    setScribe m { x with pre := x.pre.filter (fun p => p.ctx != c || p.circle), rollbacks := satAdd 16 x.rollbacks 1 } s

/-- A tensor's norm sum begins again. -/
def UpdTensor.clearNorm (t : UpdTensor) : UpdTensor := { t with normSum := 0, normNf := false, normSat := false, normed := [] }

/-- Phase 3 begins again (R257). -/
def restartNorms (w : UpdWork) : UpdWork := { w with tensors := w.tensors.map UpdTensor.clearNorm }

/-- An update layer is pre-empted: in phase 3 a norm sum that is in progress begins again, a complete one stays (R259). -/
def parkNorms (w : UpdWork) : UpdWork :=
  if w.phase = 3 then { w with tensors := w.tensors.map (fun t => if t.normed.length = t.work then t else t.clearNorm) } else w

/-- The Scribes roll back an update layer; a norm phase starts again. -/
def rollback (c : Nat) (s : State) : State :=
  match (getCtx s c).upd with
  | none => s
  | some w =>
    let s := forEach (List.range 8) (rollScribe c) s
    let s := if w.phase = 3 then modCtx c (fun y => { y with upd := y.upd.map restartNorms }) s else s
    raise .scribe 0 6 (.of c 0xFFFF (match (getCtx s c).record with
      | some r => r.step.toNat
      | none => 0)) s

/-- The circle's open step belongs to a context: its owners' Scribes work for it whatever its layers do (R305). -/
def ownsStep (s : State) (c : Nat) : Bool := match s.lig.open_ with
  | some w => w.ctx == c
  | none => false

/-- A context's Scribe work ends: its pre-images are dropped, those of the circle's open step with that step only. -/
def stopScribes (c : Nat) (s : State) : State :=
  let kept (p : PreImage) : Bool := p.ctx != c || (p.circle && ownsStep s c)
  forEach (List.range 8) (fun m s => modScribe m (fun x =>
    { x with pre := x.pre.filter kept, stalled := if x.stalled = some c then none else x.stalled }) s) s

/-- The circle's step ends: the pre-images of the groups that this member owned are dropped. -/
def dropOwned (s : State) : State :=
  forEach (List.range 8) (fun m s => modScribe m (fun x => { x with pre := x.pre.filter (fun p => !p.circle) }) s) s

/-! ## Quiesce, completion word, fault -/

/-- Engine time that a context has used since it was last charged (R339): its layer's array and vector cycles, counted for a recomputed layer too as
such (R181), and Scribe cycles of its update layer or of the open step of its circle. How many there are depends on timing: open amounts (R61;
log 9). -/
def chargeTime (c : Nat) (s : State) : State :=
  let x := getCtx s c
  let t := tabGet EngineTime.zero s.times c
  let cycles (k : Nat) : Nat := (Config.timing (s.free + k)).toNat
  let updates := x.record.any (·.update)
  let strands := x.st == .running && x.record.isSome && !updates
  let scribe := (x.st == .running && updates) || s.lig.open_.any (fun w => w.ctx == c)
  let t := if strands then
      { t with
          used := true, mx := t.mx + cycles 0, vec := t.vec + cycles 1
          rc := if x.record.any (·.recompute) then t.rc + cycles 0 + cycles 1 else t.rc }
    else t
  let t := if scribe then { t with used := true, scribe := t.scribe + cycles 2 } else t
  if strands || scribe then takeFree (takeFree (takeFree { s with times := tabSet EngineTime.zero s.times c t })) else s

/-- Strands stop, the DMA engines drain, nothing is saved (R337, R404 step 1); the engine time up to here is the context's. -/
def quiesce (c : Nat) (s : State) : State :=
  let s := chargeTime c s
  let plot := heldBy s c
  let s := drainPlot plot s
  forEach (plotNibs plot) (fun n s => modNib n Nib.stopped s) s

/-- The 32-byte completion word (R333). -/
def completionBytes (x : Ctx) (r : Record) (code : Nat) : List Byte :=
  let w := code + (if x.rerunDense then 2 ^ 16 else 0) + (if x.missFlag then 2 ^ 17 else 0) +
    min 15 x.replays * 2 ^ 20 + (if x.preempted then 2 ^ 24 else 0)
  bytesOf 4 w ++ bytesOf 4 x.miss ++ bytesOf 8 r.tag.toNat ++ bytesOf 8 (x.seq + 1) ++ bytesOf 4 x.energyAcc ++ bytesOf 4 0

/-- Write the completion word; the answer says whether it could be written (R334). -/
def putCompletion (c code : Nat) (s : State) : Bool × State :=
  let x := getCtx s c
  match x.record with
  | none => (false, s)
  | some r =>
    if r.compl % 32 ≠ 0 ∨ r.compl ≥ 2 ^ 48 then (false, s)
    else
      match vWrite c r.compl (completionBytes x r code) s with
      | (none, s) => (true, modCtx c (fun x => { x with seq := x.seq + 1 }) s)
      | (some (.page va why), s) => (false, ptFault c va why s)
      | (some _, s) => (false, s)

/-- The MSI-X message of a context (R336). -/
def ctxMessage (c : Nat) (s : State) : State :=
  if vecEn s c then sendMsix (ctxFunc s c) (ctxVector s c) s else s

/-- The context enters FAULTED with a code; `wanted` is the code that a word which could not be written would have carried. It is runnable no more
(R330), but for a kill that waits for a slot. -/
def enterFaulted (c code : Nat) (wanted : Nat) (s : State) : State :=
  let x := getCtx s c
  let s := modCtx c (fun x => { x with
      st := .faulted, phase := .none, lastCode := code, lit := none, upd := none,
      ligWait := false, urgent := false, watch := none, woken := false,
      runnable := x.killDue.isSome && x.runnable, lastPrio := recPrio s c }) s
  let s := raise .ranger 0 0 (.of c (code + 2 ^ 16 * wanted) x.curRec) s
  let s := ctxMessage c s
  let retain := match x.record with
    | some r => r.retain
    | none => false
  if retain then modCtx c (fun x => { x with retain := true }) s else freePlot c s

/-- A fault with a completion word (R337). -/
def ctxFault (c code : Nat) (s : State) : State :=
  let x := getCtx s c
  if x.st = .running ∨ x.st = .ready then
    let s := stopScribes c (quiesce c s)
    match putCompletion c code s with
    | (true, s) => enterFaulted c code 0 s
    | (false, s) => enterFaulted c 0x0205 code s
  else s

/-- A fault that writes no completion word: the record could not be read, or reason 7 of R316. -/
def ctxFaultQuiet (c code wanted : Nat) (s : State) : State := enterFaulted c code wanted (stopScribes c (quiesce c s))

/-- A page fault of a layer (R123, R218). -/
def pageFault (c va reason : Nat) (s : State) : State := ctxFault c (0x0200 + reason) (ptFault c va reason s)

/-! ## Replay (R404, R405) -/

def replayLimit (s : State) : Nat := getF s (regAt .seedbank 0 0x40) 3 0

/-- STEP of a context's record. -/
def stepOfCtx (s : State) (c : Nat) : Nat := match (getCtx s c).record with
  | some r => r.step.toNat
  | none => 0

/-- AV_LOST of a discarded attempt (R421): supply dips add nothing, and an attempt that has not begun has lost nothing. -/
def loseAttempt (c cause : Nat) (s : State) : State :=
  let x := getCtx s c
  let t := now s
  let s := takeFree s
  if cause = 4 ∨ x.phase = .starting then s
  else { s with seedbank := { s.seedbank with avLost := s.seedbank.avLost + (t - x.since) * x.plot.length } }

/-- A close layer that waits is replayed: it waits again when its strands have ended again, and a CLOSE that has not been sent waits for that
(R298). -/
def unwait (c : Nat) (s : State) : State :=
  if !(getCtx s c).ligWait then s
  else
    let s := modCtx c (fun x => { x with ligWait := false }) s
    { s with lig := { s.lig with open_ := s.lig.open_.map (fun w =>
      if w.closeSent then w else { w with closing := false, closeReady := false }) } }

/-- A layer whose record has REPLAY = 0 faults in place of its replay (R361, R405). -/
def barReplay (c cause : Nat) (s : State) : State :=
  ctxFault c 0x0302 (raise .seedbank 0 2 (.of c cause (stepOfCtx s c)) (bump (regAt .seedbank 0 0x64) 31 16 1 s))

/-- An error of the replayed class reaches a layer: the plot quiesces and the replay is due, or the context faults. `next` is
the phase that waits for it, `b` what the error showed. A layer whose plot is being saved replays when it next runs (R361), and a suspect one
with REPLAY = 0 waits as the others do and faults when the dip response has ended. The Scribes restore their pre-images whether the layer is
replayed or faults (R257). -/
def replayError (next : Phase) (c : Nat) (b : Blame) (s : State) : State :=
  let x := getCtx s c
  let cause := b.cause
  if x.st ≠ .running then s
  else
    match x.phase with
    | .replaying => s
    | .suspect => s
    | .none => s
    | .saving => if x.cause ≠ 0 then s else modCtx c (setBlame b) (rollback c s)
    | _ =>
      let ok := match x.record with
        | some r => r.replay
        | none => false
      if !ok ∧ next ≠ .suspect then barReplay c cause (rollback c s)
      else if ok ∧ x.replays ≥ replayLimit s then
        let s := bump (regAt .seedbank 0 0x64) 15 0 1 (rollback c s)
        ctxFault c 0x0301 (raise .seedbank 0 1 (.of c cause (stepOfCtx s c)) s)
      else
        let s := loseAttempt c cause (quiesce c s)
        let s := unwait c (rollback c s)
        modCtx c (fun x => { setBlame b x with
          phase := next, started := false, lit := none, vote := 0, miss := if x.dense then x.miss else 0
          missFlag := x.dense && x.missFlag }) s

/-- A replay asked for by an error found in the layer itself, with no row to name. -/
def replayFor (c cause : Nat) (s : State) : State := replayError .replaying c (.ofCause cause) s

/-- A replay for an uncorrectable HBM row. -/
def replayRow (c dpa : Nat) (s : State) : State := replayError .replaying c ⟨3, none, dpa / 512⟩ s

/-! ## Errors found by a nib's readers -/

/-- Where a nib fault points: PC and reason as R422 lays them out, with the layer record's address. -/
def nibNote (s : State) (nib pc reason : Nat) : Note :=
  match ctxOfNib s nib with
  | some c => ⟨some c, some nib, bits pc 13 0 + 2 ^ 16 * reason, (getCtx s c).curRec⟩
  | none => ⟨none, some nib, bits pc 13 0 + 2 ^ 16 * reason, 0⟩

/-- A detection error in a read of a layer: it is replayed. -/
def iwDetect (c nib row reader : Nat) (s : State) : State :=
  replayError .replaying c ⟨1, some nib, row⟩ (noteIwDetect c nib row reader s)

/-- STALE_ROW (R351): the context faults with 0x0108. -/
def staleRow (c nib row reader : Nat) (s : State) : State :=
  let full := crossFull .inkwell s
  let s := countEvent .inkwell (regAt .understory 0 0x68) 31 0 s
  let s := crossOf full .inkwell (raise .understory 0 0 ⟨some c, some nib, row + 2 ^ 13 * reader, (getCtx s c).curRec⟩ s)
  ctxFault c 0x0108 s

/-- A program fault of a nib: counted, raised on its page, the context faults with 0x0100 + n. -/
def nibFault (p : Page) (event n nib pc reason : Nat) (s : State) : State :=
  let s := raise p 0 event (nibNote s nib pc reason) s
  match ctxOfNib s nib with
  | some c => ctxFault c (0x0100 + n) s
  | none => s

/-- A nib may act: its grove is awake and belongs to the plot of a context whose layer runs. -/
def nibRuns (s : State) (nib : Nat) : Bool :=
  (getGrove s (nib / 16)).pw == .awake &&
  match ctxOfNib s nib with
  | some c => (getCtx s c).st == .running && (getCtx s c).phase == .running
  | none => false

/-- The running record of a nib's context. -/
def nibRecord (s : State) (nib : Nat) : Option Record :=
  match ctxOfNib s nib with
  | some c => (getCtx s c).record
  | none => none

end Sys2Proof.Machine
end

