-- ==== Sys2Proof/Machine/LinkCode.lean ====
section
/-! DEFINITION. What a codeword is on the lanes of a port: the RS(544,514) code over 10-bit symbols, and its striping (R266). The code is the one
published for Ethernet, whose field and generator the spec takes as known: PRESUMED, log 123. -/

namespace Sys2Proof.Machine

/-! ## The field of 1,024 elements: x¹⁰ + x³ + 1 -/

/-- Times α. -/
def gfDouble (a : Nat) : Nat := if a < 512 then 2 * a else (2 * a) % 1024 ^^^ 9

/-- A product, over the bits of `b` from the highest on. -/
def gfMul (a b : Nat) : Nat :=
  (List.range 10).foldl (fun r k => let d := gfDouble r; if bit b (9 - k) then d ^^^ a else d) 0

/-- Horner's rule: a polynomial, highest coefficient first, at a point. -/
def gfEval (cs : List Nat) (x : Nat) : Nat := cs.foldl (fun r c => gfMul r x ^^^ c) 0

/-- αᵏ. -/
def gfPow (k : Nat) : Nat := k.repeat gfDouble 1

/-! ## Parity -/

/-- A polynomial times (x + r), highest coefficient first. -/
def polyStep (g : List Nat) (r : Nat) : List Nat :=
  ((g ++ [0]).zip (0 :: g)).map (fun (p : Nat × Nat) => p.1 ^^^ gfMul p.2 r)

/-- The generator: the product of x + αʲ, j = 0 to 29; 31 coefficients. -/
def rsGenerator : List Nat := (List.range 30).foldl (fun g j => polyStep g (gfPow j)) [1]

/-- One step of the division of the message by the generator; `reg` holds the 30 remainder symbols. -/
def rsStep (tail reg : List Nat) (m : Nat) : List Nat :=
  let q := m ^^^ reg.headD 0
  ((reg.drop 1 ++ [0]).zip tail).map (fun (p : Nat × Nat) => p.1 ^^^ gfMul q p.2)

/-- The 30 parity symbols of 514 message symbols. -/
def rsParity (msg : List Nat) : List Nat := msg.foldl (rsStep (rsGenerator.drop 1)) (List.replicate 30 0)

/-! ## Codewords (R266) -/

/-- Codeword control: SEQ, ACK and NAK; bit 19 is 0. -/
def controlBits (seq ack : Nat) (nak : Bool) : Nat := seq % 512 + 2 ^ 9 * (ack % 512) + (if nak then 2 ^ 18 else 0)

/-- The 5,140 payload bits: control in the first 20, ten units after it. -/
def codewordBits (control : Nat) (units : List LinkUnit) : Nat :=
  control % 2 ^ 20 + 2 ^ 20 * ((units.take 10).reverse.foldl (fun v u => 2 ^ 512 * v + u.toNat) 0)

/-- The 544 symbols of a codeword. -/
def codewordSymbols (control : Nat) (units : List LinkUnit) : List Nat :=
  let w := codewordBits control units
  let msg := (List.range 514).map (fun i => bits w (10 * i + 9) (10 * i))
  msg ++ rsParity msg

/-- Symbol i goes on the active lane of rank i mod w, lanes ranked by transmitter lane number: the symbols of each active lane. -/
def stripe (active : Nat) (symbols : List Nat) : List (Nat × List Nat) :=
  let lanes := (List.range 9).filter (fun i => bit active i)
  lanes.zipIdx.map (fun p => (p.1, (symbols.zipIdx.filter (fun q => q.2 % lanes.length == p.2)).map (fun q => q.1)))

/-- What a sent codeword is on the lanes; nothing for any other trace entry. -/
def laneSymbols (o : Out) : List (Nat × List Nat) := match o with
  | .link _ seq ack nak units active => stripe active (codewordSymbols (controlBits seq ack nak) units)
  | .ident _ control units active => stripe active (codewordSymbols control units)
  | _ => []

end Sys2Proof.Machine
end

