-- ==== Sys2Proof/Machine/PortOps.lean ====
section
/-! DEFINITION. Operations of the Drurid ports: lanes, candidate modes, codewords and packets, identity, retrain and drop
(R264 to R280). -/

namespace Sys2Proof.Machine

/-! ## Configuration (R282, R283) -/

def retryLimit (s : State) : Nat := getF s (regAt .links 0 0x40) 19 16
def ownOrdinal (s : State) : Nat := getF s (regAt .links 0 0x40) 11 0
def laneThresh (s : State) : Nat := getF s (regAt .links 0 0x40) 27 20
def maxRate (s : State) (p : Nat) : Nat := getF s (regAt .port p 0x40) 1 0
def minWidth (s : State) (p : Nat) : Nat := getF s (regAt .port p 0x40) 3 2

/-! ## Lanes (R272, R279) -/

/-- Lanes of a 9-bit mask, lowest first. -/
def lanesOf (m : Nat) : List Nat := (List.range 9).filter (fun i => bit m i)
def maskOf (ls : List Nat) : Nat := ls.foldl (fun m i => m ||| 2 ^ i) 0

/-- Transmitter lane number of a receive lane, and back. -/
def laneAt (reversed : Bool) (i : Nat) : Nat := if reversed then 8 - i else i

/-- Lanes of a port that the repair map marks retired: transmit lanes, or receive lanes by receive lane number. -/
def mapLanes (s : State) (p : Nat) (rx : Bool) : Nat :=
  maskOf ((entriesOf s 7).filterMap (fun e => if bits e 3 0 = p ∧ bit e 4 = rx then some (bits e 8 5) else none))

/-- A mask of receive lanes named by transmitter lane number. -/
def reorder (reversed : Bool) (m : Nat) : Nat := maskOf ((lanesOf m).map (laneAt reversed))

/-- The lanes of a direction good at a rate. -/
def Lanes9.goodAt (l : Lanes9) (rate : Nat) : Nat :=
  maskOf ((lanesOf l.good).filter (fun i => !bit l.bad i && !bit (vget 0 l.failed rate) i))

/-- The lowest good lane that stands by: the spare (R264, R272). -/
def Lanes9.standBy (l : Lanes9) (rate : Nat) : Option Nat := (lanesOf (l.goodAt rate)).find? (fun i => !bit l.active i)

/-- Take width w at a rate: the w lowest good lanes, and the next one as the spare (R272). -/
def Lanes9.use (l : Lanes9) (rate w : Nat) : Lanes9 :=
  let ls := lanesOf (l.goodAt rate)
  { l with active := maskOf (ls.take w), spare := ls[w]? }

/-- Retire a lane: where it is active, the spare takes its place if there is one; the next lane that stands by is then the spare (R279). -/
def Lanes9.retire (rate : Nat) (l : Lanes9) (lane : Nat) : Lanes9 :=
  let l := { l with bad := l.bad ||| 2 ^ lane }
  let l := match bit l.active lane, l.spare with
    | true, some k => { l with active := maskOf (k :: (lanesOf l.active).filter (fun i => i != lane)) }
    | _, _ => l
  { l with spare := l.standBy rate }

/-- Lanes not good (R283): retired in service and, once training has found the good ones, every lane not good at the rate. -/
def Lanes9.notGood (l : Lanes9) (rate : Nat) : Nat := if l.known then 511 - l.goodAt rate else l.bad

/-! ## Candidate modes (R273) -/

/-- (rate as MAX_RATE, lanes) in the order of R273. -/
def candidates : List (Nat × Nat) :=
  [(3, 8), (2, 8), (3, 4), (1, 8), (2, 4), (3, 2), (1, 4), (2, 2), (3, 1), (1, 2), (2, 1), (1, 1)]

/-- A candidate that is not skipped. -/
def candOk (s : State) (p : Nat) (x : Port) (c : Nat × Nat) : Bool :=
  decide (c.1 ≤ maxRate s p) && decide (c.1 ≤ x.peerRate) &&
  decide (2 ^ minWidth s p ≤ c.2) && decide (2 ^ x.peerMin ≤ c.2) &&
  decide (c.2 ≤ (lanesOf (x.tx.goodAt c.1)).length) && decide (c.2 ≤ (lanesOf (x.rx.goodAt c.1)).length)

/-- The first candidate from index i on that is not skipped. -/
def nextCand (s : State) (p : Nat) (x : Port) (i : Nat) : Option Nat :=
  (List.range 12).find? (fun k => decide (i ≤ k) && candOk s p x (candidates.getD k (0, 0)))

/-- Payload rate of a mode in units of 28G NRZ x1, for comparing modes (R265). -/
def modeRate (rate width : Nat) : Nat := 2 ^ (rate - 1) * width

/-! ## Events -/

def portEvent (p ev arg : Nat) (s : State) : State :=
  raise .port p ev (.args arg (getPort s p).peer.ordinal) s

/-! ## Cable connectors (R444) -/

/-- The level of CBL_PRSNT# at a connector, as it was last sensed: whether a cable is in (R444; log 124). -/
def setPresent (k : Nat) (b : Bool) (s : State) : State :=
  { s with power := { s.power with cables := vset s.power.cables k { vget Cable.none s.power.cables k with present := b } } }

/-! ## Drop (R277) -/

/-- The 28G NRZ announce pattern on all nine lanes, which a port sends once it is in DETECT (R271). -/
def announce (p : Nat) (s : State) : State := if (getPort s p).st = .detect then emit (.train p 3 511) s else s

/-- State that a drop leaves the port in: DETECT while the device runs and MAX_RATE is nonzero; OFF where the device leaves RUN (reason 5). -/
def downState (s : State) (p : Nat) : PortSt := if s.boot.st = .run ∧ maxRate s p ≠ 0 then .detect else .off

/-- A drop with its reason: ENABLE, buffers, credit and sequence state go; the PEER_ values stay for reading. -/
def dropPort (p why : Nat) (s : State) : State :=
  let x := getPort s p
  let s := setPort p { Port.off with
    st := if why = 5 then .off else downState s p, rate := 0, width := 0, oldRate := x.oldRate, oldWidth := x.oldWidth
    peer := { x.peer with valid := false }, lastDown := why } s
  let s := countEvent .port (regAt .links 0 0x48) 31 16 s
  portEvent p 1 why (announce p s)

/-- The partner a port is linked to, while it is (R277). -/
def linkedPeer (s : State) (p : Nat) : Option Nat :=
  let x := getPort s p
  if x.peer.valid then some x.peer.ordinal else none

/-- The port's own training frames go out on every lane (R272). -/
def sendFrames (p : Nat) (s : State) : State := emit (.train p 0 (maxRate s p)) s

/-! ## Retrain (R278) -/

/-- A packet of lane control. -/
def isControl (pkt : List LinkUnit) : Bool := match pkt with
  | [] => false
  | u :: _ => bits u.toNat 7 0 == 3

/-- A SPARE_ACK of this port. -/
def isAck (u : LinkUnit) : Bool := bits u.toNat 7 0 == 3 && bits u.toNat 135 128 == 2

/-- Transmit lanes whose sparing is outstanding: asked for and still to be answered, or answered and still to be switched (R279). -/
def txSparing (x : Port) : List Nat :=
  (x.txQ.filterMap (fun k => match k with
    | u :: _ => if isAck u then some (bits u.toNat 143 136) else none
    | [] => none)) ++ x.txSwitch.toList.map (fun w => w.1)

/-- Enter RETRAIN from READY or ACTIVE; an outstanding sparing is abandoned with its lane not good (R280). -/
def enterRetrain (p : Nat) (s : State) : State :=
  let x := getPort s p
  if x.st = .ready ∨ x.st = .active then
    let rxBad := maskOf (x.spareOut.toList ++ x.spareQ)
    let txBad := maskOf (txSparing x)
    let s := setPort p { x with
      st := .retrain, train := .negotiate, wasActive := x.st == .active, spareOut := none, spareQ := [], rxSwitch := none
      txSwitch := none, txQ := x.txQ.filter (fun k => !isControl k)
      rx := { x.rx with bad := x.rx.bad ||| rxBad }, tx := { x.tx with bad := x.tx.bad ||| txBad } } s
    portEvent p 2 7 (countEvent .port (regAt .port p 0xA0) 31 16 (sendFrames p s))
  else s

/-! ## Retiring a lane (R279) -/

/-- LANE_SPARED: the retirement of a transmit lane, or of a receive lane by receive lane number, enters the repair map. -/
def noteLane (p : Nat) (rx : Bool) (lane : Nat) (s : State) : State :=
  let s := portEvent p 3 (lane + (if rx then 16 else 0)) s
  mapAdd (mapEntry 7 (p + (if rx then 16 else 0) + 32 * lane)) s

/-! ## Packets (R266, R267, R270) -/

def unitByte (u : LinkUnit) (i : Nat) : Nat := bits u.toNat (8 * i + 7) (8 * i)
def unitOfBytes (b : List Byte) : LinkUnit := BitVec.ofNat 512 (ofBytes b)
def bytesOfUnit (u : LinkUnit) : List Byte := bytesOf 64 u.toNat

/-- A header unit: TYPE, UNITS, CREDIT 0, bytes 16 to 63. -/
def headerUnit (type units : Nat) (rest : List Byte) : LinkUnit :=
  unitOfBytes (bytesOf 1 type ++ bytesOf 1 units ++ List.replicate 14 0 ++ rest.take 48)

def withCredit (n : Nat) (u : LinkUnit) : LinkUnit :=
  BitVec.ofNat 512 (putBits u.toNat 31 16 n)

/-- A lane-control packet (R279): SPARE_REQ is op 1, SPARE_ACK op 2; R267 leaves the layout open (log 122). -/
def controlUnit (op lane at_ : Nat) : LinkUnit := headerUnit 3 0 (bytesOf 1 op ++ bytesOf 1 lane ++ bytesOf 2 at_ ++ List.replicate 44 0)

/-- A lane-control packet is the next one to go. -/
def queueControl (p : Nat) (u : LinkUnit) (s : State) : State := modPort p (fun x => { x with txQ := [u] :: x.txQ }) s

/-- Units leave the receive buffer and are owed to the partner. -/
def owe (n : Nat) (x : Port) : Port := { x with owed := x.owed + n }

/-- A whole packet is delivered (R269, R271): READY discards TYPE 1 packets; the receive buffer keeps them in ACTIVE, and TYPE 2 packets that
come after IDENTIFY say nothing new. -/
def deliver (p : Nat) (pkt : List LinkUnit) (s : State) : State :=
  let type := match pkt with
    | [] => 0
    | u :: _ => unitByte u 0
  let s := addPair (regAt .port p 0x98) pkt.length s
  let x := getPort s p
  if type = 1 then
    (if x.st = .active then setPort p { x with rxBuf := x.rxBuf ++ [pkt] } s
     else bump (regAt .port p 0x8C) 31 16 1 (setPort p (owe pkt.length x) s))
  else setPort p (owe pkt.length x) s

/-- One unit of an accepted codeword. The CREDIT of a header counts also where the header is discarded (DESIGN CHOICE, log 171). -/
def takeUnit (p : Nat) (u : LinkUnit) (s : State) : State :=
  let x := getPort s p
  if x.rxLeft = 0 then
    let type := unitByte u 0
    let units := unitByte u 1
    let x := { x with credit := x.credit + bits u.toNat 31 16 }
    if type > 3 ∨ units > 16 then
      bump (regAt .port p 0x8C) 15 0 1 (setPort p (owe (1 + units) { x with rxLeft := units, rxDrop := true, rxPart := [] }) s)
    else if type = 0 then setPort p x s
    else if units = 0 then deliver p [u] (setPort p x s)
    else setPort p { x with rxLeft := units, rxDrop := false, rxPart := [u] } s
  else
    let left := x.rxLeft - 1
    let pkt := if x.rxDrop then [] else x.rxPart ++ [u]
    let s := setPort p { x with rxLeft := left, rxPart := if left = 0 then [] else pkt } s
    if left = 0 ∧ !x.rxDrop then deliver p pkt s else s

/-- A packet's header leaves: a SPARE_ACK names the codeword 8 ahead of the one that carries it, and the lane set changes there (R279, log 50). -/
def nameSwitch (x : Port) (h : LinkUnit) : LinkUnit × Port :=
  if isAck h then
    let lane := bits h.toNat 143 136
    let at_ := (x.seq + 8) % 512
    (controlUnit 2 lane at_, { x with txSwitch := some (lane, at_) })
  else (h, x)

/-- The n units that the next new codeword carries: the packet in hand, then queued packets for which credit is held, then idle
units. -/
def fillUnits : Nat → Port → List LinkUnit × Port
  | 0, x => ([], x)
  | n + 1, x =>
    match x.txPart with
    | u :: t =>
      let (us, y) := fillUnits n { x with txPart := t }
      (u :: us, y)
    | [] =>
      match x.txQ with
      | [] =>
        let (us, y) := fillUnits n { x with owed := 0 }
        (withCredit x.owed 0 :: us, y)
      | pkt :: q =>
        if pkt.length ≤ x.credit then
          match pkt with
          | [] => fillUnits n { x with txQ := q }
          | h :: t =>
            let (h, x) := nameSwitch x h
            let (us, y) := fillUnits n { x with txQ := q, txPart := t, credit := x.credit - pkt.length, owed := 0 }
            (withCredit x.owed h :: us, y)
        else
          let (us, y) := fillUnits n { x with owed := 0 }
          (withCredit x.owed 0 :: us, y)

/-- A transmit lane set that changes at the codeword about to be sent (R279). -/
def txSwitchNow (x : Port) : Port :=
  match x.txSwitch with
  | some (lane, at_) => if x.seq = at_ then { x with tx := x.tx.retire x.rate lane, txSwitch := none } else x
  | none => x

/-- The transmitter sends the training pattern on a spare that has come to stand by (R279). -/
def sparePattern (p : Nat) (old new : Option Nat) (s : State) : State := match new with
  | some k => if old = some k then s else emit (.train p 2 k) s
  | none => s

/-- Send one codeword: a resend, over the lanes of its number, or a new one while fewer than 256 are unacknowledged (R268, R279). When the port
has sent what it had taken after ENABLE was cleared, it enters READY (R277). -/
def sendCodeword (p : Nat) (s : State) : State :=
  let x := getPort s p
  if 0 < x.resend then
    match x.replayBuf[x.replayBuf.length - x.resend]? with
    | none => s
    | some c =>
      let buf := x.replayBuf.set (x.replayBuf.length - x.resend) { c with resent := c.resent + 1 }
      emit (.link p c.seq x.ack x.nak c.units c.lanes) (setPort p { x with replayBuf := buf, resend := x.resend - 1 } s)
  else if x.replayBuf.length < 256 then
    let old := x.tx.spare
    let x := txSwitchNow x
    let (us, y) := fillUnits 10 x
    let sent := x.txPart.length + (x.txQ.take (x.txQ.length - y.txQ.length)).foldl (fun n k => n + k.length) 0 - y.txPart.length
    let y := { y with
      seq := (x.seq + 1) % 512, replayBuf := y.replayBuf ++ [⟨x.seq, us, 0, x.tx.active⟩]
      st := if y.st = .active ∧ !y.enable ∧ y.txQ = [] ∧ y.txPart = [] then .ready else y.st }
    addPair (regAt .port p 0x90) sent (emit (.link p x.seq x.ack x.nak us x.tx.active) (sparePattern p old x.tx.spare (setPort p y s)))
  else s

/-- The codewords that are left when the one numbered `ack` and those before it are acknowledged. -/
def ackedTo (ack : Nat) (buf : List SentCw) : List SentCw := match buf.findIdx? (fun e => e.seq == ack) with
  | some i => buf.drop (i + 1)
  | none => buf

/-- ACK of a codeword of the link (R268). A partner that sends one has left IDENTIFY, so it has all the codewords of this port's IDENTIFY (log 122). -/
def dropAcked (p : Nat) (cw : Codeword) (s : State) : State :=
  modPort p (fun x =>
    let buf := ackedTo cw.ack.val x.replayBuf
    { x with replayBuf := buf, resend := min x.resend buf.length, idBuf := [] }) s

/-- ACK and NAK of a codeword received good (R268). A resend is a resend of every codeword after ACK, so the oldest has been resent most: once it
has been RETRY_LIMIT times and is asked for again, the port enters RETRAIN. -/
def takeAck (p : Nat) (cw : Codeword) (s : State) : State :=
  let s := dropAcked p cw s
  let x := getPort s p
  let buf := x.replayBuf
  if cw.nak ∧ buf ≠ [] ∧ x.resend = 0 then
    (if buf.any (fun e => decide (retryLimit s ≤ e.resent)) then enterRetrain p s else setPort p { x with resend := buf.length } s)
  else s

/-- A receive lane set that changes from the codeword that is due now (R279). -/
def rxSwitchNow (p : Nat) (s : State) : State :=
  let x := getPort s p
  match x.rxSwitch with
  | some (lane, at_) =>
    if (x.ack + 1) % 512 = at_ then setPort p { x with rx := x.rx.retire x.rate lane, rxSwitch := none, spareOut := none } s else s
  | none => s

/-! ## Identity (R274 to R276) -/

/-- The 4 KiB identity block. -/
def identBlock (s : State) (p : Nat) (own peer : List Byte) : List Byte :=
  let body := bytesOf 2 1 ++ bytesOf 2 (ownOrdinal s) ++ bytesOf 1 p ++ bytesOf 3 0 ++ bytesOf 8 s.fuses.serial.toNat ++ own ++
    peer ++ List.replicate 48 0 ++ (s.fuses.identKey ++ List.replicate 1793 0).take 1793 ++ List.replicate 7 0
  let sig := (Config.identSign s.free body).take 1536
  body ++ bytesOf 2 sig.length ++ sig ++ List.replicate (1536 - sig.length) 0 ++ List.replicate 630 0

def nonceBytes (n : BitVec 256) : List Byte := bytesOf 32 n.toNat

/-- A TYPE 2 packet (R274). -/
def identPacket (payload : List Byte) : List LinkUnit :=
  let n := (payload.length + 63) / 64
  headerUnit 2 n [] :: (List.range n).map (fun k => unitOfBytes ((payload.drop (64 * k)).take 64))

/-- A codeword of IDENTIFY as it goes out now. -/
def emitIdent (p : Nat) (e : SentCw) (s : State) : State :=
  let x := getPort s p
  emit (.ident p (controlBits e.seq (x.idAck.getD 511) x.idNak) e.units e.lanes) s

/-- The next codeword of IDENTIFY, up to ten units filled with idle ones. An IDENTIFY numbers its codewords from 0, since a retrain keeps the
link's SEQ, ACK and replay buffer for after it (R278; DESIGN CHOICE, log 122). -/
def sendIdent (p : Nat) (us : List LinkUnit) (s : State) : State :=
  let x := getPort s p
  let cw : SentCw := ⟨x.idSeq, (us ++ List.replicate 10 0).take 10, 0, x.tx.active⟩
  addPair (regAt .port p 0x90) us.length (setPort p { x with idSeq := (x.idSeq + 1) % 512, idBuf := x.idBuf ++ [cw] } (emitIdent p cw s))

/-- Units go out ten to a codeword; `fuel` bounds the codewords. -/
def emitUnits (p : Nat) : Nat → List LinkUnit → State → State
  | 0, _, s => s
  | fuel + 1, us, s => if us = [] then s else emitUnits p fuel (us.drop 10) (sendIdent p (us.take 10) s)

/-- Units of the identity packets that may go now. In a retrain, which keeps the credit of the link, a packet goes only where credit is held for all
its units, which it takes, and its header returns what is owed (R270); a first IDENTIFY comes before the grant. -/
def takeIdQ : List (List LinkUnit) → Port → List LinkUnit × Port
  | [], x => ([], { x with idQ := [] })
  | [] :: q, x => takeIdQ q x
  | (h :: t) :: q, x =>
    if x.st ≠ .retrain then
      let (us, y) := takeIdQ q x
      (h :: t ++ us, y)
    else if x.credit < t.length + 1 then ([], { x with idQ := (h :: t) :: q })
    else
      let (us, y) := takeIdQ q { x with credit := x.credit - (t.length + 1), owed := 0 }
      (withCredit x.owed h :: t ++ us, y)

/-- Identity packets go out, in seven codewords at most, or wait for credit. -/
def sendPackets (p : Nat) (pkts : List (List LinkUnit)) (s : State) : State :=
  let x := getPort s p
  let (us, y) := takeIdQ (x.idQ ++ pkts) x
  emitUnits p 7 us (setPort p y s)

/-- The fresh nonce: one packet of one unit. -/
def sendNonce (p : Nat) (n : BitVec 256) (s : State) : State := sendPackets p [identPacket (nonceBytes n)] s

/-- The identity block: four packets of sixteen units. -/
def sendBlock (p : Nat) (b : List Byte) (s : State) : State :=
  sendPackets p ((List.range 4).map (fun k => identPacket ((b.drop (1024 * k)).take 1024))) s

/-- Begin IDENTIFY: a fresh nonce goes out. -/
def beginIdentify (p : Nat) (s : State) : State :=
  let n := Config.nonce s.free
  let s := modPort p (fun x =>
    { x with
        nonceOut := some n, nonceIn := none, idBytes := [], idPart := [], idLeft := 0, hold := false,
        idSeq := 0, idAck := none, idNak := false, idBuf := [], idQ := [],
        st := if x.st = .retrain then .retrain else .identify, train := .identify }) s
  sendNonce p n (takeFree s)

/-- Units of an identity packet leave the receive buffer at once; those of a first IDENTIFY were sent without credit (R270). -/
def oweIdent (p n : Nat) (s : State) : State := modPort p (fun x => if x.st = .identify then x else owe n x) s

/-- A TYPE 2 packet that arrives in IDENTIFY: one payload unit is the nonce, which is answered with the block; sixteen are a
quarter of the partner's block (log 29). -/
def takeIdent (p : Nat) (pkt : List LinkUnit) (s : State) : State :=
  let s := addPair (regAt .port p 0x98) pkt.length (oweIdent p pkt.length s)
  let x := getPort s p
  match pkt with
  | [h, u] =>
    if unitByte h 0 = 2 ∧ unitByte h 1 = 1 then
      let n : BitVec 256 := BitVec.ofNat 256 u.toNat
      let s := setPort p { x with nonceIn := some n } s
      match x.nonceOut with
      | some o => takeFree (sendBlock p (identBlock s p (nonceBytes o) (nonceBytes n)) s)
      | none => s
    else s
  | h :: us =>
    if unitByte h 0 = 2 ∧ unitByte h 1 = 16 ∧ x.idBytes.length < 4096 then
      setPort p { x with idBytes := x.idBytes ++ us.flatMap bytesOfUnit } s
    else s
  | [] => s

/-- Packets among the units of an identity codeword, whose parts may span codewords. A header with a reserved TYPE or UNITS above 16 is
discarded with the units it announces, and counted (R267): `idPart` stays empty meanwhile. A header's CREDIT counts (R270, log 171). -/
def identUnit (p : Nat) (u : LinkUnit) (s : State) : State :=
  let x := getPort s p
  if x.idLeft = 0 then
    let units := unitByte u 1
    let x := { x with credit := x.credit + bits u.toNat 31 16 }
    if unitByte u 0 > 3 ∨ units > 16 then
      bump (regAt .port p 0x8C) 15 0 1 (oweIdent p (1 + units) (setPort p { x with idLeft := units, idPart := [] } s))
    else if unitByte u 0 = 0 then setPort p x s
    else if units = 0 then takeIdent p [u] (setPort p x s)
    else setPort p { x with idLeft := units, idPart := [u] } s
  else
    let pkt := if x.idPart = [] then [] else x.idPart ++ [u]
    if x.idLeft = 1 then takeIdent p pkt (setPort p { x with idLeft := 0, idPart := [] } s)
    else setPort p { x with idLeft := x.idLeft - 1, idPart := pkt } s

/-- SEQ is that of the codeword of IDENTIFY that is due: the one after the last good one (R268); before any, whichever comes, or, where one has come
uncorrectable, number 0. -/
def identDue (x : Port) (seq : Nat) : Bool := match x.idAck with
  | some a => seq == (a + 1) % 512
  | none => !x.idNak || seq == 0

/-- A good codeword of the partner's IDENTIFY, which this port may have left before it: those it acknowledges are forgotten, and with NAK the others
go out again; its units are taken where it is the one that is due (R268), and packets go that waited for the credit it brings. -/
def identCodeword (p : Nat) (cw : Codeword) (s : State) : State :=
  let x := getPort s p
  let x := { x with idBuf := ackedTo cw.ack.val x.idBuf }
  let s := setPort p x s
  let s := if cw.nak then forEach x.idBuf (emitIdent p) s else s
  if identDue x cw.seq.val then
    sendPackets p [] (forEach cw.units.toList (identUnit p) (modPort p (fun x => { x with idAck := some cw.seq.val, idNak := false }) s))
  else s

/-- An uncorrectable codeword of IDENTIFY: NAK, in one codeword of idle units (log 35). -/
def identLost (p : Nat) (s : State) : State := sendIdent p [] (modPort p (fun x => { x with idNak := true }) s)

/-- A good codeword of a partner that has left IDENTIFY before this port: what it acknowledges is forgotten; it is discarded, to be sent again once
this port takes the link's codewords, which NAK says from then on (R268); while a codeword of IDENTIFY is due again, that is said again. -/
def earlyCodeword (p : Nat) (cw : Codeword) (s : State) : State :=
  let lost := (getPort s p).idNak
  let s := modPort p (fun x => { x with nak := true }) (dropAcked p cw s)
  if lost then sendIdent p [] s else s

/-- The block is accepted: it answers this port's nonce and its signature verifies (R274). -/
def blockOk (x : Port) : Bool :=
  let b := x.idBytes
  let at_ (off n : Nat) : List Byte := (b.drop off).take n
  match x.nonceOut with
  | none => false
  | some n =>
    (at_ 0x30 32 == nonceBytes n) &&
    Config.falconVerify (at_ 0x80 1793) (b.take 0x788) (at_ 0x78A (min 1536 (ofBytes (at_ 0x788 2))))

/-- What an accepted block says of the partner. -/
def peerOf (b : List Byte) : Peer :=
  ⟨true, shake256 ((b.drop 0x80).take 1793), ofBytes ((b.drop 2).take 2) % 4096, ofBytes ((b.drop 4).take 1) % 16,
    ofBytes ((b.drop 8).take 8)⟩

/-- The port enters READY with a partner (R276): restrictions, PORT_UP, first credit. The link numbers its codewords from 0, and ACK is 511 before
the first (DESIGN CHOICE, log 172); NAK stays where a codeword of the link came before. The codewords of IDENTIFY are kept until the partner
has them. -/
def enterReady (p : Nat) (peer : Peer) (s : State) : State :=
  let own := shake256 s.fuses.identKey
  let loop := peer.digest == own
  let clash := !loop && peer.ordinal == ownOrdinal s
  let s := modPort p (fun x =>
    { x with
        st := .ready, peer := peer, loopback := loop, clash := clash, seq := 0, ack := 511, replayBuf := [],
        resend := 0, credit := 4096, owed := 0, nonceOut := none, nonceIn := none, idBytes := [], idPart := [],
        idLeft := 0, idQ := [], rxPart := [], rxLeft := 0, laneErr := [] }) s
  let s := countEvent .port (regAt .port p 0xA0) 15 0 s
  let s := portEvent p 0 5 s
  let s := sparePattern p none (getPort s p).tx.spare s
  let s := if loop then portEvent p 7 5 s else s
  if clash then portEvent p 6 5 s else s

/-- A retrain ends with the partner's digest and ordinal unchanged; its port and serial are recorded anew (R274). The port returns to the state
it left, READY if ENABLE was cleared meanwhile, and resends what is unacknowledged over the new lanes (R278, R280), each codeword's resends
counted anew (log 153).
The spare carries the training pattern again (R279). -/
def endRetrain (p : Nat) (peer : Peer) (s : State) : State :=
  let s := modPort p (fun x =>
    { x with
        peer := peer, idQ := [], st := if x.wasActive && x.enable then .active else .ready, resend := x.replayBuf.length
        replayBuf := x.replayBuf.map (fun e => { e with resent := 0, lanes := x.tx.active }),
        nonceOut := none, nonceIn := none, idBytes := [], idPart := [], idLeft := 0 }) s
  sparePattern p none (getPort s p).tx.spare s

/-- Symbol errors of one codeword, per receive lane (R279). -/
def countSymErrs (p : Nat) (errs : Vector Nat 9) (s : State) : State :=
  modPort p (fun x =>
    { x with laneErr := (List.range 9).foldl (fun t i => tabSet 0 t i (min (2 ^ 32 - 1) (tabGet 0 t i + vget 0 errs i))) x.laneErr }) s

end Sys2Proof.Machine
end

