-- ==== Sys2Proof/Machine/Ranger.lean ====
section
/-! DEFINITION. The Ranger: layer records, placement, dispatch passes, tokens, clocks and swapping (R314 to R331, R339). -/

namespace Sys2Proof.Machine

/-! ## Layer records (R314 to R316, R455) -/

def parseRecord (va : Nat) (b : List Byte) : Record :=
  let flags := fieldOf b 0x33 1
  let ops := fieldOf b 0x3C 1
  { va := va, next := fieldOf b 0 8, prog := fieldOf b 0x08 8, anchor := fieldOf b 0x10 8, compl := fieldOf b 0x18 8,
    step := BitVec.ofNat 64 (fieldOf b 0x20 8), grid := bits (fieldOf b 0x28 4) 24 0, energy := fieldOf b 0x2C 4,
    plotMin := fieldOf b 0x30 1, plotMax := fieldOf b 0x31 1, prio := fieldOf b 0x32 1 % 4,
    recompute := bit flags 0, pred := bit flags 1, replay := bit flags 2, retain := bit flags 3, update := bit flags 4,
    irq := bit flags 5, spatter := fieldOf b 0x34 2, litSeg := fieldOf b 0x36 2, litRows := bits (fieldOf b 0x38 4) 30 0,
    litOp := bits ops 1 0, ligOp := bits ops 3 2, sample := fieldOf b 0x40 2, rerun := fieldOf b 0x42 2,
    updCount := fieldOf b 0x44 2, ligMark := fieldOf b 0x46 2, updList := fieldOf b 0x48 8,
    tag := BitVec.ofNat 64 (fieldOf b 0x50 8) }

/-- An address aligned to `al` with bits 63:48 zero. -/
def vaOk (va al : Nat) : Bool := va % al == 0 && decide (va < 2 ^ 48)

/-- The address fields of a record are aligned, with bits 63:48 zero (R238, R316). UPD_LIST of an update or open layer is checked under R261
(log 24). -/
def addressesOk (r : Record) : Bool :=
  vaOk r.next 256 && vaOk r.prog 64 && vaOk r.anchor 64 && vaOk r.compl 32 && (r.update || r.ligOp == 1 || vaOk r.updList 128)

/-- Reasons 1 to 4 of R316, lowest first; 0 where none applies. -/
def recordReason (s : State) (c : Nat) (r : Record) : Nat :=
  let sg := saveGroves s c
  if !addressesOk r then 1
  else if r.energy = 0 ∨ (!r.update ∧ r.grid > 2 ^ 24) then 2
  else if !r.update ∧ (r.plotMin = 0 ∨ r.plotMax < r.plotMin ∨ r.plotMax > 64 ∨ r.plotMin > availCount s ∨
      (sg ≠ 0 ∧ r.plotMin > sg)) then 3
  else if r.update ∧ (r.litOp ≠ 0 ∨ r.pred ∨ r.ligOp ≠ 0) then 4
  else 0

/-- The image header's five words (R315). -/
def parseHeader (b : List Byte) : Vector Nat 5 :=
  #v[fieldOf b 0 4, fieldOf b 4 4, fieldOf b 8 4, fieldOf b 12 4, fieldOf b 16 4]

/-- Reason 5 of R316. -/
def headerBad (h : Vector Nat 5) : Bool :=
  decide (h[0] % 4 ≠ 0) || decide (h[0] < 4) || decide (16384 < h[0]) || decide (8192 < h[1]) || decide (h[2] % 4 ≠ 0) ||
  decide (8192 < h[3]) || decide (8192 < h[2] + h[3]) ||
  (bit h[4] 31 && (decide (bits h[4] 12 0 % 64 ≠ 0) || decide (8192 < bits h[4] 12 0 + 64)))

/-- Translate every page of a range for reading; the first fault, if any. -/
def probeRead (c va n : Nat) (s : State) : Option VErr × State :=
  (pieces (2 ^ 21) va n).foldl (fun (acc : Option VErr × State) p =>
    match acc with
    | (some e, s) => (some e, s)
    | (none, s) =>
      match translate c p.1 false s with
      | (.inr r, s) => (some (.page p.1 r), s)
      | (.inl _, s) => (none, s)) (none, s)

/-- A record that has been read: the context's new work, nothing dispatched. -/
def loadRecord (r : Record) (x : Ctx) : Ctx :=
  { x with
    st := .ready, curRec := r.va, record := some r, watch := none, woken := false, runnable := false, wait := 0,
    phase := if x.phase = .saving then .saving else .none, started := false, opened := false, replays := 0,
    cause := 0, blameNib := none, blameRow := 0, preempted := false, dense := false, rerunDense := false, miss := 0,
    missFlag := false, vote := 0, drawn := 0, energyAcc := 0, lit := none, upd := none, ligWait := false }

/-- RECORD_INVALID (R316): the reason is in ARG0 31:16 (log 25). Reason 6 faults with the page-fault code, reason 7 writes no
word, every other with 0x0112; no word goes to a COMPL_VA that reason 1 refuses (log 36). -/
def refuseRecord (c reason : Nat) (err : Option VErr) (s : State) : State :=
  let code := match err with
    | some (.page _ r) => if reason = 7 then 0x0205 else 0x0200 + r
    | _ => 0x0112
  let s := match err with
    | some (.page va r) => ptFault c va r s
    | _ => s
  let s := raise .ranger 0 1 (.of c (code + 2 ^ 16 * reason) (getCtx s c).curRec) s
  let noWord : Bool := match (getCtx s c).record with
    | some r => reason == 1 && !vaOk r.compl 32
    | none => false
  if reason = 7 then ctxFaultQuiet c 0x0205 0x0112 s
  else if noWord then ctxFaultQuiet c code 0 s
  else ctxFault c code s

/-- Reason 7 of R316. -/
def checkCompl (c : Nat) (r : Record) (s : State) : State :=
  match translate c r.compl true s with
  | (.inr why, s) => refuseRecord c 7 (some (.page r.compl why)) s
  | (.inl _, s) => s

/-- The image header has been read: the rest of the acceptance checks. -/
def checkImage (c : Nat) (r : Record) (hb : List Byte) (s : State) : State :=
  let h := parseHeader hb
  let s := modCtx c (fun x => { x with image := h }) s
  if headerBad h then refuseRecord c 5 none s
  else
    match probeRead c r.prog (0x40 + h[0] + h[1]) s with
    | (some e, s) => refuseRecord c 6 (some e) s
    | (none, s) =>
      match (if h[3] = 0 then (none, s) else probeRead c r.anchor h[3] s) with
      | (some e, s) => refuseRecord c 6 (some e) s
      | (none, s) => checkCompl c r s

/-- The Ranger reads the record at `va` (R314, R316, R455): the context is READY, or it faults. A record address that is not 256-byte aligned is
reason 1 with no word (log 26). R316 exempts no kind of layer: an update layer's image is checked too, though no nib runs it (log 36). -/
def readRecord (c va : Nat) (s : State) : State :=
  let s := modCtx c (fun x => { x with curRec := va, watch := none, woken := false, runnable := false }) s
  if !vaOk va 256 then
    let s := raise .ranger 0 1 (.of c (0x0112 + 2 ^ 16 * 1) va) s
    ctxFaultQuiet c 0x0112 0 (modCtx c (fun x => { x with record := none }) s)
  else
    match vRead c va 256 s with
    | (.error (.page a why), s) =>
      let s := raise .ranger 0 1 (.of c (0x0200 + why + 2 ^ 16 * 6) va) (ptFault c a why s)
      ctxFaultQuiet c (0x0200 + why) 0 (modCtx c (fun x => { x with record := none }) s)
    | (.error (.data _), s) => ctxFaultQuiet c 0x0305 0 (modCtx c (fun x => { x with record := none }) s)
    | (.ok b, s) =>
      let r := parseRecord va b
      let s := modCtx c (loadRecord r) s
      let why := recordReason s c r
      if why ≠ 0 then refuseRecord c why none s
      else
        match vRead c r.prog 64 s with
        | (.error (.page a w), s) => refuseRecord c 6 (some (.page a w)) s
        | (.error (.data _), s) => ctxFault c 0x0305 s
        | (.ok hb, s) => checkImage c r hb s

/-- Read NEXT of the current record (R318): nonzero, the next record is read; zero, the context is PARKED with its watch. -/
def readNext (c : Nat) (s : State) : State :=
  let x := getCtx s c
  match vRead c x.curRec 8 s with
  | (.error (.page a why), s) =>
    ctxFaultQuiet c (0x0200 + why) 0 (ptFault c a why (modCtx c (fun x => { x with record := none }) s))
  | (.error (.data _), s) => ctxFaultQuiet c 0x0305 0 (modCtx c (fun x => { x with record := none }) s)
  | (.ok b, s) =>
    let next := ofBytes b
    if next = 0 then
      modCtx c (fun x => { x with st := .parked, phase := .none, record := none, watch := some x.curRec, woken := false, runnable := false }) s
    else readRecord c next s

/-! ## Slots (R311, R330) -/

def freeSlot (s : State) : Option Nat :=
  (List.range 16).find? (fun i => (vget (some 0) s.ranger.slots i).isNone)

def takeSlot (c slot : Nat) (s : State) : State :=
  modCtx c (fun x => { x with slot := some slot, blocked := 0 })
    { s with ranger := { s.ranger with slots := vset s.ranger.slots slot (some c) } }

def dropSlot (c : Nat) (s : State) : State :=
  match (getCtx s c).slot with
  | none => s
  | some i => modCtx c (fun x => { x with slot := none, blocked := 0 })
      { s with ranger := { s.ranger with slots := vset s.ranger.slots i none } }

/-- Contexts that are not as FREE leaves them. -/
def ctxIds (s : State) : List Nat := s.ctxs.map (fun p => p.1)

/-- Insert into a list sorted by `before`. -/
def insertBy {α : Type} (before : α → α → Bool) (a : α) : List α → List α
  | [] => [a]
  | b :: t => if before b a then b :: insertBy before a t else a :: b :: t

def sortBy {α : Type} (before : α → α → Bool) (l : List α) : List α := l.foldl (fun acc a => insertBy before a acc) []

/-- Highest EP first, ties to the lower number. -/
def bestFirst (s : State) (a b : Nat) : Bool :=
  decide (effPrio s b < effPrio s a) || (effPrio s a == effPrio s b && decide (a < b))

/-- Lowest EP first, ties to the higher number. -/
def worstFirst (s : State) (a b : Nat) : Bool :=
  decide (effPrio s a < effPrio s b) || (effPrio s a == effPrio s b && decide (b < a))

/-- Runnable contexts (R330). -/
def runnables (s : State) : List Nat :=
  (ctxIds s).filter (fun c => let x := getCtx s c; x.slot.isNone && (x.st == .ready || x.runnable))

/-- Put a runnable context into a slot: a kill that waited begins (log 45), a HEAD or NEXT that waited is read now. -/
def swapIn (c slot : Nat) (s : State) : State :=
  let s := bump (regAt .ranger 0 0x78) 31 16 1 (takeSlot c slot s)
  let x := getCtx s c
  if x.killDue.isSome then setCtx c { x with st := .killing, killDue := none, runnable := false } s
  else if x.st = .parked then
    (if x.woken then readNext c s else readRecord c x.curRec s)
  else s

/-- Swap in the best runnable context if a slot is free. -/
def swapBest (s : State) : State :=
  match freeSlot s, sortBy (bestFirst s) (runnables s) with
  | some i, c :: _ => swapIn c i s
  | _, _ => s

/-- Blocked (R313). -/
def isBlocked (x : Ctx) : Bool :=
  x.st == .parked || x.st == .faulted || x.st == .retained || (x.st == .running && x.ligWait)

/-- A context may be evicted (R330). -/
def mayEvict (s : State) (c : Nat) : Bool :=
  let x := getCtx s c
  x.slot.isSome && x.st != .retained && x.st != .killing && x.st != .free &&
  !(decide (x.plot ≠ []) && saveGroves s c == 0)

/-- Residents in slot order. -/
def residents (s : State) : List Nat := s.ranger.slots.toList.filterMap id

/-- CTX_EVICTED (R330, R341): `new` is the context swapped in, 0xFFFF if none. -/
def evicted (c new : Nat) (s : State) : State :=
  let s := bump (regAt .ranger 0 0x78) 15 0 1 s
  raise .ranger 0 5 (.of c new (getCtx s c).curRec) s

/-- The header page of a save area is written: its contents are internal (R332). -/
def blurHeader (c : Nat) (s : State) : State := match vTargets c (saveVa s c) (2 ^ 21) s with
  | (.ok ps, s) => forEach ps (fun p s => memBlur p.1 p.2 s) s
  | (.error _, s) => s

/-- The context leaves its slot (its plot, if it had one, is saved): its state goes to the header page of its save area, whose
contents are internal (R330, R332). -/
def finishEvict (c : Nat) (s : State) : State :=
  let s := modCtx c (fun x => { x with evict := false, runnable := x.runnable || x.woken }) s
  let s := dropSlot c (blurHeader c s)
  match freeSlot s, sortBy (bestFirst s) ((runnables s).filter (fun d => d != c)) with
  | some i, d :: _ => swapIn d i (evicted c d s)
  | _, _ => evicted c 0xFFFF s

/-- An update layer without a plot stops at a group boundary (R259, R331); a plot that was saved before it stays saved. -/
def parkUpdate (c : Nat) (s : State) : State :=
  let x := getCtx s c
  if x.st ≠ .running then s
  else
    -- each Scribe's 64 bytes go to the header page (R259, log 142), which is written as the context leaves its slot
    let s := if x.upd.isSome then moveBytes c 0xA8 512 s else s
    bump (regAt .ctx c 0xE8) 31 16 1 (setCtx c
      { x with st := .ready, phase := .none, started := false, preempted := true, upd := x.upd.map parkNorms } s)

/-- Begin an eviction: a plot is saved first. -/
def beginEvict (c : Nat) (s : State) : State :=
  if (getCtx s c).plot = [] then finishEvict c (parkUpdate c s)
  else modCtx c (fun x => { x with evict := true, phase := .saving }) s

/-! ## The clock of a grove (R345, R368) -/

/-- The dip response or the brake applies DIP_ACLK. -/
def dipApplies (s : State) : Bool := s.supply.dip || (s.power.brake && s.boot.st == .run)

/-- ACLK step of a grove now, the least of the values of R345; 0 while it is stopped. A waking grove's PLL locks at that step already: R350's
"lowest ACLK value of R345" is read as the least of its three values (DEDUCED, log 180). -/
def aclk (s : State) (g : Nat) : Nat :=
  let x := getGrove s g
  if x.pw = .awake ∨ x.pw = .waking then
    let k := min x.step x.therm
    if dipApplies s then min k (stepOf (getF s (regAt .clock 0 0x40) 4 0)) else k
  else 0

/-- ACLK step changes of one grove: a fall takes effect at once, a rise one step at a time (R345); stopping and starting are none (log 27). -/
def stepChanges (old new : Nat) : Nat := if old = 0 ∨ new = 0 then 0 else if new < old then 1 else new - old

/-- Count the ACLK step changes that an operation makes (R368). -/
def countingSteps (f : State → State) (s : State) : State :=
  let t := f s
  bump (regAt .clock 0 0x50) 31 16 ((List.range 64).map (fun g => stepChanges (aclk s g) (aclk t g))).sum t

/-! ## Placement (R319, R320, R329) -/

/-- A grove that may be assigned: available, in no plot, promised to none, its scrub ended (R417). -/
def groveFree (s : State) (g : Nat) : Bool :=
  groveAvail s g && (getGrove s g).owner.isNone && !(getGrove s g).dirty && (heirOf s g).isNone

/-- Free groves in the order in which they join: awake ones first, then by number. -/
def freeGroves (s : State) : List Nat :=
  let fs := (List.range 64).filter (groveFree s)
  fs.filter (fun g => (getGrove s g).pw == .awake) ++ fs.filter (fun g => (getGrove s g).pw != .awake)

/-- PARKED residents whose plots may be taken, lowest EP first. -/
def parkedVictims (s : State) (me : Nat) : List Nat :=
  sortBy (worstFirst s) ((residents s).filter (fun c =>
    let x := getCtx s c
    c != me && x.st == .parked && x.phase == .none && decide (x.plot ≠ []) && saveGroves s c != 0))

/-- Running plots that an urgent layer may pre-empt, lowest EP first. -/
def runningVictims (s : State) (me : Nat) : List Nat :=
  sortBy (worstFirst s) ((residents s).filter (fun c =>
    let x := getCtx s c
    c != me && x.st == .running && (x.phase == .running || x.phase == .starting) && !x.urgent && decide (x.plot ≠ []) &&
      saveGroves s c != 0 && decide (effPrio s c < effPrio s me)))

/-- Take victims until `need` groves are found. -/
def takeVictims (s : State) : List Nat → Nat → List Nat × List Nat
  | [], _ => ([], [])
  | v :: t, need =>
    if need = 0 then ([], [])
    else
      let gs := (heldBy s v).filter (fun g => (getGrove s g).pw != .retired)
      let (vs, more) := takeVictims s t (need - gs.length)
      (v :: vs, gs ++ more)

/-- A placement: the new plot, and the contexts whose plots are saved for it. -/
structure Place where
  plot    : List Nat
  victims : List Nat
  deriving DecidableEq, Repr

/-- Groves of a context's plot that still serve (R21). -/
def liveGroves (s : State) (c : Nat) : List Nat := (getCtx s c).plot.filter (fun g => (getGrove s g).pw != .retired)

/-- A retired grove of the plot waits for a free grove to take its place (R321, R411). -/
def awaitsReplacement (s : State) (c : Nat) : Bool :=
  (heldBy s c).any (fun g => (getGrove s g).pw == .retired) && decide (freeGroves s ≠ [])

/-- R319 for a context's record; `none` where it cannot be placed. -/
def placeFor (s : State) (c : Nat) (r : Record) (urgent : Bool) : Option Place :=
  let x := getCtx s c
  let resumes := match x.saved with
    | some v => v.running
    | none => false
  let mine := liveGroves s c
  if awaitsReplacement s c then none
  else if r.update && !resumes then some ⟨mine, []⟩
  else
    let sg := saveGroves s c
    let top := if sg = 0 then r.plotMax else min r.plotMax sg
    -- sizes: what is held, the least and the most wanted
    let (size, lo, hi) : Nat × Nat × Nat := match x.saved with
      | some v => if v.running then (v.groves, v.groves, v.groves) else (v.groves, r.plotMin, top)
      | none => (mine.length, r.plotMin, top)
    let (lo, hi) := if lo ≤ size ∧ size ≤ hi then (size, size) else if size > hi then (hi, hi) else (lo, hi)
    let have_ := mine.take hi
    let need := lo - have_.length
    let free := freeGroves s
    if need ≤ free.length then some ⟨have_ ++ free.take (hi - have_.length), []⟩
    else
      let (vs, gs) := takeVictims s (parkedVictims s c) (need - free.length)
      let pool := free ++ gs
      if need ≤ pool.length then some ⟨have_ ++ pool.take (hi - have_.length), vs⟩
      else if urgent then
        let (ws, hs) := takeVictims s (runningVictims s c) (need - pool.length)
        let pool := pool ++ hs
        if need ≤ pool.length then some ⟨have_ ++ pool.take (hi - have_.length), vs ++ ws⟩ else none
      else none

/-- Stop a sweep of a grove that a dispatch wants: its result is discarded (R408). -/
def stopSweep (g : Nat) (s : State) : State :=
  if s.seedbank.sweeping = some g then
    modGrove g (fun x => { x with dirty := true }) { s with seedbank := { s.seedbank with sweeping := none } }
  else s

/-- A grove joins a plot, or is to join it when another plot has left it (R329); one whose sweep has been stopped is the plot's when its scrub has
ended (R408, R417). -/
def joinGrove (c step g : Nat) (s : State) : State :=
  let s := stopSweep g s
  let s := modGrove g (fun x =>
    if x.owner.isNone && !x.dirty then { x with owner := some c, idle := 0, step := step } else { x with idle := 0 }) s
  wakeGrove g s

/-- The step at which a plot runs: a stretch persists across layers and saves (R324). -/
def layerStep (x : Ctx) : Nat := match x.plot, x.saved with
  | [], some v => v.step
  | _, _ => x.step

/-- Dispatch (R326, R328): groves leave from the end of the list, groves join, victims start to save. -/
def dispatch (c : Nat) (r : Record) (p : Place) (urgent : Bool) (s : State) : State :=
  let x := getCtx s c
  let step := layerStep x
  let s := forEach p.victims (fun v s => modCtx v (fun y => { y with phase := .saving, preempted := y.preempted ||
    y.st == .running }) s) s
  let leave := forEach (x.plot.filter (fun g => !p.plot.contains g)) (fun g s =>
    dropGrove g (modGrove g (fun y => { y with step := 9 }) s))
  let join := forEach (p.plot.filter (fun g => !x.plot.contains g)) (joinGrove c step)
  let s := countingSteps (fun s => join (leave s)) s
  let s := forEach (p.plot.filter (fun g => x.plot.contains g)) (fun g s =>
    wakeGrove g (modGrove g (fun y => { y with idle := 0 }) s)) s
  let s := modCtx c (fun y =>
    { y with
      st := .running, phase := .starting, plot := p.plot, step := step, since := now s, urgent := urgent, lastPrio := recPrio s c }) s
  let s := takeFree (bump (regAt .ranger 0 0x70) 31 0 1 s)
  if urgent then
    raise .ranger 0 4 (.of c 0 r.va) (bump (regAt .ranger 0 0x74) 31 16 1 s)
  else s

/-! ## Tokens and passes (R322, R326) -/

def capOf (s : State) : Nat := min s.ranger.capMj (s.ranger.envW * 10 / 3)

/-- Committed energy (R322). -/
def committedOf (s : State) : Nat :=
  (ctxIds s).foldl (fun n c =>
    let x := getCtx s c
    match x.st, x.record with
    | .running, some r => n + (min r.energy (capOf s) - x.drawn)
    | _, _ => n) 0

/-- Dispatch is held by a dip response, a brake, a trip, a device stop or a DISARM (R359, R448, R365, R390). -/
def dispatchHeld (s : State) : Bool :=
  s.supply.dip || s.power.brake || s.supply.tripHeld || s.boot.stopping.isSome || s.boot.disarming

/-- Thermal hold for groves (R365): one of them or any edge block. -/
def thermalHolder (s : State) (gs : List Nat) : Option Nat :=
  (s.supply.holds.find? (fun p => p.2 && (decide (64 ≤ p.1) || gs.contains p.1))).map (fun p => p.1)

/-- The thermal hold is true for a layer that would use these groves. -/
def thermalHold (s : State) (gs : List Nat) : Bool := (thermalHolder s gs).isSome

/-- Resident READY contexts in the pass's order (R326). -/
def passOrder (s : State) : List Nat :=
  let before (a b : Nat) : Bool :=
    let ea := effPrio s a
    let eb := effPrio s b
    let wa := (getCtx s a).wait
    let wb := (getCtx s b).wait
    decide (eb < ea) || (ea == eb && (decide (wb < wa) || (wa == wb && decide (a < b))))
  sortBy before ((residents s).filter (fun c => (getCtx s c).st == .ready && (getCtx s c).phase == .none))

/-- What one visit of the pass answers: go on; stop, for tokens or not; stop at a thermal hold. -/
inductive Visit where
  | go (s : State)
  | stop (tokens : Bool) (s : State)
  | hold (s : State)

/-- Visit one READY context. -/
def visit (inTick : Bool) (c : Nat) (s : State) : Visit :=
  let x := getCtx s c
  match x.record with
  | none => .go s
  | some r =>
    if !r.update ∧ r.plotMin > availCount s then .go (refuseRecord c 3 none s)
    else
      let urgent := isUrgent s c
      let p := placeFor s c r urgent
      let gs := match p with
        | some q => q.plot
        | none => x.plot
      if thermalHold s gs then
        let s := if inTick then bump (regAt .supply 0 0x64) 31 16 1 s else s
        -- SUPPLY's class (R422): ARG0 the sensor that holds, a grove's number or 64 and more for an edge block (log 42)
        .hold (raise .supply 0 4 (.of c ((thermalHolder s gs).getD 0) 0) s)
      else
        match p with
        | none => if urgent then .stop false s else .go s
        | some q =>
          if urgent then .go (dispatch c r q true s)
          else
            let est := min r.energy (capOf s)
            if s.ranger.tokens - committedOf s < est then
              .stop true s
            else .go (dispatch c r q false s)

/-- POWER bit 14: the last pass stopped for tokens. -/
def setStopped (b : Bool) (s : State) : State := { s with ranger := { s.ranger with stopped := b } }

/-- The visits in order; a thermal hold leaves POWER bit 14 as it was (R371). -/
def visitAll (inTick : Bool) : List Nat → State → State
  | [], s => setStopped false s
  | c :: t, s =>
    match visit inTick c s with
    | .go s => visitAll inTick t s
    | .stop tokens s => setStopped tokens s
    | .hold s => s

/-- The dispatch pass (R326), in RUN while nothing holds dispatch. -/
def pass (inTick : Bool) (s : State) : State :=
  if s.boot.st = .run ∧ !dispatchHeld s then visitAll inTick (passOrder s) s else s

/-! ## Clocks (R324, R345) -/

/-- Running plots of a kind, for clock decisions. -/
def runningPlots (s : State) (urgent : Bool) : List Nat :=
  (ctxIds s).filter (fun c =>
    let x := getCtx s c
    x.st == .running && decide (x.plot ≠ []) && x.urgent == urgent)

def floorStep (s : State) : Nat := stepOf (getF s (regAt .ranger 0 0x48) 4 0)

/-- Set the step of a plot, and of every grove that it has. -/
def stepPlot (c k : Nat) (s : State) : State :=
  forEach (heldBy s c) (fun g s => modGrove g (fun x => { x with step := k }) s) (modCtx c (fun x => { x with step := k }) s)

/-- R324: at most one step of one plot. `e` and `refill` are this tick's energy and refill in mJ. -/
def adjustClocks (e refill : Nat) (s : State) : State :=
  let above (c : Nat) : Bool := decide (floorStep s < (getCtx s c).step)
  let below (c : Nat) : Bool := decide ((getCtx s c).step < 9)
  let peak := decide (s.ranger.envW * 7 < e * 300)
  let s := if peak then raise .ranger 0 3 Note.none s else s
  if peak || decide (s.ranger.tokens < 0) then
    match sortBy (worstFirst s) ((runningPlots s false).filter above) ++
        sortBy (worstFirst s) ((runningPlots s true).filter above) with
    | [] => s
    | c :: _ => raise .ranger 0 2 (.of c 0 (getCtx s c).curRec) (bump (regAt .ranger 0 0x74) 15 0 1 (stepPlot c ((getCtx s c).step - 1) s))
  else if s.ranger.tokens = capOf s ∧ e < refill then
    match sortBy (bestFirst s) ((runningPlots s false ++ runningPlots s true).filter below) with
    | [] => s
    | c :: _ => stepPlot c ((getCtx s c).step + 1) s
  else s

/-! ## Accounting (R339) -/

/-- Energy in microjoules attributed to a context. The layer that runs when the tick ends has drawn it (R322): while a layer is READY, and
when none is there, nothing counts as drawn. It goes to the recompute total by the record that the context holds then (R181; DESIGN CHOICE,
log 143). -/
def giveEnergy (c uj : Nat) (s : State) : State :=
  let x := getCtx s c
  let mj := (x.ujRem + uj) / 1000
  let s := setCtx c { x with
    ujRem := (x.ujRem + uj) % 1000, drawn := if x.st = .running then x.drawn + mj else x.drawn, energyAcc := satAdd 32 x.energyAcc mj } s
  let s := addPair (regAt .ctx c 0xC0) mj s
  match x.record with
  | some r => if r.recompute then addPair (regAt .ctx c 0xD8) mj s else s
  | none => s

/-- A grove that takes no part in a plot's work: asleep or retired. -/
def groveAsleep (x : Grove) : Bool := x.pw == .retention || x.pw == .gated || x.pw == .retired

/-- One tick's energy (R339): each plot grove's to its context unless it sleeps, the rest by bytes moved, else to IDLE_ENERGY. -/
def shareEnergy (i : TickIn) (s : State) : State :=
  let groveSum := (List.range 64).foldl (fun n g => n + vget 0 i.groveUj g) 0
  let (s, idle) := (List.range 64).foldl (fun (acc : State × Nat) g =>
    let (s, idle) := acc
    let x := getGrove s g
    match x.owner, groveAsleep x with
    | some c, false => (giveEnergy c (vget 0 i.groveUj g) s, idle)
    | _, _ => (s, idle + vget 0 i.groveUj g)) (s, 0)
  let rest := i.totalUj - groveSum
  let cs := (ctxIds s).filter (fun c => (getCtx s c).tickBytes != 0)
  let total := cs.foldl (fun n c => n + (getCtx s c).tickBytes) 0
  let (s, idle) := if total = 0 then (s, idle + rest)
    else (forEach cs (fun c s => giveEnergy c (rest * (getCtx s c).tickBytes / total) s) s, idle)
  let s := forEach (ctxIds s) (fun c s => modCtx c (fun x => { x with tickBytes := 0 }) s) s
  let idle := s.ranger.idleEnergy + idle
  addPair (regAt .ranger 0 0x7C) (idle / 1000) { s with ranger := { s.ranger with idleEnergy := idle % 1000 } }

end Sys2Proof.Machine
end

