-- ==== Sys2Proof/Machine/Understory.lean ====
section
/-! DEFINITION. The Understory tick, thermal sensing, supply dips, the device stop, and grove power (R343 to R371, R380). -/

namespace Sys2Proof.Machine

/-! ## Thresholds (R358, R370) -/

def warnMv (s : State) (i : Nat) : Nat := getF s (regAt .supply 0 (0x80 + 8 * i)) 11 0
def integMv (s : State) (i : Nat) : Nat := getF s (regAt .supply 0 (0x80 + 8 * i)) 23 12
def resetMv (s : State) (i : Nat) : Nat := getF s (regAt .supply 0 (0x84 + 8 * i)) 11 0
def hystMv (s : State) (i : Nat) : Nat := getF s (regAt .supply 0 (0x84 + 8 * i)) 17 12
def stretchC (s : State) : Nat := getF s (regAt .supply 0 0x44) 7 0
def holdC (s : State) : Nat := getF s (regAt .supply 0 0x44) 15 8

def getRail (s : State) (i : Nat) : Rail := vget Rail.cold s.supply.rails i
def modRail (i : Nat) (f : Rail → Rail) (s : State) : State :=
  { s with supply := { s.supply with rails := vset s.supply.rails i (f (getRail s i)) } }

/-- Nominal voltage of a rail (R358). -/
def nominalMv : Nat → Nat
  | 4 => 800 | 6 => 900 | 7 => 800 | _ => 750

/-- Within 3% of nominal (R443, R446). -/
def nearNominal (i mv : Nat) : Bool := decide (97 * nominalMv i ≤ 100 * mv) && decide (100 * mv ≤ 103 * nominalMv i)

/-- The main rails in the order in which they ramp (R446): VPHY, VFAB, VSRAM, VCORE0 to VCORE3. -/
def rampOrder : List Nat := [6, 5, 4, 0, 1, 2, 3]

/-- A rail's voltage as the converter and the comparators see it (R358): present and lowest voltage, below its thresholds or not, its record
while a dip response counts it. PWRGD falls with a main rail that leaves 3% of nominal. -/
def sampleRail (i mv : Nat) (s : State) : State :=
  let v := min 4095 mv
  let t := now s
  let warn := warnMv s i
  let integ := integMv s i
  let s := if v ≤ warn + hystMv s i then { s with supply := { s.supply with recover := false } } else s
  let s := modRail i (fun r =>
    { r with
        mv := v, low := if r.mv = 0 ∧ r.low = 4095 then v else min r.low v
        below := decide (v < warn), since := if r.below then r.since else t, integNow := decide (v < integ)
        dipLow := if r.crossed then min r.dipLow v else r.dipLow }) s
  if i = 7 ∨ nearNominal i v then s else { s with power := { s.power with pwrgd := false } }

/-- UCLK cycles for which a rail has been below its warning threshold (R422). -/
def cyclesBelow (s : State) (i : Nat) : Nat := if (getRail s i).below then now s - (getRail s i).since else 0

def setMevent (b : Nat) (s : State) : State :=
  { s with power := { s.power with mevent := putBits s.power.mevent b b 1 } }

/-! ## The device stop (R380) -/

/-- The device stops: every context with a record completes with 0x0303; entry to STOPPED follows (DEVICE_STOPPED). -/
def stopDevice (code : Nat) (s : State) : State :=
  if s.boot.st = .run ∧ s.boot.stopping.isNone then
    let s := { s with boot := { s.boot with stopping := some code } }
    forEach (ctxIds s) (fun c s => ctxFault c 0x0303 s) s
  else s

/-- THERM_TRIP (R365): dispatch stays held until the device is brought up again. In HELD it is only logged (R391). -/
def thermTrip (s : State) : State :=
  let hot := (List.range 72).filter (fun k => decide (115 ≤ vget 0 s.supply.temps k))
  match hot with
  | [] => { s with supply := { s.supply with trip := false } }
  | k :: _ =>
    if s.supply.trip then s
    else
      let s := raise .supply 0 5 (.args k 0) s
      let s := setMevent 0 { s with
        supply := { s.supply with trip := true, tripHeld := true }
        power := { s.power with thermtrip := true } }
      stopDevice 0x23 s

/-! ## Parts of a tick -/

/-- Samples: input, rails, sensors, stacks, margins. -/
def sampleMargins (i : TickIn) (s : State) : State :=
  let pct := min 100 (getF s (regAt .seedbank 0 0x40) 11 5)
  forEach i.margins (fun (p, m) s =>
    if (getGrove s (p.val / 17)).pw = .awake then
      modPNib p.val (fun q =>
        { q with margin := min 127 m, lowTicks := if pct ≠ 0 ∧ m < pct then q.lowTicks + 1 else 0 }) s
    else s) s

/-- Cable connector of a port (R444). -/
def connectorOf (p : Nat) : Nat := match p / 4 with
  | 0 => 0 | 1 => 1 | 2 => 3 | _ => 2

/-- No port of a connector has signal: each is off or waits for it. -/
def connectorDark (s : State) (k : Nat) : Bool :=
  (List.range 16).all (fun p => connectorOf p != k || (getPort s p).st == .off || (getPort s p).st == .detect)

/-- The connectors: CBL_PRSNT# as it stands, a port with signal showing a cable whatever the pin says (log 124), and what the cable draws, which is
nothing where CBL_PWR is off (R445; log 54). -/
def sampleCables (i : TickIn) (s : State) : Vector Cable 4 :=
  Vector.ofFn (fun k =>
    let c := s.power.cables[k]
    { c with
        present := vget false i.present k.val || !connectorDark s k.val
        draw := if c.pwrOn then (vget 0 i.draws k.val).val else 0 })

def sample (i : TickIn) (s : State) : State :=
  let s := { s with
    power := { s.power with
      inMv := i.inMv, inMa := i.inMa, inW := i.totalUj / 20, uvNow := decide (i.inMv < 44000)
      cables := sampleCables i s } }
  let s := if s.power.uvNow then setMevent 3 s else s
  let s := forEach (List.range 8) (fun k s => sampleRail k (vget 0 i.railMv k) s) s
  let s := takeFree s
  let near (k : Nat) : Bool := s.power.ramp.contains k || nearNominal k (getRail s k).mv
  let s := if s.power.modEn then { s with power := { s.power with ramp := rampOrder.takeWhile near } } else s
  let s := { s with supply := { s.supply with
    temps := i.temps
    highs := Vector.ofFn (fun k => max (vget 0 s.supply.highs k.val) (vget 0 i.temps k.val)) } }
  let s := forEach (List.range 8) (fun m s =>
    if (getMc s m).trained then setStackTemp m (vget 0 i.stackC m) s else s) s
  sampleMargins i s

/-- R364: the thermal limit of each grove, once there is a threshold and the grove has a limit. -/
def thermalLimits (s : State) : State :=
  if stretchC s = 0 then s
  else forEach ((List.range 64).filter (fun g => (getGrove s g).therm != 0)) (fun g s =>
    let t := vget 0 s.supply.temps g
    let x := getGrove s g
    if stretchC s ≤ t then
      if 1 < x.therm then
        raise .supply 0 3 (.args g 0) (bump (regAt .supply 0 0x64) 15 0 1 (setGrove g { x with therm := x.therm - 1 } s))
      else s
    else if t + 3 < stretchC s ∧ x.therm < 9 then setGrove g { x with therm := x.therm + 1 } s
    else s) s

/-- R365: sensors under a thermal hold, once there is a threshold. -/
def thermalHolds (s : State) : State :=
  if holdC s = 0 then s
  else
  let upd (t : Tab Bool) (k : Nat) : Tab Bool :=
    let v := vget 0 s.supply.temps k
    if holdC s ≤ v then tabSet false t k true
    else if v + 3 < holdC s then tabSet false t k false
    else t
  { s with supply := { s.supply with holds := (List.range 72).foldl upd s.supply.holds } }

/-- The refill of the tick that ends now, in mJ, its remainder carried (R322). -/
def tickRefill (s : State) : Nat := (s.ranger.refRem + getF s (regAt .ranger 0 0x40) 11 0) / 50

/-- R322, R323: the envelope in force, then tokens. -/
def updateTokens (e : Nat) (s : State) : State :=
  let cfg := getR s (regAt .ranger 0 0x40)
  let r := { s.ranger with envW := bits cfg 11 0, capMj := bits cfg 24 12 }
  let s := { s with ranger := r }
  let refill : Nat := (r.refRem + r.envW) / 50
  let t := min (capOf s : Int) (r.tokens + refill - e)
  { s with ranger := { r with
    tokens := t, refRem := (r.refRem + r.envW) % 50
    overEnv := decide (r.envW < e * 50), overPeak := decide (r.envW * 7 < e * 300) } }

/-- R325: READY contexts age; residents that are blocked count it; R330's grace. -/
def ageContexts (s : State) : State :=
  let s := forEach (ctxIds s) (fun c s =>
    let x := getCtx s c
    let s := if x.st = .ready then addPair (regAt .ctx c 0xE0) 1 (setCtx c { x with wait := x.wait + 1 } s) else s
    if x.slot.isSome then modCtx c (fun y => { y with blocked := if isBlocked y then y.blocked + 1 else 0 }) s else s) s
  let rs := residents s
  let all := decide (rs.length = 16) && rs.all (fun c => isBlocked (getCtx s c))
  { s with ranger := { s.ranger with graceTicks := if all then s.ranger.graceTicks + 1 else 0 } }

/-- R330: contexts asked to be evicted leave; a free slot takes the best runnable context. -/
def swapTick (s : State) : State :=
  let grace := getF s (regAt .ranger 0 0x44) 27 16
  let asked := (residents s).filter (fun c => (getCtx s c).evict && (getCtx s c).phase != .saving)
  let s := forEach asked (fun c s =>
    if grace ≠ 0 ∧ mayEvict s c then beginEvict c s else modCtx c (fun x => { x with evict := false }) s) s
  swapBest s

/-- A grove that may be idle (R349): free, or of the plot of a context that is PARKED or READY with no layer dispatched. -/
def groveIdle (s : State) (g : Nat) : Bool :=
  let x := getGrove s g
  x.pw == .awake && match x.owner with
    | none => !x.dirty && s.seedbank.sweeping != some g
    | some c => ((getCtx s c).st == .parked || (getCtx s c).st == .ready) && (getCtx s c).phase == .none

/-- R349: idle groves are counted. -/
def countIdle (s : State) : State :=
  forEach (List.range 64) (fun g s =>
    modGrove g (fun x => { x with idle := if groveIdle s g then x.idle + 1 else 0 }) s) s

/-- R424: the coalesced MEM_CE entries of the tick. -/
def flushCes (s : State) : State :=
  let s := forEach s.blotter.ces (fun p s =>
    logAt p.2.stamp.toNat true .memctl p.1 0 (.args p.2.count p.2.dpa) s) s
  { s with blotter := { s.blotter with ces := [] } }

/-- R421: cycles in RUN, and in a device-attributable stop. -/
def countRun (s : State) : State :=
  let b := s.seedbank
  if s.boot.st = .run then { s with seedbank := { b with avRun := b.avRun + 1000 } }
  else if s.boot.st = .stopped ∧ s.boot.stopCode ≠ 0x23 then
    { s with seedbank := { b with avRun := b.avRun + 1000, avLost := b.avLost + 64000 } }
  else s

/-- UNDERSTORY_TICK (R322, R326, R349, R364): the end of 1,000 UCLK cycles. Sensors and their limits go on in every state. -/
def execUnderstoryTick (i : TickIn) (s : State) : Host.Outcome State Fault Refusal :=
  if !s.power.released then .next s
  else
    let s := thermTrip (sample i { s with uclk := s.uclk + 1000, inTick := 0 })
    let s := countingSteps thermalLimits (thermalHolds s)
    let s :=
      if s.boot.st = .run then
        let mj := (s.ranger.eRem + i.totalUj) / 1000
        let s := { s with ranger := { s.ranger with eRem := (s.ranger.eRem + i.totalUj) % 1000, powerW := min 4095 (i.totalUj / 20) } }
        let s := forEach (ctxIds s) chargeTime (shareEnergy i s)
        let refill := tickRefill s
        let s := countingSteps (adjustClocks mj refill) (updateTokens mj s)
        countIdle (pass true (swapTick (ageContexts s)))
      else s
    .next (countRun (flushCes s))

/-! ## Dips (R359 to R361) -/

/-- RAIL_WARNING: a rail falls below its warning threshold; the dip response starts, or its wait restarts. -/
def execRailWarning (rail : Fin 8) (mv : BitVec 12) (s : State) : Host.Outcome State Fault Refusal :=
  if mv.toNat < warnMv s rail.val then
    let s := takeFree (sampleRail rail.val mv.toNat s)
    let s := modRail rail.val (fun r => { r with crossed := true, dipLow := if r.crossed then r.dipLow else mv.toNat }) s
    let start (s : State) : State := { s with supply := { s.supply with
      dip := true, recover := false
      order := if s.supply.order.contains rail.val then s.supply.order else s.supply.order ++ [rail.val] } }
    .next (countingSteps start s)
  else .next s

/-- RAIL_RECOVER: the rails as they are now; once every one is above its warning threshold plus its hysteresis the recovery wait starts
(R360). -/
def execRailRecover (mv : Vector (BitVec 12) 8) (s : State) : Host.Outcome State Fault Refusal :=
  let up := (List.range 8).all (fun k => decide (warnMv s k + hystMv s k < (vget 0 mv k).toNat))
  let s := takeFree (forEach (List.range 8) (fun k s => sampleRail k (vget 0 mv k).toNat s) s)
  if s.supply.dip ∧ up then .next { s with supply := { s.supply with recover := true } } else .next s

/-- VDIP of one rail (R360): its record. -/
def vdip (rail below : Nat) (s : State) : State :=
  let r := getRail s rail
  let s := setR (regAt .supply 0 0x4C) (r.dipLow + 2 ^ 12 * rail + (if r.integ then 2 ^ 15 else 0)) s
  let s := setR (regAt .supply 0 0x50) (min (2 ^ 32 - 1) below) s
  let s := bump (regAt .supply 0 0x54) 15 0 1 s
  raise .supply 0 0 (.args (rail + 2 ^ 16 * r.dipLow) below) s

/-- DIP_RECOVERY_END: clocks rise, VDIP for each rail that crossed, dispatch resumes (R360). -/
def execDipRecoveryEnd (below : Vector Nat 8) (s : State) : Host.Outcome State Fault Refusal :=
  if s.supply.dip ∧ s.supply.recover then
    let s := countingSteps (fun s => { s with supply := { s.supply with dip := false, recover := false } }) s
    let s := forEach s.supply.order (fun k s => vdip k (vget 0 below k) s) s
    let s := forEach (List.range 8) (fun k s => modRail k (fun r => { r with crossed := false, integ := false }) s) s
    .next { s with supply := { s.supply with order := [] } }
  else .next s

/-- A layer in flight is marked suspect (R361). A plot being saved restarts its save, and the layer its run. -/
def suspect (c : Nat) (s : State) : State :=
  let x := getCtx s c
  if x.st ≠ .running then s
  else if x.phase = .replaying then setCtx c { x with phase := .suspect } s
  else replayError .suspect c (.ofCause 4) s

/-- The owners' Scribes of an open circle step are suspect too (R305): each restores the pre-images that it holds and does the groups again.
A group is one step here, so its rows end as they were; the rollback itself is counted and raised. -/
def suspectOwners (s : State) : State :=
  match s.lig.open_ with
  | none => s
  | some w =>
    let ms := (List.range 8).filter (fun m => (getScribe s m).pre.any (fun p => p.circle))
    if ms = [] then s
    else raise .scribe 0 6 (.of w.ctx 0xFFFF w.step)
      (forEach ms (fun m s => modScribe m (fun x => { x with rollbacks := satAdd 16 x.rollbacks 1 }) s) s)

/-- SUPPLY_SUSPECT: a rail falls below its integrity threshold (R361). -/
def execSupplySuspect (rail : Fin 8) (mv : BitVec 12) (s : State) : Host.Outcome State Fault Refusal :=
  if mv.toNat < integMv s rail.val then
    let s := takeFree (sampleRail rail.val mv.toNat s)
    let s := modRail rail.val (fun r => { r with integ := true, dipLow := if r.crossed then r.dipLow else mv.toNat }) s
    let s := bump (regAt .supply 0 0x54) 31 16 1 s
    let s := raise .supply 0 1 (.args (rail.val + 2 ^ 16 * mv.toNat) (cyclesBelow s rail.val)) s
    .next (suspectOwners (forEach (ctxIds s) suspect s))
  else .next s

/-! ## PWR_BRAKE# (R448) -/

def execPwrBrakeAssert (s : State) : Host.Outcome State Fault Refusal :=
  if s.power.brake then .next s
  else .next (countingSteps (fun s =>
    { s with power := { s.power with brake := true, brakes := satAdd 16 s.power.brakes 1 } }) s)

def execPwrBrakeRelease (s : State) : Host.Outcome State Fault Refusal :=
  if s.power.brake then .next (countingSteps (fun s => { s with power := { s.power with brake := false } }) s)
  else .next s

/-! ## Grove sleep and wake (R348 to R352) -/

def idleHold (s : State) : Nat := getF s (regAt .understory 0 0x48) 11 0
def plotSleep (s : State) : Nat := getF s (regAt .understory 0 0x48) 13 12

/-- GROVE_SLEEP: a grove idle for IDLE_HOLD ticks enters ENTERING (R349). -/
def execGroveSleep (g : Fin 64) (s : State) : Host.Outcome State Fault Refusal :=
  let x := getGrove s g.val
  let plot := x.owner.isSome
  if s.boot.st = .run ∧ groveIdle s g.val ∧ idleHold s ≠ 0 ∧ idleHold s ≤ x.idle ∧ (!plot ∨ plotSleep s ≠ 0) then
    .next (bump (regAt .understory 0 0x64) 31 16 1
      (setGrove g.val { x with pw := .entering, retain := plot && plotSleep s == 1, wanted := false } s))
  else .next s

/-- GROVE_SLEEP_DONE: ENTERING ends in RETENTION or GATED; a grove wanted meanwhile wakes (R348, R352). -/
def execGroveSleepDone (g : Fin 64) (s : State) : Host.Outcome State Fault Refusal :=
  let x := getGrove s g.val
  if x.pw = .entering then
    let s := if x.retain then setGrove g.val { x with pw := .retention } s
      else gateGrove .gated g.val s
    .next (if x.wanted then wakeGrove g.val (modGrove g.val (fun y => { y with wanted := false }) s) else s)
  else .next s

/-- GROVE_WAKE_DONE: the grove is AWAKE; a dispatch pass follows (R350, R326). -/
def execGroveWakeDone (g : Fin 64) (lock : Nat) (s : State) : Host.Outcome State Fault Refusal :=
  let x := getGrove s g.val
  if x.pw = .waking then
    .next (pass false (setGrove g.val { x with pw := .awake, lock := min 1023 lock, idle := 0 } s))
  else .next s

/-- GROVE_SCRUB_DONE: the scrub that a grove owes ends (R417). -/
def execGroveScrubDone (g : Fin 64) (s : State) : Host.Outcome State Fault Refusal :=
  let x := getGrove s g.val
  if x.dirty ∧ x.pw = .awake then .next (scrubGrove g.val s) else .next s

end Sys2Proof.Machine
end

