-- ==== Sys2Proof/Machine/SpareOps.lean ====
section
/-! DEFINITION. Retirement and replacement of groves, nibs, rows and PLLs (R21, R346, R409 to R411, R413). -/

namespace Sys2Proof.Machine

def autoSpare (s : State) : Bool := bit (getR s (regAt .seedbank 0 0x40)) 4

/-- Timing that the manual bounds by `most` (log 9). -/
def openCycles (most : Nat) (s : State) : Nat := (Config.timing s.free).toNat % (most + 1)

/-- AV_LOST of a transplant or a replacement that a plot waited for (R421). -/
def loseCycles (c : Option Nat) (most : Nat) (s : State) : State :=
  match c with
  | none => s
  | some c =>
    takeFree { s with seedbank := { s.seedbank with
      avLost := s.seedbank.avLost + openCycles most s * (getCtx s c).plot.length } }

/-! ## Groves (R21, R321) -/

/-- A grove is retired: its map entry, GROVE_RETIRED, with the grove in ARG0 and 0 in ARG1 (DESIGN CHOICE, log 42); the layer of its plot is
replayed on the plot rebuilt. `readable`: its nibs can still be copied (R411). -/
def retireGrove (readable : Bool) (g : Nat) (s : State) : State :=
  let x := getGrove s g
  if x.pw = .retired then s
  else
    let s := forEach ((ctxIds s).filter (fun c => (getCtx s c).plot.contains g)) (fun c s => replayFor c 6 s) s
    let s := modGrove g (fun y => { y with pw := .retired, wanted := false, dirty := false, idle := 0 }) s
    let keep : Bool := readable && (getGrove s g).owner.isSome && x.pw != .gated
    let s := if keep then s else modGroveNibs g Nib.lost s
    let s := if s.seedbank.sweeping = some g then { s with seedbank := { s.seedbank with sweeping := none } } else s
    let s := raise .canopy 0 4 (.args g 0) s
    mapAdd (mapEntry 3 g) s

/-! ## Nibs (R409, R410) -/

/-- SPARE_EXHAUSTED, with the unit: the physical nib in ARG0 and its map entry in ARG1 (R422, log 154). -/
def spareExhausted (p : Nat) (s : State) : State := raise .seedbank 0 8 (.args p (mapEntry 1 p)) s

/-- The grove's spare cannot be inserted: in use, failed or retired. -/
def noSpare (s : State) (g : Nat) : Bool :=
  (getGrove s g).spareAt.isSome || (getPNib s (17 * g + 16)).failed || (getPNib s (17 * g + 16)).retired

/-- The physical nib serves a logical one. -/
def pnibServes (s : State) (p : Nat) : Bool :=
  !(getPNib s p).retired && ((getGrove s (p / 17)).spareAt.isSome || p % 17 != 16)

/-- A physical nib becomes retiring; a grove whose spare is used or failed retires (R21, R412). An unbound spare is marked failed. -/
def nibRetiring (p : Nat) (s : State) : State :=
  let q := getPNib s p
  if q.retired ∨ q.retiring ∨ q.failed then s
  else if !pnibServes s p then setPNib p { q with failed := true } s
  else
    let s := setPNib p { q with retiring := true } s
    if autoSpare s ∧ noSpare s (p / 17) then retireGrove true (p / 17) (spareExhausted p s) else s

/-- Logical nib behind a physical one that serves. -/
def logicalOf (s : State) (p : Nat) : Nat :=
  let g := p / 17
  16 * g + (if p % 17 = 16 then ((getGrove s g).spareAt).getD 0 else p % 17)

/-! ## Rows (R409, R410) -/

/-- The map entry of a retired row. -/
def rowEntry (p row r : Nat) : Nat := mapEntry 4 (p + 2 ^ 11 * row + 2 ^ 24 * r)

/-- Map a row onto a free redundant row of its bank, or the nib retires. A row with a detection error is not copied. -/
def retireRow (p row : Nat) (s : State) : State :=
  let q := getPNib s p
  let s := setPNib p { q with rowsDue := tabErase q.rowsDue row } s
  match freeRedundant s p (row / 256) with
  | none => nibRetiring p (if pnibServes s p then spareExhausted p s else s)
  | some r =>
    let s := modPNib p (fun q => { q with remap := tabInsert q.remap row r }) s
    let s := if pnibServes s p then
        modNib (logicalOf s p) (fun n => match n.readRow row with
          | .detect => n.setCell row none
          | _ => n) s
      else s
    mapAdd (rowEntry p row r) (raise .seedbank 0 3 (.args p (rowEntry p row r)) s)

/-- Row retirements pending on a nib: `checked` tells those that the pattern check finds; without a check only certain ones go. -/
def retireRows (p : Nat) (checked : Option (Nat → Bool)) (s : State) : State :=
  forEach (getPNib s p).rowsDue (fun e s =>
    if e.2 then retireRow p e.1 s
    else match checked with
      | none => s
      | some stuck =>
        if stuck e.1 then retireRow p e.1 s
        else modPNib p (fun q => { q with rowsDue := tabErase q.rowsDue e.1 }) s) s

/-- With AUTO_SPARE = 0 nothing is replaced: rows that the check clears are no longer retiring, and a nib whose bank is full is retiring
with its row (R409). -/
def checkRows (p : Nat) (checked : Option (Nat → Bool)) (s : State) : State :=
  forEach (getPNib s p).rowsDue (fun e s =>
    let due : Option Bool := if e.2 then some true else checked.map (fun stuck => stuck e.1)
    match due with
    | none => s
    | some false => modPNib p (fun q => { q with rowsDue := tabErase q.rowsDue e.1 }) s
    | some true =>
      let s := modPNib p (fun q => { q with rowsDue := tabInsert q.rowsDue e.1 true }) s
      if (freeRedundant s p (e.1 / 256)).isNone then nibRetiring p s else s) s

/-! ## Transplant (R410) -/

/-- Rows and slots that show a detection error are left invalid in the spare; the answer counts them. -/
def dropBadRows (n : Nib) : Nib × Nat :=
  let bad := n.rows.filter (fun p => match p.2 with
    | some c => decide (c.syn ≠ [])
    | none => false)
  (bad.foldl (fun n p => n.setCell p.1 none) n, bad.length)

/-- A spare not swept since power-up is swept alone, in place; what the sweep finds is open (log 38), and a spare that fails it is marked
failed and never inserted (R409); it is then the last sweep, and not passed (R427). -/
def sweepSpare (g : Nat) (s : State) : State :=
  let spare := 17 * g + 16
  let q := getPNib s spare
  if q.sweptOk ∨ noSpare s g then s
  else if Config.spareSweepOk s.free then takeFree (setPNib spare { q with sweptOk := true } s)
  else
    let s := takeFree (setPNib spare { q with failed := true, sweptOk := true } s)
    raise .seedbank 0 6 (.args spare (mapEntry 1 spare)) { s with seedbank := { s.seedbank with lastOk := false, lastSweep := g } }

/-- Steps 1 to 4: the logical nib moves to the spare, and the retired nib is gated. It takes at most 100 cycles of scrub, 555 of copy and
the drain of 64 FCLK cycles, within 660 (R421). -/
def moveToSpare (nib : Nat) (s : State) : State :=
  let g := nib / 16
  let p := physOf s nib
  let spare := 17 * g + 16
  let (n, lost) := dropBadRows (getNib s nib)
  let s := setNib nib n s
  let s := modPNib p (fun q => { q with retiring := false, retired := true }) s
  let s := modGrove g (fun x => { x with spareAt := some (nib % 16) }) s
  let s := mapAdd (mapEntry 1 p) s
  let s := raise .seedbank 0 4 ⟨none, some nib, spare + 2 ^ 11 * lost, mapEntry 1 p⟩ s
  loseCycles (getGrove s g).owner 660 s

/-- A retiring nib at a boundary: its state moves to the spare, or its grove retires where there is none to use (R21, R410, R412). -/
def transplantNib (nib : Nat) (s : State) : State :=
  let g := nib / 16
  let p := physOf s nib
  if !(getPNib s p).retiring ∨ !autoSpare s ∨ (getGrove s g).pw = .retired then s
  else
    let s := sweepSpare g s
    if noSpare s g then retireGrove true g (spareExhausted p s) else moveToSpare nib s

/-- A boundary of a grove outside a replay: it is free, or its context has no layer dispatched (R410). -/
def atBoundary (s : State) (g : Nat) : Bool :=
  match (getGrove s g).owner with
  | none => true
  | some c => (getCtx s c).phase == .none

/-- Everything pending on a grove, at a boundary. -/
def spareGrove (checked : Option (Nat → Nat → Bool)) (g : Nat) (s : State) : State :=
  if !autoSpare s then forEach (List.range 17) (fun k s => checkRows (17 * g + k) (checked.map (fun f => f (17 * g + k))) s) s
  else
    let s := forEach (List.range 17) (fun k s => retireRows (17 * g + k) (checked.map (fun f => f (17 * g + k))) s) s
    forEach (List.range 16) (fun i s => transplantNib (16 * g + i) s) s

/-! ## PLLs (R346) -/

/-- A grove's PLL in use has failed: the other one takes over, or the grove retires. -/
def pllFailed (g : Nat) (s : State) : State :=
  let x := getGrove s g
  let other := if x.pll = 0 then x.pllBad1 else x.pllBad0
  let s := setGrove g (if x.pll = 0 then { x with pllBad0 := true } else { x with pllBad1 := true }) s
  let s := mapAdd (mapEntry 2 (g + 64 * x.pll)) s
  if other then retireGrove false g (raise .clock 0 1 (.args g 0) s)
  else raise .clock 0 0 (.args g 0) (modGrove g (fun y => { y with pll := 1 - x.pll }) s)

end Sys2Proof.Machine
end

