-- ==== Sys2Proof/Machine/Finish.lean ====
section
/-! DEFINITION. How a layer ends, the overflow vote, and the save area (R242, R318, R331 to R336, R419). -/

namespace Sys2Proof.Machine

/-! ## The update control block's vote (R241, R242) -/

/-- A usable update control block address; one with bits 63:48 nonzero is none (DESIGN CHOICE, log 141). -/
def ucbOk (s : State) (c : Nat) : Bool := ucbVa s c != 0 && vaOk (ucbVa s c) 64

/-- OR bits into the vote of a step; a vote of another step is replaced. -/
def orVote (c step vote : Nat) (s : State) : Option VErr × State :=
  if !ucbOk s c then (none, s)
  else
    match vRead c (ucbVa s c + 0x18) 12 s with
    | (.error e, s) => (some e, s)
    | (.ok b, s) =>
      let old := if fieldOf b 0 8 = step then fieldOf b 8 4 else 0
      vWrite c (ucbVa s c + 0x18) (bytesOf 8 step ++ bytesOf 4 (old ||| vote)) s

/-! ## Litter faults and commits (R171 to R177) -/

/-- EVENT bit of a Litter fault's reason; the completion code is 0x0109 + bit. -/
def litBit (reason : Nat) : Nat := match reason with
  | 1 => 0 | 2 => 1 | 3 => 2 | 4 => 3 | 5 => 4 | 6 => 4 | _ => 2

/-- Bytes 0x20 to 0x3F of the segment control block (R171): a TOP, DEPTH or HIGH_WATER past 2^32 − 1 is written modulo 2^32 (DESIGN CHOICE, log
169). -/
def scbBytes (l : LitFrame) : List Byte :=
  bytesOf 4 l.top ++ bytesOf 4 l.depth ++ bytesOf 4 l.pushSeq ++ bytesOf 4 l.high ++ bytesOf 2 l.lastSeg ++ bytesOf 1 l.lastFault ++
  List.replicate 13 0

def writeScb (c : Nat) (l : LitFrame) (s : State) : Option VErr × State := vWrite c (scbVa s c + 0x20) (scbBytes l) s

/-- A Litter fault: LIT_LAST_FAULT, its count, the control block where it has been read, the Blotter, the context's fault. `arg` is STEP but
for LIT_SHORT. -/
def litFault (c reason : Nat) (nib : Option Nat) (arg : Nat) (s : State) : State :=
  let seg := match (getCtx s c).record with
    | some r => r.litSeg
    | none => 0
  let s := setR (regAt .litter 0 0x50) (reason + 8 * c + 2 ^ 11 * seg) (countEvent .litter (regAt .litter 0 0x4C) 31 0 s)
  let s := match (getCtx s c).lit with
    | some l => (writeScb c { l with lastFault := reason } s).2
    | none => s
  let s := raise .litter 0 (litBit reason) ⟨some c, nib, reason + 2 ^ 16 * seg, arg⟩ s
  ctxFault c (0x0109 + litBit reason) s

/-- What R188 has the Blotter show beside R422's arguments of a Litter fault, in an entry of its own before the event's (log 94). -/
def noteLitter (c reason : Nat) (nib : Option Nat) (a0 a1 : Nat) (s : State) : State :=
  logNow .litter 0 (litBit reason) ⟨some c, nib, reason + 2 ^ 16 * a0, a1⟩ s

/-- A translation fault of a Litter access of the device itself; an unreadable row or block fails the attempt. -/
def litError (c : Nat) (e : VErr) (s : State) : State := match e with
  | .page va r => pageFault c va r s
  | .data dpa => replayRow c dpa s

/-- Aperture rows counted by the plot's nibs (R174). -/
def pushSum (s : State) (plot : List Nat) : Nat := ((plotNibs plot).map (fun n => (getNib s n).pushes)).sum

/-- The header row of a pushed frame (R172). -/
def frameHeader (r : Record) (l : LitFrame) (writes : Nat) : List Byte :=
  bytesOf 2 r.litSeg ++ bytesOf 2 r.spatter ++ bytesOf 4 l.rows ++ bytesOf 8 r.step.toNat ++ bytesOf 4 l.frameSeq ++
  bytesOf 4 l.start ++ bytesOf 4 writes ++ List.replicate 484 0

/-- A window slot loses its contents. -/
def Nib.dropSlot (n : Nib) (f : Nat) : Nib := { n.setCell (4096 + f) none with slotTag := tabErase n.slotTag f }

/-- Slots whose tags meet a test are invalidated. -/
def dropSlots (drop : Nat × Nat × Nat → Bool) (n : Nib) : Nib :=
  (n.slotTag.filter (fun p => drop p.2)).foldl (fun n p => n.dropSlot p.1) n

/-- A push commits: header, then the stack state, modulo 2^32 (log 169). -/
def commitPush (c : Nat) (r : Record) (l : LitFrame) (s : State) : Bool × State :=
  let sum := pushSum s (getCtx s c).plot
  if sum ≠ l.rows then (false, litFault c 4 none (min (2 ^ 32 - 1) sum) s)
  else
    match vWrite c (l.regionVa + 512 * (l.start + l.rows)) (frameHeader r l sum) s with
    | (some e, s) => (false, litError c e s)
    | (none, s) =>
      let top := l.start + l.rows + 1
      match writeScb c { l with top := top, depth := (l.depth + 1) % 2 ^ 32, high := max l.high top } s with
      | (some e, s) => (false, litError c e s)
      | (none, s) => (true, bump (regAt .litter 0 0x44) 31 0 1 s)

/-- A pop commits: the stack state, then the frame's window slots go. -/
def commitPop (c : Nat) (l : LitFrame) (s : State) : Bool × State :=
  match writeScb c { l with top := l.start, depth := l.depth - 1 } s with
  | (some e, s) => (false, litError c e s)
  | (none, s) =>
    let s := forEach (s.nibs.map (fun p => p.1)) (fun n s => modNib n (dropSlots (fun t => t.1 == c && t.2.1 == l.frameSeq)) s) s
    (true, bump (regAt .litter 0 0x48) 31 0 1 s)

/-- The Litter commit of a layer that completes; the answer says whether the layer goes on. -/
def commitLitter (c : Nat) (s : State) : Bool × State :=
  let x := getCtx s c
  match x.record, x.lit with
  | some r, some l => if l.op = 1 then commitPush c r l s else if l.op = 2 then commitPop c l s else (true, s)
  | _, _ => (true, s)

/-! ## Completion of a layer (R318, R333, R334, R336) -/

/-- A layer that ran has completed: its engine time, ACC_LAYERS, and PRED_COUNTS 15:0 for one with prediction (R212, R339). -/
def countLayer (c : Nat) (r : Record) (s : State) : State :=
  let s := addPair (regAt .ctx c 0x80) 1 (chargeTime c s)
  if r.pred && bit (getCtx s c).image[4] 31 then bump (regAt .thin 0 0x54) 15 0 1 s else s

/-- Tiles leave the arrays (R77); vote, completion word, message; what is pending on the plot's groves is spared, for no layer is dispatched now
(R410); then NEXT is read under its watch, and a pass follows. -/
def endLayer (c code : Nat) (r : Record) (s : State) : State :=
  let x := getCtx s c
  let s := forEach (plotNibs (heldBy s c)) (fun n s => modNib n Nib.unloaded s) s
  let (code, bad, s) : Nat × Bool × State := match orVote c r.step.toNat x.vote s with
    | (some (.page va why), s) => (0x0200 + why, true, ptFault c va why s)
    | (_, s) => (code, false, s)
  if bad then ctxFault c code s
  else
    match putCompletion c code s with
    | (false, s) => enterFaulted c 0x0205 code (stopScribes c (countLayer c r s))
    | (true, s) =>
      let s := stopScribes c (countLayer c r s)
      let s := modCtx c (fun x =>
        { x with
            lastCode := code, lastPrio := recPrio s c, phase := .none, urgent := false, ligWait := false, lit := none
            upd := none }) s
      let s := if r.irq then ctxMessage c s else s
      let s := forEach (getCtx s c).plot (spareGrove none) s
      pass false (readNext c (modCtx c (fun x => { x with watch := some x.curRec }) s))

/-- A layer completes with a code: its Litter commit comes first. -/
def finishLayer (c code : Nat) (s : State) : State :=
  match (getCtx s c).record with
  | none => s
  | some r =>
    match commitLitter c s with
    | (true, s) => endLayer c code r s
    | (false, s) => s

/-! ## The save area (R331, R332) -/

/-- Apply an operation to the writable pieces of [va, va + n). -/
def vApply (c va n : Nat) (f : Nat → Nat → State → State) (s : State) : Option VErr × State :=
  match vTargets c va n s with
  | (.error e, s) => (some e, s)
  | (.ok ps, s) => (none, forEach ps (fun p s => f p.1 p.2 s) s)

/-- Save slot of plot rank r: r mod 16 of list index r div 16. -/
def slotVa (base r : Nat) : Nat := base + 2 ^ 21 + 40 * 2 ^ 20 * (r / 16) + 5 * 2 ^ 19 * (r % 16)

/-- Data of the valid rows lo to hi − 1, as (row, data). -/
def validRows (n : Nib) (lo hi : Nat) : List (Nat × Row) :=
  n.rows.filterMap (fun p => if lo ≤ p.1 ∧ p.1 < hi then p.2.map (fun c => (p.1, c.data)) else none)

/-- The 512 bytes of Inkwell row valid bits, bit r of the area for row r. -/
def validBits (n : Nib) : Nat :=
  let all := if n.zeroed then 2 ^ 4096 - 1 else 0
  n.rows.foldl (fun v p => if p.1 < 4096 then putBits v p.1 p.1 (if p.2.isSome then 1 else 0) else v) all

/-- Write Inkwell, Litter window and valid-bit areas of one save slot; an invalid row is written as zeros (log 28). -/
def writeSlotRows (c base r : Nat) (n : Nib) (s : State) : Option VErr × State :=
  let va := slotVa base r
  match vApply c va (2 ^ 21 + 512 * 512) memZero s with
  | (some e, s) => (some e, s)
  | (none, s) =>
    let s := forEach (validRows n 0 4608) (fun p s => (vWrite c (va + 512 * p.1) (bytesOfRow p.2) s).2) s
    vWrite c (va + 0x27_0580) (bytesOf 512 (validBits n)) s

/-- The areas of a save slot whose contents are internal: offset and bytes (R331). The window area's rows are written as rows. -/
def internalAreas : List (Nat × Nat) := [(0x24_0000, 4616), (0x24_2000, 49472), (0x24_F000, 131456), (0x27_0000, 1344), (0x27_0540, 64)]

/-- Bytes that a nib's save writes (R331). -/
def slotBytes : Nat := 2546760

/-- Save one nib: its rows, and the areas whose contents are internal. -/
def saveNib (c base r : Nat) (n : Nib) (s : State) : Option VErr × State :=
  match writeSlotRows c base r n s with
  | (some e, s) => (some e, s)
  | (none, s) =>
    let (e, s) := internalAreas.foldl (fun (acc : Option VErr × State) p =>
      match acc with
      | (some e, s) => (some e, s)
      | (none, s) => vApply c (slotVa base r + p.1) p.2 memBlur s) (none, s)
    (e, moveBytes c 0xA8 slotBytes s)

/-- The debug image of one nib (R419): rows and valid bits, zeros elsewhere. -/
def imageNib (c base r : Nat) (n : Nib) (s : State) : Option VErr × State :=
  match vApply c (slotVa base r + 0x24_0000) (5 * 2 ^ 19 - 0x24_0000) memZero s with
  | (some e, s) => (some e, s)
  | (none, s) => writeSlotRows c base r n s

/-- A nib as it is saved; one that has not joined the plot yet holds nothing. -/
def nibToSave (s : State) (c n : Nat) : Nib :=
  if (getGrove s (n / 16)).owner = some c then getNib s n else Nib.lost (getNib s n)

/-- Apply a per-nib save to every rank of a context's plot, stopping at the first error. -/
def saveAll (c : Nat) (f : Nat → Nib → State → Option VErr × State) : List (Nat × Nat) → State → Option VErr × State
  | [], s => (none, s)
  | (r, nib) :: t, s =>
    match f r (nibToSave s c nib) s with
    | (some e, s) => (some e, s)
    | (none, s) => saveAll c f t s

/-- Ranks of a plot with their logical nibs. -/
def ranked (plot : List Nat) : List (Nat × Nat) := (plotNibs plot).zipIdx.map (fun p => (p.2, p.1))

/-- Check every page of the save area for writing (R332): the first dispatch after HEAD. -/
def probeSave (c : Nat) (s : State) : Option VErr × State :=
  match vTargets c (saveVa s c) (2 ^ 21 + saveGroves s c * 40 * 2 ^ 20) s with
  | (.error e, s) => (some e, s)
  | (.ok _, s) => if vaOk (saveVa s c) (2 ^ 21) then (none, s) else (some (.page (saveVa s c) 4), s)

end Sys2Proof.Machine
end

