-- ==== Sys2Proof/Machine/Scribe.lean ====
section
/-! DEFINITION. The Scribe (R237 to R263): validation, norms, groups, statuses, outcomes, and its watchdog. -/

namespace Sys2Proof.Machine

/-! ## Reads and writes with their accounting (R339) -/

def scrRead (c va n : Nat) (s : State) : (Except VErr (List Byte)) × State :=
  match vRead c va n s with
  | (.ok b, s) => (.ok b, moveBytes c 0xA0 n s)
  | r => r

def scrWrite (c va : Nat) (data : List Byte) (s : State) : Option VErr × State :=
  match vWrite c va data s with
  | (none, s) => (none, moveBytes c 0xA8 data.length s)
  | r => r

/-! ## Descriptors (R239, R261) -/

def parseDesc (b : List Byte) : UpdDesc :=
  let ctrl := fieldOf b 0x58 4
  { p := fieldOf b 0 8, s := #v[fieldOf b 0x08 8, fieldOf b 0x10 8, fieldOf b 0x18 8], g := fieldOf b 0x20 8,
    sh := fieldOf b 0x28 8, tableVa := fieldOf b 0x30 8, stampVa := fieldOf b 0x38 8, listVa := fieldOf b 0x40 8,
    n := fieldOf b 0x48 4, listLen := fieldOf b 0x4C 4, clipMax := fieldOf b 0x50 4, gexp := sfieldOf b 0x54 2,
    clipAnchor := signed 10 (fieldOf b 0x56 2 % 1024), gfmt := bits ctrl 1 0, shfmt := bits ctrl 5 2, copper := bit ctrl 6,
    isLazy := bit ctrl 7, table := [] }

/-- Addresses of R239 that do not depend on the table, GFMT and SHFMT. -/
def descPlaces (d : UpdDesc) : Bool :=
  vaOk d.p 2048 && d.gfmt != 0 && decide (d.shfmt ≤ 4) && vaOk d.g (512 * d.gBytes) &&
  (d.shfmt == 0 || vaOk d.sh (512 * d.shBytes)) && vaOk d.tableVa (if d.copper then 16 else 128) &&
  (!d.isLazy || (vaOk d.stampVa 8 && vaOk d.listVa 4))

/-- Words of a Copperplate program below COUNT. -/
def copperWords (d : UpdDesc) : List Nat := (List.range (bits (d.word 0) 5 0)).map (fun k => d.word (20 + k))

/-- Operand fields that a word's OP uses. -/
def copperUses (w : Nat) : List Nat :=
  let sa := bits w 12 8
  let sb := bits w 17 13
  let sc := bits w 22 18
  match bits w 3 0 with
  | 2 => [sa, sb, sc]
  | 7 => [sa, sb, sc]
  | 3 => [sa]
  | 4 => [sa]
  | _ => [sa, sb]

/-- Reasons 3 to 5 of R261 for a table or image. -/
def tableReasons (d : UpdDesc) : List Nat :=
  if d.copper then
    let n := bits (d.word 0) 5 0
    let ws := copperWords d
    (if n = 0 ∨ 32 < n ∨ ws.any (fun w => decide (7 < bits w 3 0) || (copperUses w).any (fun x => decide (23 < x))) then [5] else []) ++
    (if ws.any (fun w => decide (bits w 3 0 ≤ 7) &&
        (copperUses w).any (fun x => decide (8 ≤ x) && decide (x ≤ 23) && !fin32 (d.word (4 + (x - 8))))) then [4] else [])
  else
    let ns := d.ns
    if ns = 0 ∨ d.nsel = 0 ∨ (d.nsel = 2 ∧ ns = 1) ∨ d.eph / 2 ^ ns ≠ 0 ∨ d.cflag / 2 ^ ns ≠ 0 then [3]
    else
      let rows := List.range ns
      let used := [d.lr, d.decay] ++ rows.map d.b ++ rows.map d.c ++ rows.flatMap (fun i => rows.map (d.a i)) ++
        (if d.nsel = 2 then [d.eps] else [])
      if used.all fin32 then [] else [4]

def clipBad (d : UpdDesc) : Bool := !fin32 d.clipMax || (bit d.clipMax 31 && d.clips)

def statesBad (d : UpdDesc) : Bool :=
  (List.range 3).any (fun i => d.stored i && !vaOk (vget 0 d.s i) 2048)

def strictly : List Nat → Bool
  | [] => true
  | [_] => true
  | a :: b :: t => decide (a < b) && strictly (b :: t)

/-- How phase 1 ends badly. -/
inductive UpdBad where
  /-- R261 -/
  | refuse (reason : Nat)
  /-- R258, R218 -/
  | err (e : VErr)
  deriving DecidableEq, Repr

def lowest (l : List Nat) : Option Nat := l.foldl (fun a x => some (match a with
  | none => x
  | some y => min x y)) none

/-- The lowest reason of R261 for a descriptor whose table has been read; `listed` are its list entries. -/
def descReason (d : UpdDesc) (listed : List Nat) : Option Nat :=
  lowest ((if statesBad d then [2] else []) ++ tableReasons d ++ (if clipBad d then [4] else []) ++
    (if d.isLazy && (d.copper || !strictly listed || listed.any (fun j => decide (d.groups ≤ j))) then [6] else []))

/-- Read one descriptor, its table or image and its list, and check them. -/
def loadDesc (c va : Nat) (s : State) : (Except UpdBad UpdDesc) × State :=
  match scrRead c va 0x60 s with
  | (.error e, s) => (.error (.err e), s)
  | (.ok b, s) =>
    let d := parseDesc b
    if !descPlaces d then (.error (.refuse 2), s)
    else
      match scrRead c d.tableVa (if d.copper then 208 else 128) s with
      | (.error e, s) => (.error (.err e), s)
      | (.ok tb, s) =>
        let d := { d with table := (elemsOf 4 tb).map (BitVec.ofNat 32) }
        if d.isLazy && !d.copper then
          match scrRead c d.listVa (4 * d.listLen) s with
          | (.error e, s) => (.error (.err e), s)
          | (.ok lb, s) => match descReason d (elemsOf 4 lb) with
            | some r => (.error (.refuse r), s)
            | none => (.ok d, s)
        else match descReason d [] with
          | some r => (.error (.refuse r), s)
          | none => (.ok d, s)

/-- Read and check descriptors from index i on; the answer of a bad one carries its index. -/
def loadDescs (c list : Nat) : Nat → Nat → State → (Except (Nat × UpdBad) (List UpdDesc)) × State
  | 0, _, s => (.ok [], s)
  | n + 1, i, s =>
    match loadDesc c (list + 128 * i) s with
    | (.error e, s) => (.error (i, e), s)
    | (.ok d, s) =>
      match loadDescs c list n (i + 1) s with
      | (.ok ds, s) => (.ok (d :: ds), s)
      | r => r

/-- A tensor at the start of a step. -/
def newTensor (step : Nat) (d : UpdDesc) : UpdTensor :=
  { d := d, normSum := 0, normNf := false, normSat := false, norm := 0, factor := 0x3F80_0000, clipped := false
    singular := !d.copper && d.cflag != 0 && (correction d step).isNone, normed := [], done := [], finished := false
    reported := false }

/-- The correction matrix in force: none for a Copperplate tensor, with no state corrected, or where it is singular. -/
def corrOf (d : UpdDesc) (step : Nat) : Option Mat :=
  if d.copper || d.cflag == 0 then none else correction d step

/-! ## Events and faults (R258, R261, R263) -/

/-- UPD_DATA_LOSS: counted and logged with the DPA. -/
def lossEvent (c idx dpa : Nat) (s : State) : State :=
  raise .scribe 0 5 (.of c (idx % 2 ^ 16) dpa) (countEvent .scribe (regAt .scribe 0 0x58) 31 16 s)

/-- UPD_INVALID with reason and descriptor index; the context faults with 0x0110. -/
def refuseUpdate (c reason idx step : Nat) (s : State) : State :=
  let s := countEvent .scribe (regAt .scribe 0 0x58) 15 0 s
  let s := setR (regAt .scribe 0 0x6C) (reason + 8 * (idx % 2 ^ 16)) s
  ctxFault c 0x0110 (raise .scribe 0 4 (.of c (idx % 2 ^ 16 + 2 ^ 16 * reason) step) s)

/-- A translation fault of an update, or an uncorrectable row in phases 1 to 3. -/
def updError (c idx : Nat) (e : VErr) (s : State) : State :=
  match e with
  | .page va r => pageFault c va r s
  | .data dpa => ctxFault c 0x0304 (lossEvent c idx dpa s)

/-- LAST_OUTCOME 4 of a refusal after the block was translated. -/
def ucbRefused (c : Nat) (b : List Byte) (s : State) : State := (scrWrite c (ucbVa s c) (putField b 0x28 4 4) s).2

/-! ## Skip and commit (R244) -/

/-- A skipped step: the block is written, STEP_SKIPPED and LS_FLOOR are raised. The answer says whether the block was written. -/
def skipStep (c step : Nat) (b : List Byte) (s : State) : Option VErr × State :=
  match scrWrite c (ucbVa s c) (Ucb.skip b step) s with
  | (some e, s) => (some e, s)
  | (none, s) =>
    let s := if Ucb.atFloor b then
        raise .scribe 0 2 (.of c (0xFFFF + 2 ^ 16 * wrap 16 (Ucb.lsExp b)) step) s
      else s
    (none, raise .scribe 0 1 (.of c 0xFFFF step) (countEvent .scribe (regAt .scribe 0 0x50) 15 0 s))

/-! ## Tensors (R239, R252) -/

def UpdTensor.unchangedSum (t : UpdTensor) : Nat := t.done.foldl (fun n g => n + g.unchanged) 0
def UpdTensor.lostSum (t : UpdTensor) : Nat := t.done.foldl (fun n g => n + (if g.lost then 1 else 0)) 0

/-- UST to LOST, bytes 0x60 to 0x7F. -/
def UpdTensor.status (t : UpdTensor) (step : Nat) : List Byte :=
  let b (x : Bool) (i : Nat) : Nat := if x then 2 ^ i else 0
  let ust := b t.singular 0 + b t.clipped 1 + b t.normSat 2 + b (t.unchangedSum != 0) 3 + b (t.lostSum != 0) 4 +
    b (t.done.any (fun g => g.stale)) 5
  bytesOf 4 ust ++ bytesOf 4 t.norm ++ bytesOf 4 t.factor ++ bytesOf 4 t.unchangedSum ++ bytesOf 8 step ++
    bytesOf 4 t.lostSum ++ bytesOf 4 0

/-- SCR_ELEM and SCR_UNCHANGED of a group, as it is done; a group that a rollback undoes counts again when it is redone (log 118). -/
def countGroup (g : UpdGroup) (s : State) : State :=
  bump (regAt .scribe 0 0x54) 31 0 g.unchanged (addPair (regAt .scribe 0 0x44) g.updated s)

/-- Counters and events of a finished tensor, given once (R249, R252, R262). -/
def reportTensor (c idx step : Nat) (t : UpdTensor) (s : State) : State :=
  let s := if t.singular then
      raise .scribe 0 0 (.of c (idx % 2 ^ 16) step) (countEvent .scribe (regAt .scribe 0 0x4C) 15 0 s)
    else s
  let s := if t.clipped then bump (regAt .scribe 0 0x4C) 31 16 1 s else s
  if t.unchangedSum = 0 then s
  else raise .scribe 0 3 (.of c (idx % 2 ^ 16) t.unchangedSum) s

/-- Elements updated by the groups done. -/
def UpdTensor.updated (t : UpdTensor) : Nat := t.done.foldl (fun n g => n + g.updated) 0

/-- Elements of the groups of list entries: a lazy tensor's group numbers are read back from its list. -/
def listedGroup (c : Nat) (d : UpdDesc) (e : Nat) (s : State) : (Except VErr Nat) × State :=
  if d.isLazy then
    match scrRead c (d.listVa + 4 * e) 4 s with
    | (.error x, s) => (.error x, s)
    | (.ok b, s) => (.ok (ofBytes b), s)
  else (.ok e, s)

/-- A tensor whose norm sum is complete. -/
def UpdTensor.normDue (t : UpdTensor) : Bool := t.d.clips && t.normed.length != t.work

/-- A finished norm put into its tensor; none for a non-finite norm. -/
def UpdTensor.withNorm (t : UpdTensor) : Option UpdTensor :=
  if !t.d.clips then some t
  else match normOf t.d.clipMax t.d.clipAnchor ⟨t.normSum, t.normNf⟩ with
    | none => none
    | some (norm, f, clipped, sat) => some { t with norm := norm, factor := f, clipped := clipped, normSat := sat }

/-! ## The control block (R241, R243, R261) -/

/-- Reason 1 of R261. -/
def ucbBad (b : List Byte) (step : Nat) : Bool :=
  let ok (x : Int) : Bool := decide (-126 ≤ x) && decide (x ≤ 127)
  decide (Ucb.lsMax b < Ucb.lsMin b) || decide (Ucb.lsExp b < Ucb.lsMin b) || decide (Ucb.lsMax b < Ucb.lsExp b) ||
  !ok (Ucb.lsExp b) || !ok (Ucb.lsMin b) || !ok (Ucb.lsMax b) || decide (step < Ucb.nextStep b)

/-- The update control block translated for reading and writing, and read: none where the layer has faulted. -/
def openUcb (c : Nat) (s : State) : Option (List Byte) × State :=
  match vTargets c (ucbVa s c) 64 s with
  | (.error e, s) => (none, updError c 0xFFFF e s)
  | (.ok _, s) =>
    match scrRead c (ucbVa s c) 48 s with
    | (.error e, s) => (none, updError c 0xFFFF e s)
    | (.ok b, s) => (some b, s)

/-! ## One group (R250, R254, R257) -/

/-- A group's stored values: master and states, as FP32 patterns. -/
structure GroupData where
  master : List Nat
  states : List (List Nat)
  deriving DecidableEq, Repr

/-- Read the rows of group j that hold master and stored states. -/
def readGroup (c : Nat) (d : UpdDesc) (j : Nat) (s : State) : (Except VErr GroupData) × State :=
  match scrRead c (d.p + 2048 * j) 2048 s with
  | (.error e, s) => (.error e, s)
  | (.ok mb, s) =>
    let (r, s) := (List.range d.ns).foldl (fun (acc : (Except VErr (List (List Nat))) × State) i =>
      match acc with
      | (.error e, s) => (.error e, s)
      | (.ok got, s) =>
        if d.stored i then
          match scrRead c (vget 0 d.s i + 2048 * j) 2048 s with
          | (.error e, s) => (.error e, s)
          | (.ok b, s) => (.ok (got ++ [elemsOf 4 b]), s)
        else (.ok (got ++ [List.replicate 512 0]), s)) (.ok [], s)
    match r with
    | .error e => (.error e, s)
    | .ok states => (.ok ⟨elemsOf 4 mb, states⟩, s)

/-- The new values of a group's elements. -/
structure GroupOut where
  outs : List ElemOut
  deriving DecidableEq, Repr

/-- Update the first n elements of a group; `grads` holds their gradient values. -/
def computeGroup (d : UpdDesc) (k idle : Option Mat) (ls : Int) (f n : Nat) (grads : List (Option Num)) (g : GroupData) :
    GroupOut :=
  ⟨(List.range n).map (fun e =>
    updElem d k idle ls f (grads.getD e none) ⟨g.master.getD e 0, g.states.map (fun l => l.getD e 0)⟩)⟩

def GroupOut.unchanged (o : GroupOut) : Nat := (o.outs.filter (fun x => x.unchanged)).length

/-- The group's rows after the update: elements beyond the tensor's end as read. -/
def GroupOut.master (o : GroupOut) (g : GroupData) : List Byte :=
  (o.outs.map (fun x => x.x.p) ++ g.master.drop o.outs.length).flatMap (bytesOf 4)

def GroupOut.state (o : GroupOut) (g : GroupData) (i : Nat) : List Byte :=
  (o.outs.map (fun x => x.x.ms.getD i 0) ++ (g.states.getD i []).drop o.outs.length).flatMap (bytesOf 4)

/-- Runs of updated elements with their narrow copies (R251, R252). -/
def narrowRuns (f : Fmt) (sat : Bool) : Nat → List ElemOut → List (Nat × List Byte)
  | _, [] => []
  | e, x :: t =>
    let rest := narrowRuns f sat (e + 1) t
    if x.unchanged then rest
    else
      let w := if f = .bf16 ∨ f = .fp16 then 2 else 1
      let b := bytesOf w (narrow f sat .ne (val32 x.x.p)).bits
      match rest with
      | (k, bs) :: r => if k = e + 1 then (e, b ++ bs) :: r else (e, b) :: rest
      | [] => [(e, b)]

/-- Writes of a group, in order: master, stored states, narrow copy. -/
def groupWrites (sat : Bool) (d : UpdDesc) (j : Nat) (g : GroupData) (o : GroupOut) : List (Nat × List Byte) :=
  (d.p + 2048 * j, o.master g) ::
    ((List.range d.ns).filter d.stored).map (fun i => (vget 0 d.s i + 2048 * j, o.state g i)) ++
    (match d.shFmt with
      | none => []
      | some f => (narrowRuns f sat 0 o.outs).map (fun r => (d.sh + 512 * d.shBytes * j + d.shBytes * r.1, r.2)))

/-- Write them all, stopping at the first translation fault. -/
def writeAll (c : Nat) : List (Nat × List Byte) → State → Option VErr × State
  | [], s => (none, s)
  | (va, b) :: t, s =>
    match scrWrite c va b s with
    | (some e, s) => (some e, s)
    | (none, s) => writeAll c t s

/-- Rows of bytes at a DPA. -/
def rowsAt (dpa : Nat) (b : List Byte) : List (Nat × Row) :=
  (List.range (b.length / 512)).map (fun i => (dpa + 512 * i, rowOfBytes ((b.drop (512 * i)).take 512)))

/-- The rows of group j as they stand, by DPA (R257). -/
def imageRows (c : Nat) (d : UpdDesc) (j : Nat) (g : GroupData) (s : State) : List (Nat × Row) × State :=
  let one (va : Nat) (vals : List Nat) (acc : List (Nat × Row) × State) : List (Nat × Row) × State :=
    match translate c va true acc.2 with
    | (.inr _, s) => (acc.1, s)
    | (.inl dpa, s) => (acc.1 ++ rowsAt dpa (vals.flatMap (bytesOf 4)), s)
  ((List.range d.ns).filter d.stored).foldl (fun acc i => one (vget 0 d.s i + 2048 * j) (g.states.getD i []) acc)
    (one (d.p + 2048 * j) g.master ([], s))

/-- Keep a pre-image, the newest first, for 256 later groups: only groups that have one count (R257; DESIGN CHOICE, log 179). -/
def keepImage (mc : Nat) (p : PreImage) (s : State) : State :=
  modScribe mc (fun x => { x with pre := (p :: x.pre).take 256 }) s

/-- Read n gradient elements of a group from its packed place e. -/
def readGrads (c : Nat) (d : UpdDesc) (e n : Nat) (s : State) : (Except VErr (List (Option Num))) × State :=
  match scrRead c (d.g + 512 * d.gBytes * e) (512 * d.gBytes) s with
  | (.error x, s) => (.error x, s)
  | (.ok b, s) => (.ok (((elemsOf d.gBytes b).take n).map (fun raw => some (gradValue d.gfmt d.gexp raw))), s)

/-- A lazy group's stamp and its DPA; 0 for a dense tensor. -/
def readStamp (c : Nat) (d : UpdDesc) (j : Nat) (s : State) : (Except VErr (Nat × Nat)) × State :=
  if d.isLazy then
    match scrRead c (d.stampVa + 8 * j) 8 s with
    | (.error e, s) => (.error e, s)
    | (.ok b, s) => match translate c (d.stampVa + 8 * j) true s with
      | (.inr r, s) => (.error (.page (d.stampVa + 8 * j) r), s)
      | (.inl a, s) => (.ok (ofBytes b, a), s)
  else (.ok (0, 0), s)

/-- Everything a group reads. -/
structure GroupIn where
  stamp : Nat
  stampDpa : Nat
  data  : GroupData
  grads : List (Option Num)
  deriving DecidableEq, Repr

def readWork (c : Nat) (d : UpdDesc) (e j : Nat) (s : State) : (Except VErr GroupIn) × State :=
  match readStamp c d j s with
  | (.error x, s) => (.error x, s)
  | (.ok (st, dpa), s) =>
    match readGroup c d j s with
    | (.error x, s) => (.error x, s)
    | (.ok g, s) =>
      match readGrads c d e (d.inGroup j) s with
      | (.error x, s) => (.error x, s)
      | (.ok gr, s) => (.ok ⟨st, dpa, g, gr⟩, s)

/-- The Scribe that owns group j: that of the controller of its master row (R240). -/
def groupOwner (c : Nat) (d : UpdDesc) (j : Nat) (s : State) : (Except VErr Nat) × State :=
  match translate c (d.p + 2048 * j) false s with
  | (.inr r, s) => (.error (.page (d.p + 2048 * j) r), s)
  | (.inl dpa, s) => (.ok (mcOf dpa), s)

end Sys2Proof.Machine
end

