-- ==== Sys2Proof/Machine/LigOps.lean ====
section
/-! DEFINITION. Operations of the Ligature engine: trees, packets, buckets, agreement, reduction, owners, verdict and abandonment
(R285 to R308). -/

namespace Sys2Proof.Machine

/-! ## Registers and state (R309) -/

def bucketMib (s : State) : Nat := getF s (regAt .ligature 0 0x40) 6 0
def circleCtx (s : State) : Nat := getF s (regAt .ligature 0 0x44) 7 0
def circleCtxValid (s : State) : Bool := bit (getR s (regAt .ligature 0 0x44)) 8
def ccbVa (s : State) : Nat := cfgPair s (regAt .ligature 0 0x48)

def modLig (f : Lig → Lig) (s : State) : State := { s with lig := f s.lig }
def modStep (f : LigStep → LigStep) (s : State) : State := modLig (fun l => { l with open_ := l.open_.map f }) s
def modBucket (b : Nat) (f : Bucket → Bucket) (s : State) : State :=
  modStep (fun w => { w with buckets := w.buckets.mapIdx (fun i x => if i = b then f x else x) }) s
def getBucket (w : LigStep) (b : Nat) : Option Bucket := w.buckets[b]?

/-- An event of the engine: ARG0 abandon reason, ARG1 STEP. -/
def ligEvent (ev arg0 step : Nat) (s : State) : State := raise .ligature 0 ev (.args arg0 step) s

/-! ## Canonical trees (R289) -/

def treeLevels (n : Nat) : Nat := if n ≤ 1 then 0 else Nat.log2 (n - 1) + 1

/-- Position of rank r in the tree with root k. -/
def treePos (n k r : Nat) : Nat := (r + n - k) % n

/-- The level at which a position sends up; the number of levels for the root. -/
def stopLevel (n q : Nat) : Nat :=
  ((List.range (treeLevels n)).find? (fun l => q % 2 ^ (l + 1) == 2 ^ l)).getD (treeLevels n)

/-- The rank whose level-l partial rank r receives, if there is one. -/
def childAt (n k r l : Nat) : Option Nat :=
  let q := treePos n k r
  if l < stopLevel n q ∧ q + 2 ^ l < n then some ((q + 2 ^ l + k) % n) else none

/-- The rank that rank r sends its partial to. -/
def parentOf (n k r : Nat) : Option Nat :=
  let q := treePos n k r
  if q = 0 then none else some ((q - 2 ^ stopLevel n q + k) % n)

def childLevels (n k r : Nat) : List Nat := (List.range (treeLevels n)).filter (fun l => (childAt n k r l).isSome)

/-- The order in which a broadcast goes to the children: from the highest level down. -/
def downLevels (n k r : Nat) : List Nat := (childLevels n k r).reverse

/-! ## Members -/

def Circle.n (c : Circle) : Nat := c.members.length
def Circle.ord (c : Circle) (r : Nat) : Nat := (c.members.getD r (0, 0)).1
def Circle.rankOf (c : Circle) (ord : Nat) : Option Nat := c.members.findIdx? (fun m => m.1 == ord)
def Circle.hop (c : Circle) (ord : Nat) : Option Nat := (c.members.find? (fun m => m.1 == ord)).map (fun m => m.2)
def Circle.mirror (c : Circle) : Bool := bit c.flags 1

/-! ## Packets (R306, R307) -/

/-- The fields of a TYPE 1 header. -/
structure LigHead where
  lop    : Nat
  bs8    : Bool
  sel    : Nat
  src    : Nat
  dst    : Nat
  root   : Nat
  step   : Nat
  epoch  : Nat
  bucket : Nat
  level  : Nat
  hops   : Nat
  offset : Nat
  count  : Nat
  ls     : Nat
  reason : Nat
  elems  : Nat
  groups : Nat
  deriving DecidableEq, Repr

def LigHead.zero : LigHead := ⟨0, false, 0, 0, 0, 0, 0, 0, 0, 0, 0, 0, 0, 0, 0, 0, 0⟩

def unitField (u : LinkUnit) (off n : Nat) : Nat := bits u.toNat (8 * (off + n) - 1) (8 * off)

def parseHead (u : LinkUnit) : LigHead :=
  { lop := unitField u 16 1, bs8 := bit (unitField u 17 1) 0, sel := bits (unitField u 17 1) 3 2, src := unitField u 18 2,
    dst := unitField u 20 2, root := unitField u 22 2, step := unitField u 24 8, epoch := unitField u 32 4,
    bucket := unitField u 36 2, level := unitField u 38 1, hops := unitField u 39 1, offset := unitField u 40 4,
    count := unitField u 44 2, ls := unitField u 48 2, reason := unitField u 50 2, elems := unitField u 52 4,
    groups := unitField u 56 2 }

/-- Payload bytes padded to whole units. -/
def payloadUnits (b : List Byte) : List LinkUnit :=
  (List.range ((b.length + 63) / 64)).map (fun i => unitOfBytes ((b.drop (64 * i)).take 64))

def buildPacket (h : LigHead) (payload : List Byte) : List LinkUnit :=
  let us := payloadUnits payload
  headerUnit 1 us.length
    (bytesOf 1 h.lop ++ bytesOf 1 ((if h.bs8 then 1 else 0) + 4 * h.sel) ++ bytesOf 2 h.src ++ bytesOf 2 h.dst ++
      bytesOf 2 h.root ++ bytesOf 8 h.step ++ bytesOf 4 h.epoch ++ bytesOf 2 h.bucket ++ bytesOf 1 h.level ++
      bytesOf 1 h.hops ++ bytesOf 4 h.offset ++ bytesOf 2 h.count ++ bytesOf 2 0 ++ bytesOf 2 h.ls ++ bytesOf 2 h.reason ++
      bytesOf 4 h.elems ++ bytesOf 2 h.groups ++ bytesOf 6 0) :: us

def payloadOf (pkt : List LinkUnit) : List Byte := (pkt.drop 1).flatMap bytesOfUnit

/-- ACTIVE ports that reach an ordinal. -/
def portsTo (s : State) (hop : Nat) : List Nat :=
  (List.range 16).filter (fun p =>
    let x := getPort s p
    x.st == .active && x.enable && x.peer.valid && x.peer.ordinal == hop)

/-- Put a packet on the next ACTIVE port of the round robin towards a next hop (R287). -/
def queueOn (hop : Nat) (pkt : List LinkUnit) (s : State) : Option State :=
  let ps := portsTo s hop
  let last := tabGet 16 s.lig.robin hop
  match (ps.filter (fun p => decide (last < p)) ++ ps).head? with
  | none => none
  | some p => some (modPort p (fun x => { x with txQ := x.txQ ++ [pkt] })
      (modLig (fun l => { l with robin := tabInsert l.robin hop p }) s))

/-- Bytes of a packet of this circle, counted for its context (R339). -/
def countPeer (pkt : List LinkUnit) (s : State) : State :=
  match s.lig.open_ with
  | some w => moveBytes w.ctx 0xB8 (64 * pkt.length) s
  | none => s

/-- Send a packet of this device to a member; it waits while no ACTIVE port reaches the next hop (R301, R305). -/
def sendTo (c : Circle) (dst : Nat) (pkt : List LinkUnit) (s : State) : State :=
  let hop := (c.hop dst).getD dst
  let s := countPeer pkt s
  match queueOn hop pkt s with
  | some s => s
  | none => modLig (fun l => { l with waiting := l.waiting ++ [(hop, pkt)] }) s

/-- Packets that waited leave on ports that have become ACTIVE. -/
def flushWaiting (s : State) : State :=
  let w := s.lig.waiting
  w.foldl (fun s x => match queueOn x.1 x.2 s with
    | some s => s
    | none => modLig (fun l => { l with waiting := l.waiting ++ [x] }) s) (modLig (fun l => { l with waiting := [] }) s)

/-- A header of the open step towards a member. -/
def stepHead (s : State) (c : Circle) (w : LigStep) (lop dst root bucket level : Nat) : LigHead :=
  { lop := lop, bs8 := w.bs8, sel := 0, src := ownOrdinal s, dst := dst, root := root, step := w.step, epoch := c.epoch.toNat,
    bucket := bucket, level := level, hops := 0, offset := 0, count := 0, ls := 0, reason := 0, elems := 0, groups := 0 }

/-- Cut values into runs of at most k, each with its offset. -/
def chunks (k : Nat) (off : Nat) (vals : List Int) : List (Nat × List Int) :=
  (List.range ((vals.length + k - 1) / k)).map (fun i => (off + k * i, (vals.drop (k * i)).take k))

/-- Send values in packets of at most k items of w bytes. -/
def sendVals (c : Circle) (h : LigHead) (k w off : Nat) (vals : List Int) (s : State) : State :=
  forEach (chunks k off vals) (fun x s =>
    sendTo c h.dst (buildPacket { h with offset := x.1, count := x.2.length } (x.2.flatMap (fun v => bytesOf w (wrap (8 * w) v)))) s) s

/-- Values of a payload, w bytes each, signed or not. -/
def payloadVals (h : LigHead) (w : Nat) (sgn : Bool) (pkt : List LinkUnit) : List Int :=
  ((elemsOf w ((payloadOf pkt).take (w * h.count))).take h.count).map (fun v => if sgn then signed (8 * w) v else (v : Int))

/-! ## Groups of the step (R292, R293) -/

/-- (descriptor, group) of every group of the step, in order. -/
def stepGroups (w : LigStep) : List (Nat × Nat) :=
  w.tensors.zipIdx.flatMap (fun p => (List.range p.1.d.groups).map (fun j => (p.2, j)))

def groupPlace (w : LigStep) (g : Nat) : Nat × Nat := (stepGroups w).getD g (0, 0)

def stepTensor (w : LigStep) (i : Nat) : Option UpdTensor := w.tensors[i]?

/-- Bytes of a group of a descriptor. -/
def groupSize (w : LigStep) (i : Nat) : Nat := match stepTensor w i with
  | some t => 512 * t.d.gBytes
  | none => 0

def bucketBytes (w : LigStep) (b : Bucket) : Nat :=
  ((List.range b.groups).map (fun k => groupSize w (groupPlace w (b.first + k)).1)).foldl (· + ·) 0

/-- Elements of a bucket. -/
def bucketElems (w : LigStep) (b : Bucket) : Nat :=
  ((List.range b.groups).map (fun k =>
    let (i, j) := groupPlace w (b.first + k)
    match stepTensor w i with
    | some t => t.d.inGroup j
    | none => 0)).foldl (· + ·) 0

/-- Relative groups owned by a rank: the first and the one after the last. -/
def ownedBy (n g k : Nat) : Nat × Nat := (k * g / n, (k + 1) * g / n)

/-- Owner-area bytes of a group. -/
def ownerBytes (w : LigStep) (i : Nat) : Nat := match stepTensor w i with
  | none => 0
  | some t => if t.d.clips then (if w.bs8 then 2048 else 4096)
      else 2048 * (1 + ((List.range t.d.ns).filter t.d.stored).length)

/-! ## Gradient values -/

/-- The 512 gradient values of a group; elements beyond the tensor's end are 0. -/
def groupGrads (c : Nat) (w : LigStep) (g : Nat) (s : State) : (Except VErr (List Num)) × State :=
  let (i, j) := groupPlace w g
  match stepTensor w i with
  | none => (.ok [], s)
  | some t =>
    match readGrads c t.d j (t.d.inGroup j) s with
    | (.error e, s) => (.error e, s)
    | (.ok l, s) =>
      let vs := l.map (fun x => x.getD .nan)
      (.ok (vs ++ List.replicate (512 - vs.length) (.fin false 0 0)), s)

/-- The gradients of a bucket's groups lo to hi − 1. -/
def bucketGrads (c : Nat) (w : LigStep) (b : Bucket) : List Nat → State → (Except VErr (List (List Num))) × State
  | [], s => (.ok [], s)
  | k :: t, s =>
    match groupGrads c w (b.first + k) s with
    | (.error e, s) => (.error e, s)
    | (.ok v, s) =>
      match bucketGrads c w b t s with
      | (.error e, s) => (.error e, s)
      | (.ok vs, s) => (.ok (v :: vs), s)

/-- The exponent that a member proposes for a group (R295). -/
def proposeExp (vs : List Num) : Int :=
  if vs.any (fun v => !v.isFin) then 0x7FFF
  else vs.foldl (fun a v => match v with
    | .fin _ m e => if m = 0 then a else max a (floorLog2 m e)
    | _ => a) (-32768)

/-- The scale bytes that a member proposes for the 16 blocks of a group (R296). -/
def proposeScales (vs : List Num) : List Int :=
  (List.range 16).map (fun b => ((toBlock false (((vs.drop (32 * b)).take 32).map (fun v => (v, .ne)))).scale : Int))

/-- round_ne(v × 2^k). -/
def roundInt (v : Num) (k : Int) : Int :=
  match v with
  | .fin s m e => let n : Int := roundShift .ne m (e + k); if s then -n else n
  | _ => 0

/-- Contribution to a group in integer mode. -/
def contribInt (E : Int) (vs : List Num) : List Int := vs.map (fun v => roundInt v (55 - E))

/-- Contribution to a group in BS8 mode: an infinity clamps, and a NaN, for which R296's formula states no value, sends an open one
(`place` numbers the group's elements in the step; log 140). -/
def contribBs8 (step place : Nat) (Es : List Int) (vs : List Num) : List Int :=
  vs.zipIdx.map (fun p => max (-127) (min 127 (match p.1 with
    | .nan => (Config.nanItem step (place + p.2)).toInt
    | .inf neg => if neg then -127 else 127
    | .fin _ _ _ => roundInt p.1 (133 - Es.getD (p.2 / 32) 0))))

/-- Whether a contribution of a block clamps. -/
def clampsBs8 (E : Int) (vs : List Num) : Bool := vs.any (fun v => decide (127 < (roundInt v (133 - E)).natAbs))

/-- round_ne(x ÷ 2). -/
def halfNe (x : Int) : Int := if x % 2 = 0 then x / 2 else if (x / 2) % 2 = 0 then x / 2 else x / 2 + 1

/-! ## Received items -/

/-- Items received for a bucket on one tree at one level. -/
def partsAt (b : Bucket) (lop root level sel : Nat) : List LigPart :=
  b.parts.filter (fun p => p.lop == lop && p.root == root && p.level == level && p.sel == sel)

def partCount (ps : List LigPart) : Nat := ps.foldl (fun n p => n + p.vals.length) 0

/-- The item at an index; 0 where nothing was sent. -/
def partItem (ps : List LigPart) (i : Nat) : Int :=
  match ps.find? (fun p => decide (p.offset ≤ i) && decide (i < p.offset + p.vals.length)) with
  | some p => p.vals.getD (i - p.offset) 0
  | none => 0

def partItems (ps : List LigPart) (off n : Nat) : List Int := (List.range n).map (fun i => partItem ps (off + i))

/-- Scale items of a bucket: one per group, or one per block. -/
def scaleItems (w : LigStep) (b : Bucket) : Nat := if w.bs8 then 16 * b.groups else b.groups

/-- Agreed exponent of a relative group, or agreed scales of its blocks. -/
def agreedExp (b : Bucket) (k : Nat) : Int := b.agreed.getD k 0
def agreedScales (b : Bucket) (k : Nat) : List Int := (b.agreed.drop (16 * k)).take 16

/-- A group that sends nothing: overflowed in integer mode. -/
def sendsNothing (w : LigStep) (b : Bucket) (k : Nat) : Bool := !w.bs8 && agreedExp b k == 0x7FFF

/-! ## Bucket headers (R308) -/

def bucketHeader (s : State) (c : Circle) (w : LigStep) (i : Nat) (b : Bucket) (state : Nat) : List Byte :=
  let (d0, j0) := groupPlace w b.first
  let (d1, _) := groupPlace w (b.first + b.groups - 1)
  let (lo, hi) := ownedBy c.n b.groups c.rank
  bytesOf 8 w.step ++ bytesOf 2 i ++ bytesOf 1 (if w.bs8 then 1 else 0) ++ bytesOf 1 state ++ bytesOf 2 d0 ++ bytesOf 2 d1 ++
    bytesOf 4 j0 ++ bytesOf 4 b.groups ++ bytesOf 4 lo ++ bytesOf 4 (hi - lo) ++ bytesOf 4 b.bst ++ bytesOf 4 0 ++
    bytesOf 8 b.tReady ++ bytesOf 8 b.tAgreed ++ bytesOf 8 (now s)

/-- A translation fault or an uncorrectable row met by the engine: the circle's context faults (log 31). -/
def ligError (c : Nat) (e : VErr) (s : State) : State :=
  let x := getCtx s c
  if x.st = .running ∨ x.st = .ready then updError c 0xFFFF e s
  else if x.st = .parked then
    match e with
    | .page va r => ctxFaultQuiet c (0x0200 + r) 0 (ptFault c va r s)
    | .data dpa => ctxFaultQuiet c 0x0304 0 (lossEvent c 0xFFFF dpa s)
  else s

def ligWrite (c va : Nat) (b : List Byte) (s : State) : State :=
  match scrWrite c va b s with
  | (some e, s) => ligError c e s
  | (none, s) => s

/-- Write a bucket's header with a state. -/
def putHeader (i state : Nat) (s : State) : State :=
  match s.lig.circle, s.lig.open_ with
  | some c, some w =>
    match getBucket w i with
    | none => s
    | some b =>
      let t := now s
      let s' := modBucket i (fun b => { b with header := state, tDone := t }) s
      if c.statusLen = 0 then takeFree s'
      else takeFree (ligWrite w.ctx (c.statusVa + 64 * (i % c.statusLen)) (bucketHeader s c w i b state) s')
  | _, _ => s

/-! ## Restoring and abandoning (R300, R301, R303) -/

/-- Write one pre-image of the owner area back to its rows. -/
def restoreSlot (c : Circle) (w : LigStep) (o : OwnerSlot) (s : State) : State :=
  if o.staged then s
  else
    let (i, j) := groupPlace w o.group
    match stepTensor w i with
    | none => s
    | some t =>
      let vas := (t.d.p + 2048 * j) :: ((List.range t.d.ns).filter t.d.stored).map (fun k => vget 0 t.d.s k + 2048 * j)
      forEach vas.zipIdx (fun x s =>
        match scrRead w.ctx (c.ownerVa + o.off + 2048 * x.2) 2048 s with
        | (.error e, s) => ligError w.ctx e s
        | (.ok b, s) => ligWrite w.ctx x.1 b s) s

def restoreAll (s : State) : State :=
  match s.lig.circle, s.lig.open_ with
  | some c, some w => forEach w.owner (restoreSlot c w) s
  | _, _ => s

/-- Every bucket that was formed is CLOSED with a state. -/
def closeBuckets (state : Nat) (s : State) : State :=
  match s.lig.open_ with
  | none => s
  | some w => forEach (List.range w.buckets.length) (fun i s =>
      putHeader i state (modBucket i (fun b => { b with st := .closed }) s)) s

/-- The open step ends; its outcome is recorded, and every bucket that was formed is CLOSED. Packets that still wait for an ACTIVE port
go out when there is one (R278, R300). -/
def endStep (outcome : Nat) (s : State) : State :=
  match s.lig.open_ with
  | none => s
  | some w =>
    let s := modLig (fun l =>
      { l with open_ := none, abandoned := false, outcome := outcome, lastStep := w.step, ownedCount := l.formed }) s
    dropOwned s

/-- Write LAST_OUTCOME 3. -/
def ucbVeto (c : Nat) (s : State) : State := if ucbOk s c then ligWrite c (ucbVa s c + 0x28) (bytesOf 4 3) s else s

/-- ABORT on every ACTIVE port whose partner is a member. -/
def sendAborts (c : Circle) (det step reason : Nat) (s : State) : State :=
  forEach (List.range 16) (fun p s =>
    let x := getPort s p
    if x.st = .active ∧ x.enable ∧ x.peer.valid ∧ (c.rankOf x.peer.ordinal).isSome then
      let h : LigHead := { LigHead.zero with
        lop := 7, bs8 := s.lig.lastBs8, src := ownOrdinal s, dst := x.peer.ordinal, root := det, step := step, epoch := c.epoch.toNat
        reason := reason }
      setPort p { x with txQ := x.txQ ++ [buildPacket h []] } s
    else s) s

/-- A context's close layer waits on the circle now; one that was pre-empted meets the outcome when it resumes (R305). -/
def closeWaits (s : State) (c : Nat) : Bool :=
  let x := getCtx s c
  x.ligWait && x.st == .running && x.phase == .running

/-- The member abandons its open step (R301): `det` is the detecting ordinal, and the ABORT that it sends carries `sent`'s STEP and
REASON, those of the ABORT that it forwards, or else its own. After CLOSE was sent or the verdict issued, the close layer ends with
LIG_DIVERGED (R303). -/
def abandonWith (reason det : Nat) (sent : Option (Nat × Nat)) (s : State) : State :=
  match s.lig.circle, s.lig.open_ with
  | some c, some w =>
    let note := sent.getD (w.step, reason)
    let div := w.closeSent || w.verdict == 1
    let s := countPeer [] s
    let s := if det = ownOrdinal s then
        forEach (List.range w.buckets.length) (fun i s => modBucket i (fun b => { b with bst := b.bst ||| 16 }) s) s
      else s
    let s := sendAborts c det note.1 note.2 s
    let s := if w.verdict = 1 then s else restoreAll s
    let s := if w.verdict = 1 then s else closeBuckets 7 s
    let waits := closeWaits s w.ctx
    let s := if w.verdict = 1 then s else ucbVeto w.ctx s
    let s := endStep (if w.verdict = 1 then 1 else 3) s
    let s := modLig (fun l =>
      { l with
          abandoned := true, waiting := if w.verdict = 0 then [] else l.waiting, reason := reason, detOrd := det,
          diverged := div, seen := (det, note.1) :: l.seen,
          dead := if waits then none else some (w.ctx, w.step, if div then 0x0401 else 3) }) s
    let s := if w.verdict = 1 then s else countEvent .ligature (regAt .ligature 0 0x64) 31 16 s
    let s := ligEvent (if div then 2 else 0) reason w.step s
    if waits then
      (if div then ctxFault w.ctx 0x0401 s else finishLayer w.ctx 3 s)
    else s
  | _, _ => s

/-- The member abandons its open step for a reason that it found itself. -/
def abandonStep (reason det : Nat) (s : State) : State := abandonWith reason det none s

/-- LIG_INVALID with its reason; the layer's context faults with 0x0111. -/
def ligInvalid (c reason step : Nat) (s : State) : State :=
  let s := ligEvent 1 reason step (modLig (fun l => { l with invalid := reason }) s)
  ctxFault c 0x0111 s

/-! ## Votes -/

/-- Overflow of groups or blocks that this member owns: RED_OVERFLOW, and vote bit 2 (R242, R295). -/
def redOverflow (b : Nat) (s : State) : State :=
  match s.lig.open_ with
  | none => s
  | some w =>
    let s := modBucket b (fun x => { x with bst := x.bst ||| 4 }) s
    let s := modStep (fun w => { w with votes := w.votes ||| 4 }) s
    let s := ligEvent 4 0 w.step s
    match orVote w.ctx w.step 4 s with
    | (some e, s) => ligError w.ctx e s
    | (none, s) => s

/-! ## Owners (R297) -/

/-- Overflowed elements of an owned group in BS8 mode, one bit per block: E = 0xFF, a scale beyond 254, or a clamp of this
member's own contribution. -/
def blockOvf (n : Nat) (Es : List Int) (own : List Num) : Nat :=
  (List.range 16).foldl (fun m b =>
    let E := Es.getD b 0
    if E = 0xFF ∨ E + treeLevels n > 254 ∨ clampsBs8 E ((own.drop (32 * b)).take 32) then m + 2 ^ b else m) 0

/-- The staged bytes, and the exact values, of a group's sum. -/
def sumValues (w : LigStep) (n : Nat) (b : Bucket) (k : Nat) (sum : List Int) : List Num :=
  if w.bs8 then sum.zipIdx.map (fun p => numOfInt p.1 ((agreedScales b k).getD (p.2 / 32) 0 + treeLevels n - 133))
  else
    let E := agreedExp b k
    let gexp := if E = -32768 then 0 else E - 55
    sum.map (fun v => numOfInt v gexp)

/-- Values with overflowed elements taken out. -/
def maskValues (whole : Bool) (ovf : Nat) (vs : List Num) : List (Option Num) :=
  vs.zipIdx.map (fun p => if whole || bit ovf (p.2 / 32) then none else some p.1)

/-- Note a group's result in the step's tensor. -/
def noteOwned (i : Nat) (g : UpdGroup) (s : State) : State :=
  modStep (fun w => { w with tensors := w.tensors.mapIdx (fun k t => if k = i then { t with done := t.done ++ [g] } else t) })
    (countGroup g s)

/-- The Scribe of R240 takes an owned group (R293): it keeps the group's rows as they stand (R257). -/
def takeOwned (c i j : Nat) (d : UpdDesc) (g : GroupData) (s : State) : State :=
  match groupOwner c d j s with
  | (.error _, s) => s
  | (.ok mc, s) =>
    let (rows, s) := imageRows c d j g s
    keepImage mc ⟨true, c, i, j, rows, none⟩ (modScribe mc (fun y => { y with stalled := none }) s)

/-- Apply R250 to an owned group with factor f (R297, R300). -/
def ownerApply (b i j : Nat) (f : Nat) (grads : List (Option Num)) (g : GroupData) (s : State) : State :=
  match s.lig.open_ with
  | none => s
  | some w =>
    match stepTensor w i with
    | none => s
    | some t =>
      let n := t.d.inGroup j
      let o := computeGroup t.d (corrOf t.d w.step) none w.lsExp f n grads g
      let s := takeOwned w.ctx i j t.d g s
      let s := match writeAll w.ctx (groupWrites (fp8Sat s) t.d j g o) s with
        | (some e, s) => ligError w.ctx e s
        | (none, s) => s
      let s := modBucket b (fun x =>
        { x with bst := x.bst ||| (if t.singular then 1 else 0) ||| (if o.unchanged = 0 then 0 else 8) }) s
      noteOwned i ⟨j, n - o.unchanged, o.unchanged, false, false⟩ s

/-- Owner-area bytes of the first n groups that a rank owns in a bucket. -/
def ownedBytes (c : Circle) (w : LigStep) (x : Bucket) (n : Nat) : Nat :=
  let lo := (ownedBy c.n x.groups c.rank).1
  ((List.range n).map (fun k => ownerBytes w (groupPlace w (x.first + lo + k)).1)).foldl (· + ·) 0

/-- Groups that this member owns in a bucket. -/
def ownedCountOf (c : Circle) (x : Bucket) : Nat := (ownedBy c.n x.groups c.rank).2 - (ownedBy c.n x.groups c.rank).1

/-- Where the owner area of bucket b begins: buckets take it in their order (R297). -/
def ownerStart (c : Circle) (w : LigStep) (b : Nat) : Nat :=
  (w.buckets.take b).foldl (fun n x => n + ownedBytes c w x (ownedCountOf c x)) 0

/-- One owned group whose sum is complete: a pre-image and the update, or the staged sum and the norm partial. The slot is the group's once
its pre-image or its sum is there. -/
def ownGroup (b k : Nat) (sum : List Int) (own : List Num) (s : State) : State :=
  match s.lig.circle, s.lig.open_ with
  | some c, some w =>
    match getBucket w b with
    | none => s
    | some x =>
      let gi := x.first + k
      let (i, j) := groupPlace w gi
      match stepTensor w i with
      | none => s
      | some t =>
        let whole := sendsNothing w x k
        let ovf := if w.bs8 then blockOvf c.n (agreedScales x k) own else 0
        let vs := sumValues w c.n x k sum
        let off := ownerStart c w b + ownedBytes c w x (k - (ownedBy c.n x.groups c.rank).1)
        let E := agreedExp x k
        let slot : OwnerSlot := ⟨gi, off, t.d.clips, !w.bs8, if w.bs8 ∨ E = -32768 ∨ whole then 0 else E - 55,
          if whole then 2 ^ 16 - 1 else ovf⟩
        let keep (s : State) : State :=
          modStep (fun w => { w with owner := w.owner ++ [slot], ownerTop := max w.ownerTop (off + ownerBytes w i) }) s
        let s := if whole ∨ ovf ≠ 0 then redOverflow b s else s
        if t.d.clips then
          let bytes := if w.bs8 then vs.flatMap (fun v => bytesOf 4 (round32 v)) else sum.flatMap (fun v => bytesOf 8 (wrap 64 v))
          let s := keep (ligWrite w.ctx (c.ownerVa + off) bytes s)
          let a := (maskValues whole ovf (vs.take (t.d.inGroup j))).foldl (fun a v => match v with
            | some G => normTerm t.d.clipAnchor w.lsExp a G
            | none => a) (⟨t.normSum, t.normNf⟩ : NormSum)
          modStep (fun w => { w with tensors := w.tensors.mapIdx (fun m t =>
            if m = i then { t with normSum := a.sum, normNf := a.nf } else t) }) s
        else
          match readGroup w.ctx t.d j s with
          | (.error (.page va r), s) => ligError w.ctx (.page va r) s
          | (.error (.data dpa), s) => noteOwned i ⟨j, 0, 0, true, false⟩ (lossEvent w.ctx i dpa s)
          | (.ok g, s) =>
            let rows := g.master :: ((List.range t.d.ns).filter t.d.stored).map (fun m => g.states.getD m [])
            match scrWrite w.ctx (c.ownerVa + off) (rows.flatMap (fun l => l.flatMap (bytesOf 4))) s with
            | (some e, s) => ligError w.ctx e s
            | (none, s) => ownerApply b i j 0x3F80_0000 (maskValues whole ovf vs) g (keep s)
  | _, _ => s

/-! ## Reduction (R295, R296) -/

/-- This member's contribution to the groups of one owner: 512 values for each. -/
def contribution (w : LigStep) (b : Bucket) (lo : Nat) (grads : List (List Num)) : List Int :=
  grads.zipIdx.flatMap (fun p =>
    let k := lo + p.2
    if w.bs8 then contribBs8 w.step (512 * (b.first + k)) (agreedScales b k) p.1
    else if sendsNothing w b k then List.replicate 512 0 else contribInt (agreedExp b k) p.1)

/-- A contribution to another member's groups clamps in BS8 mode: the block is overflowed (R296). -/
def contributionClamps (w : LigStep) (b : Bucket) (lo : Nat) (grads : List (List Num)) : Bool :=
  w.bs8 && grads.zipIdx.any (fun p =>
    (List.range 16).any (fun k =>
      let E := (agreedScales b (lo + p.2)).getD k 0
      E != 0xFF && clampsBs8 E ((p.1.drop (32 * k)).take 32)))

/-- Items that a partial on an owner tree carries. -/
def partialItems (w : LigStep) (b : Bucket) (lo hi : Nat) : Nat :=
  512 * ((List.range (hi - lo)).filter (fun k => !sendsNothing w b (lo + k))).length

/-- Every child's partial on the tree of owner k is complete. -/
def childrenIn (c : Circle) (w : LigStep) (b : Bucket) (k : Nat) : Bool :=
  let (lo, hi) := ownedBy c.n b.groups k
  (childLevels c.n k c.rank).all (fun l => partCount (partsAt b 3 k l 0) == partialItems w b lo hi)

/-- Combine own values with the children's, level by level. -/
def combine (c : Circle) (w : LigStep) (b : Bucket) (k off : Nat) (mine : List Int) : List Int :=
  (List.range (stopLevel c.n (treePos c.n k c.rank))).foldl (fun p l =>
    match childAt c.n k c.rank l with
    | some _ =>
      let q := partItems (partsAt b 3 k l 0) off p.length
      (p.zip q).map (fun x => if w.bs8 then halfNe (x.1 + x.2) else x.1 + x.2)
    | none => if w.bs8 then p.map halfNe else p) mine

/-- Send a partial up the tree of owner k: overflowed groups send nothing. -/
def sendPartial (s0 : State) (c : Circle) (w : LigStep) (b : Bucket) (bi k lo dst : Nat) (vals : List Int) (s : State) : State :=
  let h := stepHead s0 c w 3 (c.ord dst) (c.ord k) bi (stopLevel c.n (treePos c.n k c.rank))
  if w.bs8 then sendVals c h 1024 1 (512 * lo) vals s
  else forEach (List.range (vals.length / 512)) (fun m s =>
    if sendsNothing w b (lo + m) then s
    else sendVals c h 128 8 (512 * (lo + m)) ((vals.drop (512 * m)).take 512) s) s

/-- One owner tree of a bucket in REDUCING whose children are in: the partial goes up, or the owned sums are complete. -/
def reduceTree (bi k : Nat) (s : State) : State :=
  match s.lig.circle, s.lig.open_ with
  | some c, some w =>
    match getBucket w bi with
    | none => s
    | some b =>
      if (b.st ≠ .reducing ∧ b.st ≠ .owned) ∨ b.sent.contains k ∨ !childrenIn c w b k then s
      else
        let (lo, hi) := ownedBy c.n b.groups k
        match bucketGrads w.ctx w b ((List.range (hi - lo)).map (fun m => lo + m)) s with
        | (.error e, s) => ligError w.ctx e s
        | (.ok gs, s) =>
          let vals := combine c w b k (512 * lo) (contribution w b lo gs)
          let s := modBucket bi (fun b => { b with sent := b.sent ++ [k] }) s
          match parentOf c.n k c.rank with
          | some r => sendPartial s c w b bi k lo r vals (if contributionClamps w b lo gs then redOverflow bi s else s)
          | none =>
            forEach (List.range (hi - lo)) (fun m s =>
              ownGroup bi (lo + m) ((vals.drop (512 * m)).take 512) (gs.getD m []) s) s
  | _, _ => s

/-- Owned sums complete: OWNED, with its header (R294, R308). -/
def settleOwned (bi : Nat) (s : State) : State :=
  match s.lig.circle, s.lig.open_ with
  | some c, some w =>
    match getBucket w bi with
    | none => s
    | some b =>
      if b.st = .reducing ∧ b.sent.contains c.rank then
        putHeader bi 4 (modLig (fun l => { l with ownedCount := l.ownedCount + 1 }) (modBucket bi (fun b => { b with st := .owned }) s))
      else s
  | _, _ => s

/-- Trees of a bucket that can go on. A bucket may be OWNED before its partials on other trees are sent. -/
def reduceBucket (bi : Nat) (s : State) : State :=
  match s.lig.circle with
  | none => s
  | some c =>
    let order := (List.range c.n).filter (fun k => k != c.rank) ++ [c.rank]
    settleOwned bi (forEach order (reduceTree bi) s)

/-! ## Agreement (R295, R296) -/

/-- AGREED is complete here: it goes down, and the bucket reduces. -/
def agreeBucket (bi : Nat) (vals : List Int) (s : State) : State :=
  match s.lig.circle, s.lig.open_ with
  | some c, some w =>
    let t := now s
    let s := takeFree (modBucket bi (fun b => { b with agreed := vals, st := .reducing, tAgreed := t }) s)
    let s := forEach (downLevels c.n 0 c.rank) (fun l s =>
      match childAt c.n 0 c.rank l with
      | none => s
      | some r =>
        let h := stepHead s c w 2 (c.ord r) (c.ord 0) bi l
        if w.bs8 then sendVals c h 1024 1 0 vals s else sendVals c h 512 2 0 vals s) s
    reduceBucket bi s
  | _, _ => s

/-- A bucket in AGREEING whose children's scales are in: the maximum goes up, or is agreed at the leader. -/
def scaleBucket (bi : Nat) (s : State) : State :=
  match s.lig.circle, s.lig.open_ with
  | some c, some w =>
    match getBucket w bi with
    | none => s
    | some b =>
      let n := scaleItems w b
      let levels := childLevels c.n 0 c.rank
      if b.st ≠ .agreeing ∨ b.scaled ∨ !levels.all (fun l => partCount (partsAt b 1 0 l 0) == n) then s
      else
        let vals := levels.foldl (fun v l => (v.zip (partItems (partsAt b 1 0 l 0) 0 n)).map (fun x => max x.1 x.2)) b.mine
        let s := modBucket bi (fun b => { b with scaled := true }) s
        match parentOf c.n 0 c.rank with
        | none => agreeBucket bi vals s
        | some r =>
          let h := { stepHead s c w 1 (c.ord r) (c.ord 0) bi (stopLevel c.n (treePos c.n 0 c.rank)) with
            ls := wrap 16 w.lsExp, elems := bucketElems w b, groups := b.groups }
          if w.bs8 then sendVals c h 1024 1 0 vals s else sendVals c h 512 2 0 vals s
  | _, _ => s

/-! ## Close and verdict (R298 to R300) -/

/-- Every contribution of this member is sent and every owned group applied or staged. -/
def allContributed (c : Circle) (w : LigStep) : Bool :=
  w.buckets.all (fun b => decide ((List.range c.n).all (fun k => b.sent.contains k)) && (b.st == .owned || b.st == .closed))

def anyClips (w : LigStep) : Bool := w.tensors.any (fun t => t.d.clips)

/-- A child's CLOSE is complete. -/
def closeIn (w : LigStep) (l : Nat) : Bool :=
  match w.closes.find? (fun r => r.level == l) with
  | none => false
  | some r => !anyClips w || r.norms.length == w.tensors.length

/-- Norm total of a descriptor: own partial and the children's. -/
def normTotal (w : LigStep) (i : Nat) : NormSum :=
  let own : NormSum := match stepTensor w i with
    | some t => ⟨t.normSum, t.normNf⟩
    | none => ⟨0, false⟩
  w.closes.foldl (fun a r => match r.norms.find? (fun x => x.1 == i) with
    | some (_, v, nf) => { a with sum := a.sum + v, nf := a.nf || nf }
    | none => a) own

/-- The vote word of this member's CLOSE: VOTE bits 0 and 1 of its step, bit 2 for overflow, bit 4 VETO. -/
def ownVote (w : LigStep) (ucbVote : Nat) : Nat :=
  ucbVote % 4 ||| w.votes ||| (if w.veto.isSome then 16 else 0)

def foldedVote (w : LigStep) (ucbVote : Nat) : Nat := w.closes.foldl (fun v r => v ||| r.vote) (ownVote w ucbVote)
def foldedCount (w : LigStep) : Nat := w.closes.foldl (fun n r => n + r.folded) 1

/-- Send the CLOSE up. -/
def sendClose (c : Circle) (w : LigStep) (dst vote : Nat) (s : State) : State :=
  let h := { stepHead s c w 5 (c.ord dst) (c.ord 0) 0 (stopLevel c.n (treePos c.n 0 c.rank)) with ls := wrap 16 w.lsExp }
  let n := w.tensors.length
  let head := bytesOf 4 vote ++ bytesOf 4 (foldedCount w)
  if !anyClips w then sendTo c h.dst (buildPacket h head) s
  else forEach (List.range ((n + 62) / 63)) (fun m s =>
    let is := ((List.range n).drop (63 * m)).take 63
    let entry (i : Nat) : List Byte :=
      let a := normTotal w i
      bytesOf 11 (wrap 88 a.sum) ++ bytesOf 1 (if a.nf then 1 else 0) ++ bytesOf 4 0
    sendTo c h.dst (buildPacket { h with offset := 63 * m, count := is.length } (head ++ is.flatMap entry)) s) s

/-- Send the verdict to the children. -/
def sendVerdict (c : Circle) (w : LigStep) (verdict reason votes : Nat) (s : State) : State :=
  let n := w.tensors.length
  forEach (downLevels c.n 0 c.rank) (fun l s =>
    match childAt c.n 0 c.rank l with
    | none => s
    | some r =>
      let h := stepHead s c w 6 (c.ord r) (c.ord 0) 0 l
      let head := bytesOf 4 (verdict + 16 * reason) ++ bytesOf 4 votes
      forEach (List.range (max 1 ((n + 253) / 254))) (fun m s =>
        let is := ((List.range n).drop (254 * m)).take 254
        sendTo c h.dst (buildPacket { h with offset := 254 * m, count := is.length }
          (head ++ is.flatMap (fun i => bytesOf 4 (tabGet 0x3F80_0000 w.factors i)))) s) s) s

/-- The step has ended with its verdict: the close layer completes if it waits; one that is being replayed or was pre-empted meets the code
when it waits again (R300, R305). -/
def endClose (c step code : Nat) (s : State) : State :=
  if closeWaits s c then finishLayer c code s else modLig (fun l => { l with dead := some (c, step, code) }) s

/-- PARAM packets of groups that rank k owns in a bucket, each with its 512 values, down its tree. -/
def sendParam (c : Circle) (w : LigStep) (bi k sel : Nat) (gs : List (Nat × List Int)) (s : State) : State :=
  forEach (downLevels c.n k c.rank) (fun l s =>
    match childAt c.n k c.rank l with
    | none => s
    | some r => forEach gs (fun g s =>
        sendVals c { stepHead s c w 4 (c.ord r) (c.ord k) bi l with sel := sel } 256 4 (512 * g.1) g.2 s) s) s

/-- The 512 stored FP32 values of a group: its master, or state `sel`. -/
def groupWords (c : Nat) (w : LigStep) (g sel : Nat) (s : State) : List Int × State :=
  let (i, j) := groupPlace w g
  match stepTensor w i with
  | none => (List.replicate 512 0, s)
  | some t =>
    let va := if sel = 0 then t.d.p else vget 0 t.d.s (sel - 1)
    match scrRead c (va + 2048 * j) 2048 s with
      | (.error e, s) => (List.replicate 512 0, ligError c e s)
      | (.ok b, s) => ((elemsOf 4 b).map (fun v => (v : Int)), s)

/-- State numbers that a broadcast carries: the master, and the states when MIRROR is 1. -/
def paramSels (c : Circle) : List Nat := if c.mirror then [0, 1, 2, 3] else [0]

/-- The groups lo to hi − 1 of a bucket that have something to broadcast: all a master, and a state those whose tensor stores it (R300). -/
def carriers (w : LigStep) (b : Bucket) (lo hi sel : Nat) : List Nat :=
  ((List.range (hi - lo)).map (fun m => lo + m)).filter (fun g => match stepTensor w (groupPlace w (b.first + g)).1 with
    | none => false
    | some t => decide (sel = 0) || t.d.stored (sel - 1))

/-- Broadcast this member's owned groups of a bucket (R300). -/
def broadcastOwned (bi : Nat) (s : State) : State :=
  match s.lig.circle, s.lig.open_ with
  | some c, some w =>
    match getBucket w bi with
    | none => s
    | some b =>
      let (lo, hi) := ownedBy c.n b.groups c.rank
      forEach (paramSels c) (fun sel s =>
        let (gs, s) := (carriers w b lo hi sel).foldl (fun (acc : List (Nat × List Int) × State) g =>
          let (v, s) := groupWords w.ctx w (b.first + g) sel acc.2
          (acc.1 ++ [(g, v)], s)) ([], s)
        sendParam c w bi c.rank sel gs s) s
  | _, _ => s

/-- Write the received values of one group: master with its narrow copy, or a state. -/
def writeParam (c : Nat) (w : LigStep) (g sel : Nat) (vals : List Nat) (s : State) : State :=
  let (i, j) := groupPlace w g
  match stepTensor w i with
  | none => s
  | some t =>
    let d := t.d
    let vs := vals.take (d.inGroup j)
    let b := vs.flatMap (bytesOf 4)
    if sel = 0 then
      let s := ligWrite c (d.p + 2048 * j) b s
      match d.shFmt with
      | none => s
      | some f => ligWrite c (d.sh + 512 * d.shBytes * j)
          (vs.flatMap (fun v => bytesOf d.shBytes (narrow f (fp8Sat s) .ne (val32 v)).bits)) s
    else if d.stored (sel - 1) then ligWrite c (vget 0 d.s (sel - 1) + 2048 * j) b s
    else s

/-- Parameters of one owner, complete in a bucket and not yet written: written, and passed on down the tree. -/
def takeParam (bi k sel : Nat) (s : State) : State :=
  match s.lig.circle, s.lig.open_ with
  | some c, some w =>
    match getBucket w bi with
    | none => s
    | some b =>
      let (lo, hi) := ownedBy c.n b.groups k
      let gs := carriers w b lo hi sel
      let n := 512 * gs.length
      let ps := partsAt b 4 k (stopLevel c.n (treePos c.n k c.rank)) sel
      if w.verdict ≠ 1 ∨ k = c.rank ∨ n = 0 ∨ w.final.contains (bi, k, sel) ∨ partCount ps ≠ n then s
      else
        let gs := gs.map (fun g => (g, partItems ps (512 * g) 512))
        let s := forEach gs (fun g s => writeParam w.ctx w (b.first + g.1) sel (g.2.map (fun v => v.toNat)) s) s
        let s := modStep (fun w => { w with final := (bi, k, sel) :: w.final }) s
        sendParam c w bi k sel gs s
  | _, _ => s

/-- Every group of the step is final here. -/
def allFinal (c : Circle) (w : LigStep) : Bool :=
  w.buckets.zipIdx.all (fun p => (List.range c.n).all (fun k =>
    let (lo, hi) := ownedBy c.n p.1.groups k
    k == c.rank || (paramSels c).all (fun sel => carriers w p.1 lo hi sel == [] || w.final.contains (p.2, k, sel))))

/-- A committed step whose groups are all final closes; data loss of an owned group faults the context (R258). -/
def settleFinal (s : State) : State :=
  match s.lig.circle, s.lig.open_ with
  | some c, some w =>
    if w.verdict = 1 ∧ allFinal c w then
      let s := endStep 1 s
      let lost := w.tensors.any (fun t => t.lostSum != 0)
      if lost then ctxFault w.ctx 0x0304 s else endClose w.ctx w.step 1 s
    else s
  | _, _ => s

/-- Apply one staged group with its clip factor (R300). -/
def applyStaged (c : Circle) (o : OwnerSlot) (s : State) : State :=
  match s.lig.open_ with
  | none => s
  | some w =>
    if !o.staged then s
    else
      let (i, j) := groupPlace w o.group
      let bi := (w.buckets.findIdx? (fun b => decide (b.first ≤ o.group) && decide (o.group < b.first + b.groups))).getD 0
      match stepTensor w i with
      | none => s
      | some t =>
        match scrRead w.ctx (c.ownerVa + o.off) (if o.isInt then 4096 else 2048) s with
        | (.error e, s) => ligError w.ctx e s
        | (.ok b, s) =>
          let vs := (elemsOf (if o.isInt then 8 else 4) b).map (fun raw => gradValue (if o.isInt then 3 else 1) o.gexp raw)
          match readGroup w.ctx t.d j s with
          | (.error (.page va r), s) => ligError w.ctx (.page va r) s
          | (.error (.data dpa), s) => noteOwned i ⟨j, 0, 0, true, false⟩ (lossEvent w.ctx i dpa s)
          | (.ok g, s) =>
            let f := tabGet 0x3F80_0000 w.factors i
            let s := if f = 0x3F80_0000 then s else modBucket bi (fun x => { x with bst := x.bst ||| 2 }) s
            ownerApply bi i j f (maskValues false o.ovf vs) g s

/-- Status of every descriptor after a commit (R239, R297). NORM and NORM_SAT of a clipped tensor come of the circle's total (R246), which goes with
the verdict (R299), whose layout in R307 holds only the factors: at a member that is not the leader both are open functions of the verdict
(log 32). -/
def ligStatuses (isLeader : Bool) (list : Nat) (s : State) : State :=
  match s.lig.open_ with
  | none => s
  | some w => forEach w.tensors.zipIdx (fun p s =>
      let f := tabGet 0x3F80_0000 w.factors p.2
      let fs := (List.range w.tensors.length).map (tabGet 0x3F80_0000 w.factors)
      let norm := if !p.1.d.clips then 0
        else if isLeader then p.1.norm
        else (Config.verdictNorm w.step p.2 fs).toNat
      let sat := p.1.d.clips && (if isLeader then p.1.normSat else Config.verdictSat w.step p.2 fs)
      let t := { p.1 with norm := norm, normSat := sat, factor := f, clipped := p.1.d.clips && f != 0x3F80_0000 }
      let s := reportTensor w.ctx p.2 w.step t s
      ligWrite w.ctx (list + 128 * p.2 + 0x60) (t.status w.step) s) s

/-- UCB with the circle's votes ORed in, read for the outcome. -/
def votedUcb (c : Nat) (w : LigStep) (votes : Nat) (s : State) : Option (List Byte) × State :=
  match scrRead c (ucbVa s c) 48 s with
  | (.error e, s) => (none, ligError c e s)
  | (.ok b, s) => (some (Ucb.setVote b w.step (Ucb.voteOf b w.step ||| votes % 16)), s)

/-- COMMIT (R300). -/
def actCommit (c : Circle) (w : LigStep) (b : List Byte) (s : State) : State :=
  let s := forEach w.owner (applyStaged c) s
  let s := ligWrite w.ctx (ucbVa s w.ctx) (Ucb.commit b w.step) s
  let s := bump (regAt .scribe 0 0x50) 31 16 1 (bump (regAt .ligature 0 0x64) 15 0 1 s)
  let s := closeBuckets 5 (ligStatuses (c.rank == 0) w.list s)
  let nb := w.buckets.length
  let s := forEach (List.range nb) broadcastOwned s
  let s := forEach (List.range nb) (fun bi s => forEach (List.range c.n) (fun k s =>
    forEach (paramSels c) (takeParam bi k) s) s) s
  settleFinal s

/-- SKIP (R300). -/
def actSkip (w : LigStep) (b : List Byte) (s : State) : State :=
  let s := closeBuckets 6 (restoreAll s)
  let s := match skipStep w.ctx w.step b s with
    | (some e, s) => ligError w.ctx e s
    | (none, s) => s
  endClose w.ctx w.step 2 (endStep 2 s)

/-- VETO (R300). -/
def actVeto (c : Circle) (w : LigStep) (reason : Nat) (b : List Byte) (s : State) : State :=
  let s := closeBuckets 7 (restoreAll s)
  let s := ligWrite w.ctx (ucbVa s w.ctx) (putField b 0x28 4 3) s
  let s := countEvent .ligature (regAt .ligature 0 0x64) 31 16 (endStep 3 s)
  let s := modLig (fun l => { l with reason := reason, detOrd := c.ord 0, diverged := false }) s
  endClose w.ctx w.step 3 (ligEvent 0 reason w.step s)

/-- Act on a verdict (R300): 1 COMMIT, 2 SKIP, 3 VETO. -/
def actVerdict (verdict reason votes : Nat) (s : State) : State :=
  match s.lig.circle, s.lig.open_ with
  | some c, some w =>
    let s := modStep (fun w => { w with verdict := verdict }) (sendVerdict c w verdict reason votes s)
    match votedUcb w.ctx w votes s with
    | (none, s) => s
    | (some b, s) =>
      if verdict = 1 then actCommit c w b s
      else if verdict = 2 then actSkip w b s
      else actVeto c w reason b s
  | _, _ => s

/-- The leader decides (R299). -/
def decideVerdict (vote : Nat) (s : State) : State :=
  match s.lig.open_ with
  | none => s
  | some w =>
    let norms := w.tensors.zipIdx.map (fun p =>
      if p.1.d.clips then (some (normOf p.1.d.clipMax p.1.d.clipAnchor (normTotal w p.2))) else none)
    let bad := norms.any (fun x => x == some none)
    let fs := norms.zipIdx.filterMap (fun p => match p.1 with
      | some (some (_, f, _, _)) => some (p.2, f)
      | _ => none)
    let put (t : UpdTensor) (i : Nat) : UpdTensor := match norms.getD i none with
      | some (some (norm, f, cl, sat)) => { t with norm := norm, factor := f, clipped := cl, normSat := sat }
      | _ => t
    let s := modStep (fun w => { w with
      factors := fs.foldl (fun t x => tabInsert t x.1 x.2) [], tensors := w.tensors.mapIdx (fun i t => put t i) }) s
    let reason := w.veto.getD 0
    if bit vote 4 then actVerdict 3 reason vote s
    else if vote % 8 ≠ 0 then actVerdict 2 0 vote s
    else if bad then actVerdict 2 0 (vote ||| 8) s
    else actVerdict 1 0 vote s

/-- The CLOSE goes up, or the leader decides, when this member is ready and its children's are in (R298). -/
def tryClose (s : State) : State :=
  match s.lig.circle, s.lig.open_ with
  | some c, some w =>
    if !w.closeReady ∨ w.closeSent ∨ !(childLevels c.n 0 c.rank).all (closeIn w) then s
    else
      match (if ucbOk s w.ctx then scrRead w.ctx (ucbVa s w.ctx) 48 s else (.ok (List.replicate 48 0), s)) with
      | (.error e, s) => ligError w.ctx e s
      | (.ok b, s) =>
        let vote := foldedVote w (Ucb.voteOf b w.step)
        let s := modStep (fun w => { w with closeSent := true }) s
        match parentOf c.n 0 c.rank with
        | some r => sendClose c w r vote s
        | none => decideVerdict vote s
  | _, _ => s

end Sys2Proof.Machine
end

