-- ==== Sys2Proof/Machine/Ligature.lean ====
section
/-! DEFINITION. Opening, marking and closing a step, and the commands of the Ligature engine (R285 to R310). -/

namespace Sys2Proof.Machine

/-! ## Buckets form (R292, R294, R297) -/

/-- Close the bucket that is forming: it is READY, unless its owned groups do not fit the owner area: then the context faults and the step is
abandoned (R291, R297). -/
def closeForming (s : State) : State :=
  match s.lig.circle, s.lig.open_ with
  | some ci, some w =>
    match w.buckets.getLast? with
    | none => s
    | some b =>
      if b.st ≠ .forming then s
      else
        let i := w.buckets.length - 1
        if ci.ownerMib * 2 ^ 20 < ownerStart ci w i + ownedBytes ci w b (ownedCountOf ci b) then
          let s := ligEvent 1 6 w.step (modLig (fun l => { l with invalid := 6 }) s)
          abandonStep 8 (ownOrdinal s) (ctxFault w.ctx 0x0111 s)
        else
          let t := now s
          let s := takeFree (modBucket i (fun b => { b with st := .ready, tReady := t }) s)
          modLig (fun l => { l with formed := l.formed + 1 }) s
  | _, _ => s

def newBucket (first : Nat) : Bucket :=
  { st := .forming, first := first, groups := 0, mine := [], agreed := [], down := [], parts := [], sent := [], scaled := false,
    bst := 0, tReady := 0, tAgreed := 0, tDone := 0, header := 0 }

/-- The largest bucket: BUCKET_MIB, or 64 MiB. -/
def bucketLimit (s : State) : Nat := (if bucketMib s = 0 then 64 else bucketMib s) * 2 ^ 20

/-- Take the step's next group into the forming bucket; the bucket closes when the group after it would not fit. -/
def collectGroup (s : State) : State :=
  match s.lig.open_ with
  | none => s
  | some w =>
    let g := w.taken
    let s := match w.buckets.getLast? with
      | some b => if b.st = .forming then s else modStep (fun w => { w with buckets := w.buckets ++ [newBucket g] }) s
      | none => modStep (fun w => { w with buckets := w.buckets ++ [newBucket g] }) s
    let s := modStep (fun w =>
      { w with
          taken := g + 1,
          buckets := w.buckets.mapIdx (fun i b => if i + 1 = w.buckets.length then { b with groups := b.groups + 1 } else b) }) s
    match s.lig.open_ with
    | none => s
    | some w =>
      match w.buckets.getLast?, (stepGroups w)[g + 1]? with
      | some b, some (i, _) => if bucketLimit s < bucketBytes w b + groupSize w i then closeForming s else s
      | _, _ => s

def collectN : Nat → State → State
  | 0, s => s
  | n + 1, s => collectN n (collectGroup s)

/-- The mark rises: groups of descriptors below it are final and are collected (R290). -/
def raiseMark (mark : Nat) (s : State) : State :=
  match s.lig.open_ with
  | none => s
  | some w =>
    let m := min mark w.tensors.length
    if m ≤ w.mark then s
    else
      let upTo := ((w.tensors.take m).map (fun t => t.d.groups)).foldl (· + ·) 0
      collectN (upTo - w.taken) (modStep (fun w => { w with mark := m }) s)

/-! ## Opening a step (R285 to R291) -/

/-- Members of the block: (ORDINAL, NEXT_HOP) by rank. -/
def parseMembers (n : Nat) (b : List Byte) : List (Nat × Nat) :=
  (List.range n).map (fun i => (fieldOf b (8 * i) 2, fieldOf b (8 * i + 2) 2))

def parseCircle (own : Nat) (b : List Byte) (ms : List (Nat × Nat)) : Circle :=
  { epoch := BitVec.ofNat 32 (fieldOf b 0 4), flags := fieldOf b 6 2, combineVa := fieldOf b 8 8, combineMib := fieldOf b 0x10 4,
    statusLen := fieldOf b 0x14 4, ownerVa := fieldOf b 0x18 8, ownerMib := fieldOf b 0x20 4, statusVa := fieldOf b 0x28 8,
    members := ms, rank := (ms.findIdx? (fun m => m.1 == own)).getD 0 }

/-- Reasons 3 and 4 of R291 for a block that has been read; 0 where it stands. -/
def circleReason (s : State) (n : Nat) (c : Circle) : Nat :=
  let own := ownOrdinal s
  let rising := strictly (c.members.map (fun m => m.1))
  if n = 0 ∨ 4096 < n ∨ !rising ∨ c.members.any (fun m => decide (4095 < m.1)) ∨ (c.rankOf own).isNone ∨
      !vaOk c.combineVa (2 ^ 21) ∨ !vaOk c.ownerVa (2 ^ 21) ∨ !vaOk c.statusVa 64 ∨ !vaOk (ccbVa s) 64 then 3
  else if c.combineMib < 10 * (if bucketMib s = 0 then 64 else bucketMib s) then 4
  else 0

/-- Read the circle control block. -/
def readCircle (c : Nat) (s : State) : (Except VErr (Nat × Circle)) × State :=
  match scrRead c (ccbVa s) 64 s with
  | (.error e, s) => (.error e, s)
  | (.ok b, s) =>
    let n := fieldOf b 4 2
    match scrRead c (ccbVa s + 64) (8 * min n 4096) s with
    | (.error e, s) => (.error e, s)
    | (.ok mb, s) => (.ok (n, parseCircle (ownOrdinal s) b (parseMembers (min n 4096) mb)), s)

/-- A packet of the open step that is held or kept for a later bucket is taken up again by `f`. -/
def replayKept (f : List LinkUnit → State → State) (pkts : List (List LinkUnit)) (s : State) : State := forEach pkts f s

/-- The step is open: snapshot, tensors, no bucket yet. -/
def beginStep (c : Nat) (r : Record) (ci : Circle) (ls : Int) (ds : List UpdDesc) (s : State) : State :=
  let bs8 := decide (64 < ci.n) || bit ci.flags 0
  let w : LigStep :=
    { ctx := c, step := r.step.toNat, lsExp := ls, bs8 := bs8, mark := 0, tensors := ds.map (newTensor r.step.toNat),
      list := r.updList, taken := 0, buckets := [], early := [], owner := [], ownerTop := 0, closing := false,
      closeReady := false, closeSent := false, veto := none, closes := [], verdict := 0, votes := 0, factors := [],
      vparts := [], final := [] }
  let s := modLig (fun l =>
    { l with
        circle := some ci, open_ := some w, lastStep := r.step.toNat, formed := 0, ownedCount := 0, lastBs8 := bs8,
        dead := none, abandoned := false }) s
  -- combine area: contents internal (log 33)
  match vApply c ci.combineVa (ci.combineMib * 2 ^ 20) memBlur s with
  | (some e, s) => ligError c e s
  | (none, s) => s

/-- Every other member's next hop is reached by an ACTIVE port. -/
def hopsUp (s : State) (c : Circle) : Bool :=
  c.members.all (fun m => m.1 == ownOrdinal s || decide (portsTo s m.2 ≠ []))

/-! ## Packets of the open step -/

/-- Discarded under R306, or an ignored ABORT. -/
def ligDiscard (s : State) : State := bump (regAt .ligature 0 0x68) 31 16 1 s

/-- Put a received packet's items into its bucket. -/
def addPart (h : LigHead) (vals : List Int) (root : Nat) (s : State) : State :=
  modBucket h.bucket (fun b => { b with parts := b.parts ++ [⟨h.lop, root, h.level, h.sel, h.offset, vals⟩] }) s

/-- A bucket that this member has closed. -/
def closedHere (w : LigStep) (i : Nat) : Option Bucket :=
  match w.buckets[i]? with
  | some b => if b.st = .forming then none else some b
  | none => none

/-- A packet of the open step for a bucket that this member has not closed is kept until it has (DESIGN CHOICE, log 170). -/
def keepEarly (pkt : List LinkUnit) (s : State) : State := modStep (fun w => { w with early := w.early ++ [pkt] }) s

/-- SCALE (R295, R296, R301). -/
def onScale (c : Circle) (w : LigStep) (h : LigHead) (pkt : List LinkUnit) (s : State) : State :=
  if h.root ≠ c.ord 0 ∨ (childAt c.n 0 c.rank h.level).isNone then ligDiscard s
  else if signed 16 h.ls ≠ w.lsExp then abandonStep 3 (ownOrdinal s) s
  else
    match closedHere w h.bucket with
    | none => keepEarly pkt s
    | some b =>
      if h.groups ≠ b.groups ∨ h.elems ≠ bucketElems w b then abandonStep 4 (ownOrdinal s) s
      else scaleBucket h.bucket (addPart h (payloadVals h (if w.bs8 then 1 else 2) (!w.bs8) pkt) 0 s)

/-- AGREED (R295). -/
def onAgreed (c : Circle) (w : LigStep) (h : LigHead) (pkt : List LinkUnit) (s : State) : State :=
  let lvl := stopLevel c.n (treePos c.n 0 c.rank)
  if h.root ≠ c.ord 0 ∨ c.rank = 0 ∨ h.level ≠ lvl then ligDiscard s
  else
    match closedHere w h.bucket with
    | none => keepEarly pkt s
    | some b =>
      if b.st ≠ .agreeing then ligDiscard s
      else
        let p : LigPart := ⟨2, 0, h.level, 0, h.offset, payloadVals h (if w.bs8 then 1 else 2) (!w.bs8) pkt⟩
        let down := b.down ++ [p]
        let s := modBucket h.bucket (fun b => { b with down := down }) s
        let n := scaleItems w b
        if partCount down = n then agreeBucket h.bucket (partItems down 0 n) s else s

/-- PARTIAL (R295, R296). -/
def onPartial (c : Circle) (w : LigStep) (h : LigHead) (pkt : List LinkUnit) (s : State) : State :=
  match c.rankOf h.root with
  | none => ligDiscard s
  | some k =>
    if (childAt c.n k c.rank h.level).isNone then ligDiscard s
    else if (closedHere w h.bucket).isNone then keepEarly pkt s
    else reduceBucket h.bucket (addPart h (payloadVals h (if w.bs8 then 1 else 8) true pkt) k s)

/-- PARAM (R300). -/
def onParam (c : Circle) (w : LigStep) (h : LigHead) (pkt : List LinkUnit) (s : State) : State :=
  match c.rankOf h.root with
  | none => ligDiscard s
  | some k =>
    if k = c.rank ∨ h.level ≠ stopLevel c.n (treePos c.n k c.rank) then ligDiscard s
    else if (closedHere w h.bucket).isNone then keepEarly pkt s
    else
      let s := addPart h (payloadVals h 4 false pkt) k s
      settleFinal (takeParam h.bucket k h.sel s)

/-- Norm entries of a CLOSE payload. -/
def closeNorms (h : LigHead) (b : List Byte) : List (Nat × Int × Bool) :=
  (List.range h.count).map (fun i =>
    (h.offset + i, signed 88 (fieldOf b (8 + 16 * i) 11), bit (fieldOf b (8 + 16 * i + 11) 1) 0))

/-- CLOSE (R298). -/
def onClose (c : Circle) (w : LigStep) (h : LigHead) (pkt : List LinkUnit) (s : State) : State :=
  if h.root ≠ c.ord 0 ∨ (childAt c.n 0 c.rank h.level).isNone then ligDiscard s
  else
    let b := payloadOf pkt
    let rec_ : CloseRec := match w.closes.find? (fun r => r.level == h.level) with
      | some r => { r with norms := r.norms ++ closeNorms h b }
      | none => ⟨h.level, fieldOf b 0 4, fieldOf b 4 4, closeNorms h b⟩
    let s := modStep (fun w => { w with closes := rec_ :: w.closes.filter (fun r => r.level != h.level) }) s
    tryClose s

/-- VERDICT (R300). -/
def onVerdict (c : Circle) (w : LigStep) (h : LigHead) (pkt : List LinkUnit) (s : State) : State :=
  if h.root ≠ c.ord 0 ∨ c.rank = 0 ∨ h.level ≠ stopLevel c.n (treePos c.n 0 c.rank) ∨ w.verdict ≠ 0 then ligDiscard s
  else
    let b := payloadOf pkt
    let fs := (List.range h.count).map (fun i => fieldOf b (8 + 4 * i) 4)
    let parts := w.vparts ++ [(h.offset, fs)]
    let got := parts.foldl (fun n p => n + p.2.length) 0
    if got < w.tensors.length then modStep (fun w => { w with vparts := parts }) s
    else
      let tab := parts.foldl (fun t p => p.2.zipIdx.foldl (fun t x => tabInsert t (p.1 + x.2) x.1) t) ([] : Tab Nat)
      let s := modStep (fun w => { w with factors := tab, vparts := [] }) s
      let v := fieldOf b 0 4
      actVerdict (bits v 1 0) (bits v 7 4) (fieldOf b 4 4) s

/-- A packet of the open step for this member, by its LOP. -/
def onPacket (pkt : List LinkUnit) (s : State) : State :=
  match s.lig.circle, s.lig.open_, pkt with
  | some c, some w, u :: _ =>
    let h := parseHead u
    match h.lop with
    | 1 => onScale c w h pkt s
    | 2 => onAgreed c w h pkt s
    | 3 => onPartial c w h pkt s
    | 4 => onParam c w h pkt s
    | 5 => onClose c w h pkt s
    | 6 => onVerdict c w h pkt s
    | _ => ligDiscard s
  | _, _, _ => s

/-- A bucket has closed: packets that came early for it are taken up. -/
def takeEarly (s : State) : State :=
  match s.lig.open_ with
  | none => s
  | some w => replayKept onPacket w.early (modStep (fun w => { w with early := [] }) s)

/-- How a packet's STEP, EPOCH or loss scale differs from the open step's, as an abandon reason of R301; 0 where it does not. -/
def skewOf (c : Circle) (w : LigStep) (h : LigHead) : Nat :=
  if h.step ≠ w.step then 1
  else if h.epoch ≠ c.epoch.toNat then 2
  else if h.lop = 5 ∧ signed 16 h.ls ≠ w.lsExp then 3
  else 0

/-- VETO with its reason, the first one found (R298). -/
def setVeto (why : Nat) (s : State) : State := modStep (fun w => { w with veto := some (w.veto.getD why) }) s

/-- Where a packet for this member belongs (R301, R304). Later packets of a step that has ended are discarded. -/
def acceptPacket (pkt : List LinkUnit) (s : State) : State :=
  match pkt with
  | [] => s
  | u :: _ =>
    let h := parseHead u
    let hold (s : State) : State := modLig (fun l => { l with held := l.held ++ [pkt] }) s
    match s.lig.circle, s.lig.open_ with
    | none, _ => hold s
    | some _, none => if s.lig.lastStep < h.step then hold s else s
    | some c, some w =>
      let why := skewOf c w h
      -- a CLOSE that differs sets VETO (R298); a member that abandons for it has no CLOSE to send any more (R301, log 119)
      let s := if h.lop = 5 ∧ why ≠ 0 then setVeto why s else s
      if h.step = w.step + 1 then (if h.lop = 5 then onPacket pkt s else hold s)
      else if why ≠ 0 then abandonStep why (ownOrdinal s) s
      else onPacket pkt s

/-- Packets held for the step just opened are processed (R304). -/
def releaseHeld (s : State) : State :=
  let hs := s.lig.held
  replayKept acceptPacket hs (modLig (fun l => { l with held := [] }) s)

/-- Take the head of a port's receive buffer. -/
def popPacket (p : Nat) (s : State) : State :=
  modPort p (fun x => match x.rxBuf with
    | [] => x
    | k :: t => owe k.length { x with rxBuf := t }) s

/-- Forward a packet for another member (R287). -/
def forwardPacket (dst : Nat) (pkt : List LinkUnit) (s : State) : State :=
  let lost (s : State) : State :=
    ligEvent 3 0 ((pkt.head?.map (fun u => (parseHead u).step)).getD 0) (countEvent .ligature (regAt .ligature 0 0x68) 15 0 s)
  match s.lig.circle, pkt with
  | some c, u :: t =>
    let hops := (parseHead u).hops
    match c.hop dst with
    | none => lost s
    | some hop =>
      if 32 ≤ hops then lost s
      else
        let u := BitVec.ofNat 512 (putBits u.toNat 319 312 (hops + 1))
        match queueOn hop (u :: t) s with
        | none => lost s
        | some s => modLig (fun l => { l with fwd := l.fwd + 1 }) s
  | _, _ => lost s

/-- A packet of LOP `lop` at the head of a port's receive buffer. -/
def rxHead (lop p : Nat) (s : State) : Option (LigHead × List LinkUnit) :=
  match (getPort s p).rxBuf with
  | [] => none
  | pkt :: _ => match pkt with
    | [] => none
    | u :: _ => let h := parseHead u; if h.lop = lop then some (h, pkt) else none

/-- Receive a packet that is addressed to a member. -/
def receiveLig (lop p : Nat) (s : State) : State :=
  match rxHead lop p s with
  | none => s
  | some (h, pkt) =>
    let s := popPacket p s
    if h.dst ≠ ownOrdinal s then forwardPacket h.dst pkt s else acceptPacket pkt (countPeer pkt s)

/-! ## Layers (R290, R291) -/

/-- Refusal of an open, flush or close layer at its start: reason, or 0. A close or flush of a step that was abandoned runs
(R301). -/
def ligReason (s : State) (c : Nat) (r : Record) : Nat :=
  if r.ligOp = 0 then 0
  else if !circleCtxValid s ∨ circleCtx s ≠ c then 1
  else
    let step := r.step.toNat
    let dead : Bool := match s.lig.dead with
      | some (d, t, _) => d == c && t == step
      | none => false
    match s.lig.open_ with
    | some w => if r.ligOp = 1 ∨ w.step ≠ step then 2 else 0
    | none => if r.ligOp = 1 ∨ dead then 0 else 2

/-- LIG_OP 1 at a layer's start: the answer says whether the layer goes on. -/
def openStep (c : Nat) (r : Record) (s : State) : Bool × State :=
  let step := r.step.toNat
  match readCircle c s with
  | (.error e, s) => (false, updError c 0xFFFF e s)
  | (.ok (n, ci), s) =>
    let why := circleReason s n ci
    if why ≠ 0 then (false, ligInvalid c why step s)
    else if !ucbOk s c then (false, refuseUpdate c 2 0xFFFF step s)
    else
      match openUcb c s with
      | (none, s) => (false, s)
      | (some b, s) =>
        if ucbBad b step then (false, refuseUpdate c 1 0xFFFF step (ucbRefused c b s))
        else if !vaOk r.updList 128 then (false, refuseUpdate c 2 0xFFFF step (ucbRefused c b s))
        else
          match loadDescs c r.updList r.updCount 0 s with
          | (.error (i, .refuse why), s) => (false, refuseUpdate c why i step (ucbRefused c b s))
          | (.error (i, .err e), s) => (false, updError c i e s)
          | (.ok ds, s) =>
            if ds.any (fun d => d.isLazy) then (false, ligInvalid c 5 step s)
            else
              let s := beginStep c r ci (Ucb.lsExp b) ds s
              (true, releaseHeld (if hopsUp s ci then s else abandonStep 5 (ownOrdinal s) s))

/-- What a layer's end asks of the engine: marks, flush, close (R290, R292, R298). -/
def ligLayerEnd (c : Nat) (r : Record) (s : State) : State :=
  match s.lig.open_ with
  | none => s
  | some w =>
    if w.ctx ≠ c then s
    else if r.ligOp = 2 then
      takeEarly (modStep (fun w => { w with closing := true }) (closeForming (raiseMark w.tensors.length s)))
    else
      let s := raiseMark r.ligMark s
      takeEarly (if r.ligOp = 3 then closeForming s else s)

/-- A layer completes with a code: its Litter commit, its mark, then completion (R290). An attempt that does not complete moves no mark, and
a bucket that the mark forms can still fault the context. -/
def completeLayer (c code : Nat) (s : State) : State :=
  match (getCtx s c).record with
  | none => s
  | some r =>
    match commitLitter c s with
    | (false, s) => s
    | (true, s) =>
      let s := ligLayerEnd c r s
      if (getCtx s c).st = .running then endLayer c code r s else s

/-! ## Commands -/

/-- BUCKET_AGREEING: the first READY bucket starts to agree, while fewer than two agree or reduce (R294). -/
def execBucketAgreeing (s : State) : Host.Outcome State Fault Refusal :=
  match s.lig.open_ with
  | none => .next s
  | some w =>
    let busy := (w.buckets.filter (fun b => b.st == .agreeing || b.st == .reducing)).length
    match w.buckets.findIdx? (fun b => b.st == .ready) with
    | none => .next s
    | some i =>
      if 2 ≤ busy then .next s
      else
        match getBucket w i with
        | none => .next s
        | some b =>
          match bucketGrads w.ctx w b (List.range b.groups) s with
          | (.error e, s) => .next (ligError w.ctx e s)
          | (.ok gs, s) =>
            let mine := if w.bs8 then gs.flatMap proposeScales else gs.map proposeExp
            .next (scaleBucket i (modBucket i (fun b => { b with st := .agreeing, mine := mine }) s))

/-- STEP_CLOSE: the close layer waits, every contribution is sent, every owned group applied or staged (R298). -/
def execStepClose (s : State) : Host.Outcome State Fault Refusal :=
  match s.lig.circle, s.lig.open_ with
  | some c, some w =>
    if w.closing ∧ !w.closeReady ∧ allContributed c w then
      .next (tryClose (modStep (fun w => { w with closeReady := true }) s))
    else .next s
  | _, _ => .next s

/-- SCALE. -/
def execScale (p : Fin 16) (s : State) : Host.Outcome State Fault Refusal := .next (receiveLig 1 p.val s)
/-- AGREED. -/
def execAgreed (p : Fin 16) (s : State) : Host.Outcome State Fault Refusal := .next (receiveLig 2 p.val s)
/-- PARTIAL. -/
def execPartialPkt (p : Fin 16) (s : State) : Host.Outcome State Fault Refusal := .next (receiveLig 3 p.val s)
/-- PARAM. -/
def execParam (p : Fin 16) (s : State) : Host.Outcome State Fault Refusal := .next (receiveLig 4 p.val s)
/-- CLOSE. -/
def execClose (p : Fin 16) (s : State) : Host.Outcome State Fault Refusal := .next (receiveLig 5 p.val s)
/-- VERDICT. -/
def execVerdict (p : Fin 16) (s : State) : Host.Outcome State Fault Refusal := .next (receiveLig 6 p.val s)

/-- An ABORT for this member (R301, R305). With no step open it is counted and ignored, but a second one of the step just abandoned is
forwarded once. -/
def onAbort (h : LigHead) (s : State) : State :=
  match s.lig.open_ with
  | none =>
    let s := ligDiscard s
    match s.lig.circle with
    | some c =>
      if s.lig.abandoned ∧ h.step = s.lig.lastStep ∧ !s.lig.seen.contains (h.root, h.step) then
        modLig (fun l => { l with seen := (h.root, h.step) :: l.seen }) (sendAborts c h.root h.step h.reason s)
      else s
    | none => s
  | some w =>
    if w.verdict = 1 ∨ s.lig.seen.contains (h.root, h.step) then ligDiscard s
    else abandonWith 9 h.root (some (h.step, h.reason)) s

/-- ABORT. -/
def execAbort (p : Fin 16) (s : State) : Host.Outcome State Fault Refusal :=
  match rxHead 7 p.val s with
  | none => .next s
  | some (h, pkt) =>
    let s := popPacket p.val s
    if h.dst ≠ ownOrdinal s then .next (forwardPacket h.dst pkt s) else .next (onAbort h (countPeer pkt s))

/-- The engine waits for a packet of another member (R302). -/
def ligWaits (c : Circle) (w : LigStep) : Bool :=
  decide (1 < c.n) &&
  (w.buckets.any (fun b => b.st == .agreeing || b.st == .reducing ||
      (b.st == .owned && !(List.range c.n).all (fun k => b.sent.contains k))) || w.closeReady || w.verdict == 1)

/-- STEP_TIMEOUT (R302, R303). -/
def execStepTimeout (s : State) : Host.Outcome State Fault Refusal :=
  match s.lig.circle, s.lig.open_ with
  | some c, some w => if ligWaits c w then .next (abandonStep 6 (ownOrdinal s) s) else .next s
  | _, _ => .next s

end Sys2Proof.Machine
end

