-- ==== Sys2Proof/Machine/Contexts.lean ====
section
/-! DEFINITION. Contexts as the host drives them: enable, start, kill, release, evict, wake (R311 to R321, R330, R337, R338, R418 to
R420). -/

namespace Sys2Proof.Machine

/-- The function may act on a context: the one that FUNC names (R311). -/
def ownsCtx (s : State) (fn c : Nat) : Bool := ctxFunc s c == fn

/-- The accounting registers of a context clear (R342). -/
def clearAccounts (c : Nat) (s : State) : State :=
  forEach ((List.range 28).map (fun k => 0x80 + 4 * k)) (fun off s => setR (regAt .ctx c off) 0 s)
    { s with times := tabDrop s.times c (c + 1) }

/-- CTX_ENABLE: EN = 1 makes a FREE context PARKED (R312); the physical function and the context's own may write it. -/
def execCtxEnable (fn : Fin 16) (ctx : Fin 256) (s : State) : Host.Outcome State Fault Refusal :=
  let c := ctx.val
  if (getCtx s c).st = .free ∧ (fn.val = 0 ∨ ownsCtx s fn.val c) then
    .next (setCtx c { Ctx.free with st := .parked } (clearAccounts c (setF (regAt .ctx c 0x40) 0 0 1 s)))
  else .next s

/-- EN = 0 in PARKED: FREE, the plot dropped, the slot given back (R312, R338). -/
def disableCtx (c : Nat) (s : State) : State :=
  if (getCtx s c).st = .parked ∧ (getCtx s c).killDue.isNone then
    let s := dropSlot c (freePlot c s)
    setCtx c Ctx.free (setF (regAt .ctx c 0x40) 0 0 0 s)
  else s

/-! ## Kill (R337, R338, R418, R419) -/

/-- A grove of a killed plot owes a scrub; a grove in RETENTION is woken for it (R417). -/
def oweScrub (g : Nat) (s : State) : State :=
  let x := getGrove s g
  match x.pw with
  | .gated => s
  | .retired => s
  | .retention => wakeGrove g (setGrove g { x with dirty := true } s)
  | .entering => setGrove g { x with dirty := true, wanted := x.wanted || x.retain } s
  | _ => setGrove g { x with dirty := true } s

/-- The running layer of a killed context completes with KILLED. -/
def completeKilled (c : Nat) (s : State) : State :=
  match putCompletion c 0x0501 s with
  | (true, s) => ctxMessage c (modCtx c (fun x => { x with lastCode := 0x0501 }) s)
  | (false, s) =>
    let s := modCtx c (fun x => { x with lastCode := 0x0205 }) s
    ctxMessage c (raise .ranger 0 0 (.of c (0x0205 + 2 ^ 16 * 0x0501) (getCtx s c).curRec) s)

/-- Abandon the circle step of a context that is killed (R301 reason 7). -/
def abandonFor (c : Nat) (s : State) : State :=
  match s.lig.open_ with
  | some w => if w.ctx = c then abandonStep 7 (ownOrdinal s) s else s
  | none => s

/-- Every grove that a killed context holds owes its scrub. -/
def owePlot (c : Nat) (s : State) : State :=
  forEach (getCtx s c).plot (fun g s => if (getGrove s g).owner = some c then oweScrub g s else s) s

/-- KILLING and RETAINED contexts are resident (R312): a killed context takes a free slot, or waits for one as a runnable context does
(log 45). -/
def enterKilling (c : Nat) (s : State) : State :=
  let s := match (getCtx s c).slot, freeSlot s with
    | none, some i => takeSlot c i s
    | _, _ => s
  modCtx c (fun x =>
    if x.slot.isSome then { x with st := .killing, killDue := none } else { x with killDue := some false, runnable := true }) s

/-- Begin a kill; `scrubAlways` for a VF FLR or a DISARM, which scrub whatever RETAIN holds, a kill already begun among them. -/
def killCtx (scrubAlways : Bool) (c : Nat) (s : State) : State :=
  let x := getCtx s c
  if x.st = .free then s
  else if x.st = .killing ∨ (x.killDue.isSome ∧ s.boot.st = .run) then
    (if scrubAlways && x.retain then owePlot c (modCtx c (fun y => { y with retain := false }) s) else s)
  else
    let keep := !scrubAlways && (x.st == .retained || ((x.st == .running || x.st == .faulted) && (match x.record with
      | some r => r.retain
      | none => false)))
    let s := stopScribes c (quiesce c s)
    let s := if x.st = .running then completeKilled c s else s
    let s := modCtx c (fun y =>
      { y with
          phase := .none, watch := none, woken := false, runnable := false, record := none, evict := false,
          lit := none, upd := none, ligWait := false, urgent := false, saved := none, retain := keep }) s
    let s := enterKilling c (abandonFor c s)
    if keep then s else owePlot c s

/-- KILL. Outside RUN the Ranger is off, and acts on it when it next runs (R435). -/
def execKill (fn : Fin 16) (ctx : Fin 256) (s : State) : Host.Outcome State Fault Refusal :=
  let st := (getCtx s ctx.val).st
  if ownsCtx s fn.val ctx.val ∧ (st = .parked ∨ st = .ready ∨ st = .running ∨ st = .faulted) then
    .next (if s.boot.st = .run then killCtx false ctx.val s else modCtx ctx.val (fun x => { x with killDue := some false }) s)
  else .next s

/-- A skipped subtree of the scrub-on-release walk, recorded in the Blotter (R418). -/
def noteSkip (c va reason : Nat) (s : State) : State := logNow .mmu 0 0 (.of c reason va) s

/-- The entries of one page table as (index, entry); a row that cannot be read is recorded and skipped. -/
def tableEntries (c va span table : Nat) (s : State) : List (Nat × Nat) × State :=
  (List.range 8).foldl (fun (acc : List (Nat × Nat) × State) r =>
    match memRead (table + 512 * r) 512 acc.2 with
    | (none, s) => (acc.1, noteSkip c (va + 64 * r * span) 3 s)
    | (some b, s) => (acc.1 ++ (elemsOf 8 b).zipIdx.map (fun p => (64 * r + p.2, p.1)), s)) ([], s)

/-- Valid entries below one table: (va, address, entry); a malformed one is recorded, an entry with V = 0 maps nothing (log 37). -/
def validEntries (c va span table : Nat) (leaf : Bool) (s : State) : List (Nat × Nat × Nat) × State :=
  let (es, s) := tableEntries c va span table s
  es.foldl (fun (acc : List (Nat × Nat × Nat) × State) p =>
    let here := va + p.1 * span
    match checkEntry leaf p.2 with
    | .inl a => (acc.1 ++ [(here, a, p.2)], acc.2)
    | .inr r => if r = 1 then acc else (acc.1, noteSkip c here r acc.2)) ([], s)

/-- DPA pages that a context's page table maps with SR = 1. -/
def scrubPages (c : Nat) (s : State) : List Nat × State :=
  let root := ptRoot s c
  if dpaEnd ≤ root then ([], noteSkip c 0 3 s)
  else
    let (mids, s) := validEntries c 0 (2 ^ 39) root false s
    let (leaves, s) := mids.foldl (fun (acc : List (Nat × Nat × Nat) × State) m =>
      let (l, s) := validEntries c m.1 (2 ^ 30) m.2.1 false acc.2
      (acc.1 ++ l, s)) ([], s)
    leaves.foldl (fun (acc : List Nat × State) l =>
      let (ps, s) := validEntries c l.1 (2 ^ 21) l.2.1 true acc.2
      (acc.1 ++ (ps.filter (fun p => bit p.2.2 2)).map (fun p => p.2.1), s)) ([], s)

/-- Zero the scrub-on-release pages (R418). -/
def scrubMemory (c : Nat) (s : State) : State :=
  let (ps, s) := scrubPages c s
  let s := forEach ps (fun p s => memZero p (2 ^ 21) s) s
  bump (regAt .seedbank 0 0x78) 31 16 ps.length s

/-- The virtual range of the image areas of a context with `n` imaged groves. -/
def imagePieces (c n : Nat) (s : State) : List (Nat × Nat) × State :=
  match vTargets c (saveVa s c + 2 ^ 21) (n * 40 * 2 ^ 20) s with
  | (.error _, s) => ([], s)
  | (.ok ps, s) => (ps, s)

def imagedGroves (s : State) (c : Nat) : Nat := min (getCtx s c).plot.length (saveGroves s c)

/-- Write the debug image and lock its pages (R419). -/
def debugImage (c : Nat) (s : State) : State :=
  let n := imagedGroves s c
  let (r, s) := saveAll c (imageNib c (saveVa s c)) (ranked ((getCtx s c).plot.take n)) s
  let s := match r with
    | some (.page va why) => ptFault c va why s
    | _ => s
  let (ps, s) := imagePieces c n s
  { s with hbm := { s.hbm with locks := ps.foldl (fun t p => tabInsert t (p.1 / 2 ^ 21) c) s.hbm.locks } }

/-- The context's scrubbed groves become free. -/
def releaseScrubbed (c : Nat) (s : State) : State :=
  let x := getCtx s c
  let s := countingSteps (forEach x.plot (fun g s =>
    if (getGrove s g).owner = some c then modGrove g (fun y => { y with owner := heirOf s g, step := 9, idle := 0 }) s else s)) s
  modCtx c (fun y => { y with plot := [] }) s

/-- KILL_DONE: the plot is scrubbed, or held with its image written; the scrub-on-release pages are zero (R337, R418, R419). -/
def execKillDone (ctx : Fin 256) (s : State) : Host.Outcome State Fault Refusal :=
  let c := ctx.val
  let x := getCtx s c
  let ready := x.plot.all (fun g => (getGrove s g).owner != some c || !(getGrove s g).dirty)
  if s.boot.st = .run ∧ x.st = .killing ∧ (x.retain ∨ ready) then
    let s := scrubMemory c s
    let s := if x.retain then modCtx c (fun y => { y with st := .retained }) (debugImage c s)
      else modCtx c (fun y => { y with st := .parked }) (releaseScrubbed c s)
    .next (raise .ranger 0 6 (.of c (getCtx s c).lastCode x.curRec) s)
  else .next s

/-- What RELEASE does (R420): scrub owed, image areas zero, lock removed, PARKED. -/
def releaseCtx (c : Nat) (s : State) : State :=
  let (ps, s) := imagePieces c (imagedGroves s c) s
  let s := forEach ps (fun p s => memZero p.1 p.2 s) s
  let s := { s with hbm := { s.hbm with locks := s.hbm.locks.filter (fun p => p.2 != c) } }
  modCtx c (fun y => { y with st := .parked, retain := false, releaseDue := false, record := none }) (freePlot c s)

/-- RELEASE, by the owner or the physical function: R311 keeps only starts, extensions and kills for the owner. Outside RUN it waits for
the Ranger (R435). -/
def execRelease (fn : Fin 16) (ctx : Fin 256) (s : State) : Host.Outcome State Fault Refusal :=
  if (fn.val = 0 ∨ ownsCtx s fn.val ctx.val) ∧ (getCtx s ctx.val).st = .retained then
    .next (if s.boot.st = .run then releaseCtx ctx.val s else modCtx ctx.val (fun x => { x with releaseDue := true }) s)
  else .next s

/-- What the host asked of a context while the Ranger was off is done as it starts to run (R435). -/
def doWaiting (c : Nat) (s : State) : State :=
  let x := getCtx s c
  let s := match x.killDue with
    | none => s
    | some k => killCtx k c (setCtx c { x with killDue := none } s)
  if x.releaseDue ∧ (getCtx s c).st = .retained then releaseCtx c s else s

/-! ## Start, wake, swap -/

/-- EVICT, by the owner or the physical function: the context is to be swapped out at the next tick, if that is allowed (R330, R342). -/
def execEvict (fn : Fin 16) (ctx : Fin 256) (s : State) : Host.Outcome State Fault Refusal :=
  if (fn.val = 0 ∨ ownsCtx s fn.val ctx.val) ∧ (getCtx s ctx.val).slot.isSome then
    .next (modCtx ctx.val (fun x => { x with evict := true }) s)
  else .next s

/-- Number of a context state (R342). -/
def ctxStCode : CtxSt → Nat
  | .free => 0 | .parked => 1 | .ready => 2 | .running => 3 | .faulted => 4 | .killing => 5 | .retained => 6

/-- HEAD_VA_WRITE: the high word starts a PARKED context's work list (R317, R330, R333); in any other state the write is ignored
and recorded. -/
def execHeadVaWrite (fn : Fin 16) (ctx : Fin 256) (hi : Word32) (s : State) : Host.Outcome State Fault Refusal :=
  let c := ctx.val
  let x := getCtx s c
  if !ownsCtx s fn.val c then .next s
  else
    let va := getR s (regAt .ctx c 0x68) + 2 ^ 32 * hi.toNat
    if x.st ≠ .parked ∨ x.killDue.isSome then .next (logNow .ctx c 0 (.of c (ctxStCode x.st) va) s)
    else
      let s := modCtx c (fun x => { x with seq := 0, fresh := true, watch := none, woken := false, curRec := va, runnable := false }) s
      if va = 0 then .next s
      else if s.boot.st ≠ .run then .next (modCtx c (fun x => { x with runnable := true }) s)
      else
        match x.slot, freeSlot s with
        | some _, _ => .next (readRecord c va s)
        | none, some i => .next (readRecord c va (bump (regAt .ranger 0 0x78) 31 16 1 (takeSlot c i s)))
        | none, none => .next (modCtx c (fun x => { x with runnable := true }) s)

/-- WATCH_WAKE: a host write has covered the watched NEXT of a resident PARKED context, and it is read again (R318, R326). -/
def execWatchWake (ctx : Fin 256) (s : State) : Host.Outcome State Fault Refusal :=
  let c := ctx.val
  let x := getCtx s c
  if x.st = .parked ∧ x.woken ∧ x.slot.isSome ∧ x.phase = .none then .next (pass false (readNext c s)) else .next s

/-- Lowest EP first, then the longest blocked (R330). -/
def evictFirst (s : State) (a b : Nat) : Bool :=
  decide (effPrio s a < effPrio s b) ||
  (effPrio s a == effPrio s b && decide ((getCtx s b).blocked < (getCtx s a).blocked))

/-- CTX_EVICT: every resident has been blocked for SWAP_GRACE ticks, one swapped in since among them, and a context is runnable. -/
def execCtxEvict (s : State) : Host.Outcome State Fault Refusal :=
  let grace := getF s (regAt .ranger 0 0x44) 27 16
  let all := (residents s).all (fun c => isBlocked (getCtx s c) && decide (grace ≤ (getCtx s c).blocked))
  if grace ≠ 0 ∧ grace ≤ s.ranger.graceTicks ∧ all ∧ freeSlot s = none ∧ runnables s ≠ [] then
    match sortBy (evictFirst s) ((residents s).filter (fun c => mayEvict s c && (getCtx s c).phase != .saving)) with
    | [] => .next s
    | c :: _ => .next (beginEvict c s)
  else .next s

end Sys2Proof.Machine
end

