-- ==== Sys2Proof/Machine/Drurid.lean ====
section
/-! DEFINITION. The commands of the Drurid ports (R264 to R284, R444). -/

namespace Sys2Proof.Machine

/-- A dropping port resets its crossing (R356), and a packet in it belongs to a transfer that fails as on the Canopy (R31, R116): counted, told to
the context of the open step, whose layer replays. Whether one of the packets in the port's hands is in the crossing just then is a free
value (log 106). -/
def crossingLost (x : Port) (s : State) : State :=
  match s.lig.open_ with
  | none => s
  | some w =>
    if x.txPart = [] ∧ (x.txQ ++ x.rxBuf).all isControl then s
    else
      let lost := bit (Config.freeWord s.free).toNat 0
      let s := takeFree s
      if lost then replayFor w.ctx 2 (raiseOpen .canopy 0 0 (some w.ctx) (countEvent .canopy (regAt .canopy 0 0x50) 31 0 s)) else s

/-- A drop, its crossing's loss, and what it means for an open step whose member the partner is (R277, R356, R301 reason 5). -/
def lostPort (p why : Nat) (s : State) : State :=
  let partner := linkedPeer s p
  let s := crossingLost (getPort s p) (dropPort p why s)
  match partner, s.lig.circle, s.lig.open_ with
  | some o, some c, some _ => if (c.rankOf o).isSome then abandonStep 5 (ownOrdinal s) s else s
  | _, _, _ => s

/-- SIGNAL_DETECT: signal at a lane, so a cable is in the port's connector; a port in DETECT enters NEGOTIATE and sends its frames. -/
def execSignalDetect (p : Fin 16) (s : State) : Host.Outcome State Fault Refusal :=
  let s := setPresent (connectorOf p.val) true s
  let x := getPort s p.val
  if x.st = .detect then .next (sendFrames p.val (setPort p.val { x with st := .negotiate } s)) else .next s

/-- The port runs NEGOTIATE, EQUALIZE or IDENTIFY, in a first training or in a retrain. -/
def inStage (x : Port) (st : PortSt) (t : Train) : Bool := x.st == st || (x.st == .retrain && x.train == t)

/-- No candidate mode is left: BELOW_MIN; a first training returns to DETECT, a retrain begins again with its frames (log 34). -/
def belowMin (p : Nat) (s : State) : State :=
  let s := portEvent p 8 1 s
  let x := getPort s p
  if x.st = .retrain then sendFrames p (setPort p { x with train := .negotiate } s) else announce p (setPort p { x with st := .detect } s)

/-- Train the next candidate from index i on (R273). -/
def tryCandidate (p i : Nat) (s : State) : State :=
  let x := getPort s p
  match nextCand s p x i with
  | none => belowMin p s
  | some k =>
    let (rate, w) := candidates.getD k (0, 0)
    setPort p { x with
      st := if x.st = .retrain then .retrain else .equalize, train := .equalize, cand := k
      tx := x.tx.use rate w, rx := x.rx.use rate w } s

/-- What the frames of NEGOTIATE say (R272): reversal by the majority of lanes; polarity of every lane that delivers a frame, where another keeps
the inversion it has; good lanes. -/
def negotiated (s : State) (p : Nat) (frames : List Frame) (peer : PeerCaps) (x : Port) : Port :=
  let straight := (frames.filter (fun f => f.rx.val == f.tx.val)).length
  let crossed := (frames.filter (fun f => f.rx.val + f.tx.val == 8)).length
  let rev := decide (straight < crossed)
  let good := frames.filter (fun f => f.tx.val == laneAt rev f.rx.val && !bit (mapLanes s p true) f.rx.val)
  { x with
    reversed := rev
    inverted := maskOf ((lanesOf x.inverted).filter (fun i => frames.all (fun f => f.rx.val != i)) ++
      (frames.filter (fun f => f.inverted)).map (fun f => f.rx.val))
    peerRate := peer.maxRate.toNat, peerMin := peer.minWidth.toNat
    rx := { x.rx with
      known := true
      good := maskOf (good.map (fun f => f.tx.val)), failed := Vector.replicate 4 0 }
    tx := { x.tx with
      known := true
      good := maskOf ((lanesOf peer.txGood.toNat).filter (fun i => !bit (mapLanes s p false) i)), failed := Vector.replicate 4 0 } }

/-- The receiver reports its good lanes to the partner, by transmitter lane number: not those retired in service, nor that of a sparing which a
retrain abandoned (R272, R280). -/
def reportLanes (p : Nat) (s : State) : State := emit (.train p 1 ((getPort s p).rx.goodAt 0)) s

/-- TRAINING_FRAME: the frames of NEGOTIATE are in and the good lanes reported; EQUALIZE begins. -/
def execTrainingFrame (p : Fin 16) (frames : List Frame) (peer : PeerCaps) (s : State) : Host.Outcome State Fault Refusal :=
  let x := getPort s p.val
  if inStage x .negotiate .negotiate then
    .next (tryCandidate p.val 0 (reportLanes p.val (setPort p.val (negotiated s p.val frames peer x) s)))
  else .next s

/-- NEGOTIATE_TIMEOUT: 2 ms without an end (R271). -/
def execNegotiateTimeout (p : Fin 16) (s : State) : Host.Outcome State Fault Refusal :=
  let x := getPort s p.val
  if x.st = .negotiate then .next (announce p.val (setPort p.val { x with st := .detect } s)) else .next s

/-- Lanes that fail at a rate: 64 symbol errors or more among those in use. -/
def failing (active : Nat) (errs : Vector Nat 9) (place : Nat → Nat) : Nat :=
  maskOf ((lanesOf active).filter (fun i => decide (64 ≤ vget 0 errs (place i))))

/-- EQUALIZE_CANDIDATE_END: the candidate passes and IDENTIFY begins, or its bad lanes are marked and the next is tried
(R273, R284). -/
def execEqualizeCandidateEnd (p : Fin 16) (rxErrs txErrs : Vector Nat 9) (s : State) : Host.Outcome State Fault Refusal :=
  let x := getPort s p.val
  if !inStage x .equalize .equalize then .next s
  else
    let (rate, w) := candidates.getD x.cand (0, 0)
    let rxBad := failing x.rx.active rxErrs (laneAt x.reversed)
    let txBad := failing x.tx.active txErrs id
    if rxBad = 0 ∧ txBad = 0 then
      let lower := decide (x.oldRate ≠ 0) && decide (modeRate rate w < modeRate x.oldRate x.oldWidth)
      let s := setPort p.val { x with rate := rate, width := w, oldRate := rate, oldWidth := w } s
      let s := if lower then portEvent p.val 4 4 s else s
      .next (beginIdentify p.val s)
    else
      let mark (l : Lanes9) (bad : Nat) : Lanes9 := { l with failed := vset l.failed rate (vget 0 l.failed rate ||| bad) }
      .next (tryCandidate p.val (x.cand + 1) (setPort p.val { x with rx := mark x.rx rxBad, tx := mark x.tx txBad } s))

/-- IDENTITY fails: ID_FAIL and the 100 ms hold; in a retrain, a drop with the identity not confirmed. -/
def identFail (p : Nat) (s : State) : State :=
  let x := getPort s p
  let s := portEvent p 5 4 s
  if x.st = .retrain then lostPort p 4 s else modPort p (fun x => { x with hold := true }) s

/-- IDENTITY_BLOCK: the partner's 4 KiB are in and are checked (R274 to R276, R278). -/
def execIdentityBlock (p : Fin 16) (s : State) : Host.Outcome State Fault Refusal :=
  let x := getPort s p.val
  if !inStage x .identify .identify ∨ x.hold ∨ x.idBytes.length < 4096 then .next s
  else if !blockOk x then .next (identFail p.val s)
  else
    let peer := peerOf x.idBytes
    if x.st = .retrain then
      if peer.digest = x.peer.digest ∧ peer.ordinal = x.peer.ordinal then .next (flushWaiting (endRetrain p.val peer s))
      else .next (lostPort p.val 4 s)
    else .next (enterReady p.val peer s)

/-- IDENTIFY_TIMEOUT: 20 ms without an end. -/
def execIdentifyTimeout (p : Fin 16) (s : State) : Host.Outcome State Fault Refusal :=
  let x := getPort s p.val
  if inStage x .identify .identify ∧ !x.hold then .next (identFail p.val s) else .next s

/-- ID_HOLD_END: the 100 ms after an identity failure are over. -/
def execIdHoldEnd (p : Fin 16) (s : State) : Host.Outcome State Fault Refusal :=
  let x := getPort s p.val
  if x.st = .identify ∧ x.hold then .next (announce p.val (setPort p.val { x with st := .detect, hold := false } s)) else .next s

/-- LOSS_OF_SIGNAL: no signal on any active receive lane for 1 µs, a drop in any state but OFF. It says nothing of the cable, whose pin is sensed at
the tick (log 124). -/
def execLossOfSignal (p : Fin 16) (s : State) : Host.Outcome State Fault Refusal :=
  .next (if (getPort s p.val).st = .off then s else lostPort p.val 1 s)

/-- Codewords go out until a lane-control packet at the front of the queue has left: resends and the packet in hand go before it; `fuel` bounds
them. -/
def flushControl (p : Nat) (u : LinkUnit) : Nat → State → State
  | 0, s => s
  | fuel + 1, s => if (getPort s p).txQ.head? = some [u] then flushControl p u fuel (sendCodeword p s) else s

/-- The receiver retires a lane, named by transmitter lane number (R279, R280). A lane that is not active is only marked; one that is reached
while a SPARE_REQ is outstanding waits. Without a spare the SPARE_REQ still goes out before the port retrains; where the window or credit holds
it back, after the retrain. -/
def retireLane (p lane : Nat) (s : State) : State :=
  let x := getPort s p
  if !bit (x.rx.goodAt x.rate) lane then s
  else if x.spareOut.isSome then
    (if x.spareOut = some lane ∨ x.spareQ.contains lane then s else setPort p { x with spareQ := x.spareQ ++ [lane] } s)
  else if !bit x.rx.active lane then
    noteLane p true (laneAt x.reversed lane) (setPort p { x with rx := x.rx.retire x.rate lane } s)
  else
    match x.rx.spare with
    | some _ => queueControl p (controlUnit 1 lane 0) (setPort p { x with spareOut := some lane } s)
    | none =>
      let u := controlUnit 1 lane 0
      let s := flushControl p u 260 (queueControl p u s)
      let held := (getPort s p).txQ.head? = some [u]
      let s := modPort p (fun x => { x with rx := { x.rx with bad := x.rx.bad ||| 2 ^ lane } }) s
      let s := enterRetrain p (noteLane p true (laneAt x.reversed lane) s)
      if held then queueControl p u s else s

/-- A lane that waited is handled once no SPARE_REQ is outstanding (R280). -/
def nextSparing (p : Nat) (s : State) : State :=
  let x := getPort s p
  match x.spareOut, x.spareQ with
  | none, lane :: rest => retireLane p lane (setPort p { x with spareQ := rest } s)
  | _, _ => s

/-- Received TYPE 1 packets with an undefined LOP are discarded and counted (R306). -/
def purgeLops (p : Nat) (s : State) : State :=
  let x := getPort s p
  let bad (pkt : List LinkUnit) : Bool := match pkt with
    | [] => true
    | u :: _ => let l := (parseHead u).lop; l == 0 || decide (7 < l)
  let gone := x.rxBuf.filter bad
  if gone = [] then s
  else
    let n := gone.foldl (fun n k => n + k.length) 0
    bump (regAt .ligature 0 0x68) 31 16 gone.length (setPort p (owe n { x with rxBuf := x.rxBuf.filter (fun k => !bad k) }) s)

/-- Units of an accepted codeword. -/
def takeUnits (p : Nat) (us : List LinkUnit) (s : State) : State := purgeLops p (forEach us (takeUnit p) s)

/-- A good codeword of a linked port: its control bits, and its units where it is the next one (R268). A lane that waited is taken up once they
are delivered, since that may end in a retrain (R269). -/
def acceptCodeword (p : Nat) (cw : Codeword) (s : State) : State :=
  let s := takeAck p cw s
  let x := getPort s p
  if x.st ≠ .ready ∧ x.st ≠ .active then s
  else if cw.seq.val = (x.ack + 1) % 512 then
    nextSparing p (takeUnits p cw.units.toList (rxSwitchNow p (setPort p { x with ack := cw.seq.val, nak := false } s)))
  else s

/-- CODEWORD_RECEIVE: READY and ACTIVE acknowledge or NAK and answer with one codeword (log 35); IDENTIFY takes identity packets, and answers an
uncorrectable codeword. A partner may leave IDENTIFY earlier or later than this port. -/
def execCodewordReceive (p : Fin 16) (cw : Codeword) (s : State) : Host.Outcome State Fault Refusal :=
  let p := p.val
  let x := getPort s p
  let linked : Bool := x.st == .ready || x.st == .active
  let ident : Bool := inStage x .identify .identify && !x.hold
  if !linked && !ident then .next s
  else
    let s := countSymErrs p cw.symErrs s
    if !cw.good then
      let s := bump (regAt .links 0 0x48) 15 0 1 (bump (regAt .port p 0x88) 31 16 1 s)
      .next (if linked then sendCodeword p (modPort p (fun x => { x with nak := true }) s) else identLost p s)
    else
      let s := if cw.corrected then bump (regAt .port p 0x88) 15 0 1 s else s
      if linked then
        let s := if cw.ident then identCodeword p cw s else acceptCodeword p cw s
        let y := getPort s p
        .next (if y.st = .ready ∨ y.st = .active then sendCodeword p s else s)
      else .next (if cw.ident then identCodeword p cw s else earlyCodeword p cw s)

/-- RETRAIN_TIMEOUT: 100 ms without an end (R278). -/
def execRetrainTimeout (p : Fin 16) (s : State) : Host.Outcome State Fault Refusal :=
  if (getPort s p.val).st = .retrain then .next (lostPort p.val 3 s) else .next s

/-- LANE_ERROR_THRESHOLD: a receive lane reaches LANE_ERR_THRESH × 1,024 errors within 2^30 symbols. -/
def execLaneErrorThreshold (p : Fin 16) (lane : Fin 9) (s : State) : Host.Outcome State Fault Refusal :=
  let x := getPort s p.val
  if (x.st = .ready ∨ x.st = .active) ∧ laneThresh s ≠ 0 then .next (retireLane p.val (laneAt x.reversed lane.val) s)
  else .next s

/-- SPARE_REQ: the partner retires one of this port's transmit lanes; the SPARE_ACK names the switch as it leaves (nameSwitch). -/
def execSpareReq (p : Fin 16) (lane : Fin 9) (s : State) : Host.Outcome State Fault Refusal :=
  let x := getPort s p.val
  if x.st ≠ .ready ∧ x.st ≠ .active ∨ !bit x.tx.active lane.val ∨ txSparing x ≠ [] then .next s
  else
    let s := noteLane p.val false lane.val s
    match x.tx.spare with
    | some _ => .next (queueControl p.val (controlUnit 2 lane.val 0) s)
    | none =>
      .next (enterRetrain p.val (modPort p.val (fun x => { x with tx := { x.tx with bad := x.tx.bad ||| 2 ^ lane.val } }) s))

/-- SPARE_ACK: the partner names the codeword of the switch; the retirement is recorded, and a lane that waited is taken up. -/
def execSpareAck (p : Fin 16) (lane : Fin 9) (sw : Fin 512) (s : State) : Host.Outcome State Fault Refusal :=
  let x := getPort s p.val
  if x.spareOut ≠ some lane.val ∨ x.rxSwitch.isSome ∨ (x.st ≠ .ready ∧ x.st ≠ .active) then .next s
  else
    let s := rxSwitchNow p.val (setPort p.val { x with rxSwitch := some (lane.val, sw.val) } s)
    .next (noteLane p.val true (laneAt x.reversed lane.val) s)

/-- PORT_ENABLE: the host writes ENABLE (R277, R280). -/
def execPortEnable (p : Fin 16) (en : Bool) (s : State) : Host.Outcome State Fault Refusal :=
  let x := getPort s p.val
  if en then
    if x.st = .ready ∧ !x.loopback ∧ !x.clash then
      .next (flushWaiting (setPort p.val { x with st := .active, enable := true } s))
    else .next s
  else if x.enable then
    let done := x.txQ = [] ∧ x.txPart = []
    .next (setPort p.val { x with enable := false, st := if x.st = .active ∧ done then .ready else x.st } s)
  else .next s

/-- PORT_RETRAIN_CMD. -/
def execPortRetrainCmd (p : Fin 16) (s : State) : Host.Outcome State Fault Refusal := .next (enterRetrain p.val s)

/-- PORT_DOWN_CMD. -/
def execPortDownCmd (p : Fin 16) (s : State) : Host.Outcome State Fault Refusal :=
  if (getPort s p.val).st = .off then .next s else .next (lostPort p.val 2 s)

end Sys2Proof.Machine
end

