-- ==== Sys2Proof/Machine/PowerSeq.lean ====
section
/-! DEFINITION. Power, resets, device stop and clocks: the commands of R344 to R346, R362, R372, R378, R380 and R445 to R448. -/

namespace Sys2Proof.Machine

/-! ## Resets (R362, R378) -/

/-- What the sensors and monitors of the Understory keep through a reset of the rest: readings and their extremes. -/
def keptSupply (s : State) : Supply :=
  { Supply.cold with
    rails := Vector.ofFn (fun i => { Rail.cold with mv := (getRail s i.val).mv, low := (getRail s i.val).low })
    temps := s.supply.temps, highs := s.supply.highs, trip := s.supply.trip }

/-- Ports that are up drop with LAST_DOWN 5. -/
def dropAllPorts (s : State) : State :=
  forEach ((List.range 16).filter (fun p => (getPort s p).st != .off)) (fun p s => dropPort p 5 s) s

/-- Enter HELD with everything but UCLK_COUNT, the Blotter, availability counts and the pins lost; HBM contents become open
(R362, R378; log 39). -/
def resetAll (code detail : Nat) (s : State) : State :=
  let s := dropAllPorts s
  takeFree { State.reset with
    pending := s.pending, free := s.free, outs := s.outs, uclk := s.uclk, inTick := s.inTick, fuses := s.fuses, power := s.power
    blotter := s.blotter, supply := keptSupply s
    seedbank := { Seedbank.cold with avRun := s.seedbank.avRun, avLost := s.seedbank.avLost }
    hbm := ⟨[], [⟨0, dpaEnd, s.free⟩], [], []⟩
    boot := { Boot.held with fault := code, detail := detail }
    ports := Vector.ofFn (fun p =>
      { Port.off with lastDown := 5, peer := { (getPort s p.val).peer with valid := false } }) }

/-- A power-on reset of VAON: only what is fused, the pins and the model's own records stay (R347, R362, R423). -/
def resetCold (s : State) : State :=
  takeFree { State.reset with
    pending := s.pending, free := s.free, outs := s.outs, fuses := s.fuses
    power := { s.power with
        released := false, mainUp := false, ramp := [], pwrgd := false, thermtrip := false, mevent := 0, brakes := 0,
        inMv := 0, inMa := 0, inW := 0, uvNow := false }
    hbm := ⟨[], [⟨0, dpaEnd, s.free⟩], [], []⟩ }

/-- CBL_PWR goes off at every connector, as it does with the main rails (log 40). -/
def cablesOff (s : State) : State :=
  { s with power := { s.power with cables := s.power.cables.map (fun c => { c with pwrOn := false, draw := 0 }) } }

/-- An event of the BOOT page: ARG0 holds BOOT_FAULT as the register reads, code and detail, and ARG1, the layer record's address of its class,
0: no event of the page has a layer (R422, log 164). -/
def raiseBoot (event : Nat) (s : State) : State := raise .boot 0 event (.args (s.boot.fault + 2 ^ 8 * s.boot.detail) 0) s

/-- A main rail falls below its reset threshold, to a voltage that no operand gives: a free value below the threshold (log 156). HELD with code
0x10 naming the rail, SUPPLY_RESET with the voltage and the cycles below warning (R422); the cycles of a rail that falls straight through
are those since the last tick. -/
def supplyReset (rail : Nat) (s : State) : State :=
  let mv := (Config.freeWord s.free).toNat % max 1 (resetMv s rail)
  let r := getRail s rail
  let cycles := now s - (if r.below then r.since else s.uclk)
  let s := takeFree (modRail rail (fun r => { r with mv := mv, low := min r.low mv }) s)
  let s := { s with power := { s.power with mainUp := false, ramp := s.power.ramp.takeWhile (fun k => k != rail), pwrgd := false } }
  raise .supply 0 2 (.args (rail + 2 ^ 16 * mv) cycles) (setMevent 1 (resetAll 0x10 rail (cablesOff s)))

/-- SUPPLY_RESET: a rail other than VAON. -/
def execSupplyReset (rail : Fin 8) (s : State) : Host.Outcome State Fault Refusal :=
  if rail.val ≠ 7 ∧ s.power.mainUp then .next (supplyReset rail.val s) else .next s

/-- VAON_RESET. -/
def execVaonReset (s : State) : Host.Outcome State Fault Refusal :=
  if s.power.vaon then
    let s := cablesOff (resetCold s)
    .next { s with power := { s.power with vaon := false } }
  else .next s

/-! ## Power sequence (R446, R447) -/

/-- POWER_ON: P54V rises above 42 V. -/
def execPowerOn (s : State) : Host.Outcome State Fault Refusal :=
  if s.power.p54v then .next s else .next { s with power := { s.power with p54v := true, vaon := true } }

/-- UNDERSTORY_RELEASE: VAON above 770 mV for 10 ms; UCLK_COUNT starts at 0, the boot ROM runs, and the management endpoint counts from
nothing. -/
def execUnderstoryRelease (s : State) : Host.Outcome State Fault Refusal :=
  if s.power.p54v ∧ !s.power.released then
    .next { s with power := { s.power with vaon := true, released := true, mevent := 0, brakes := 0 }, uclk := 0, inTick := 0 }
  else .next s

/-- MOD_EN_ASSERT: the main rails start to ramp, each after the one before it in `rampOrder` is within 3% (R446); the ticks' samples show
which are up. -/
def execModEnAssert (s : State) : Host.Outcome State Fault Refusal :=
  .next { s with power := { s.power with modEn := true } }

/-- PWRGD_RELEASE: every main rail is within 3%, the last of `rampOrder` too; CBL_PWR comes on with them (log 40). -/
def execPwrgdRelease (s : State) : Host.Outcome State Fault Refusal :=
  if s.power.modEn ∧ s.power.released ∧ !s.power.pwrgd then
    let on (c : Cable) : Cable := { c with pwrOn := c.pwrOn || !s.power.mainUp }
    .next { s with power := { s.power with mainUp := true, ramp := rampOrder, pwrgd := true, cables := s.power.cables.map on } }
  else .next s

/-- MOD_EN_DEASSERT: the main rails turn off, the last one up first. With PERST# deasserted the rails fall past their reset
thresholds and R362 applies, VCORE3 crossing first (R448); THERMTRIP# is released. -/
def execModEnDeassert (s : State) : Host.Outcome State Fault Refusal :=
  let wasUp := s.power.mainUp
  let s := { s with power := { s.power with modEn := false, ramp := [], thermtrip := false } }
  if !wasUp then .next { s with power := { s.power with mainUp := false, pwrgd := false } }
  else if s.power.perst then
    .next (takeFree (cablesOff { s with
      power := { s.power with mainUp := false, pwrgd := false }, hbm := ⟨[], [⟨0, dpaEnd, s.free⟩], [], []⟩ }))
  else .next (supplyReset 3 s)

/-- INPUT_POWER_LOSS: P54V below 40 V; every rail and VAON turn off. -/
def execInputPowerLoss (s : State) : Host.Outcome State Fault Refusal :=
  if s.power.p54v then
    let s := cablesOff (resetCold s)
    .next { s with power := { s.power with p54v := false, vaon := false } }
  else .next s

/-- INPUT_UV: P54V between 40 V and 44 V; the module goes on. -/
def execInputUv (mv : BitVec 16) (s : State) : Host.Outcome State Fault Refusal :=
  if s.power.p54v ∧ 40000 ≤ mv.toNat ∧ mv.toNat < 44000 then
    .next (setMevent 3 { s with power := { s.power with inMv := mv.toNat, uvNow := true } })
  else .next s

/-- CBL_OVERLOAD: CBL_PWR is removed at the connector; its ports see loss of signal (R445). -/
def execCblOverload (k : Fin 4) (s : State) : Host.Outcome State Fault Refusal :=
  let c := vget Cable.none s.power.cables k.val
  let s := setMevent 4 { s with power := { s.power with cables := vset s.power.cables k.val { c with pwrOn := false, draw := 0 } } }
  .next (forEach ((List.range 16).filter (fun p => connectorOf p == k.val && (getPort s p).st != .off)) (lostPort · 1) s)

/-! ## PCIe attachment (R372, R374, R378, R384) -/

/-- PERST_DEASSERT: the pin changes; once the main rails are up the PLLs start to lock and the link to train. -/
def execPerstDeassert (s : State) : Host.Outcome State Fault Refusal :=
  .next { s with power := { s.power with perst := false } }

/-- CONFIG_READY: FCLK, MCLK and PCLK are locked and configuration requests are answered. -/
def execConfigReady (s : State) : Host.Outcome State Fault Refusal :=
  if !s.power.perst ∧ s.power.mainUp then
    .next { s with boot := { s.boot with linkReady := true, fclk := true, mclk := true, pclk := true } }
  else .next s

/-- LINK_TRAINED: LINK_STATUS; LINK_DEGRADED below 64 GT/s x16. -/
def execLinkTrained (rate : BitVec 3) (width : BitVec 5) (flit : Bool) (s : State) : Host.Outcome State Fault Refusal :=
  let r := rate.toNat
  let w := width.toNat
  if !s.power.perst ∧ s.power.mainUp ∧ 1 ≤ r ∧ r ≤ 6 ∧ 1 ≤ w ∧ w ≤ 16 then
    let s := { s with boot := { s.boot with rate := r, width := w, flit := flit } }
    .next (if r < 6 ∨ w < 16 then raise .pcie 0 2 (.args r w) s else s)
  else .next s

/-- What the host attachment keeps through a host reset: PERST# restarts everything, the others keep the PLLs, an FLR of the PF the
link too. -/
def keepAttach (kind : HostResetKind) (old new : Boot) : Boot :=
  match kind with
  | .perst => new
  | .hot => { new with fclk := old.fclk, mclk := old.mclk, pclk := old.pclk }
  | .linkDown => { new with fclk := old.fclk, mclk := old.mclk, pclk := old.pclk }
  | .pfFlr =>
    { new with
        fclk := old.fclk, mclk := old.mclk, pclk := old.pclk, linkReady := old.linkReady, rate := old.rate
        width := old.width, flit := old.flit }

def resetDetail : HostResetKind → Nat
  | .perst => 1 | .hot => 2 | .linkDown => 3 | .pfFlr => 4

/-- HOST_RESET. PERST# asserted while MOD_EN is 0 has no effect (R448). -/
def execHostReset (kind : HostResetKind) (s : State) : Host.Outcome State Fault Refusal :=
  if s.power.perst then .next s
  else
    let pins := if kind = .perst then { s.power with perst := true } else s.power
    if !s.power.modEn then .next { s with power := pins }
    else
      let t := resetAll 0x14 (resetDetail kind) s
      let t := { t with power := pins, boot := keepAttach kind s.boot t.boot }
      .next (raiseBoot 4 t)

/-- Registers of a VF that an FLR clears: its windows' EN bits, as they read and as they are in effect (R8), and its MSI-X table. -/
def clearVf (v : Nat) (s : State) : State :=
  let s := forEach (List.range 4) (fun k s =>
    let a := regAt .vfunc v (0x40 + 8 * k)
    setF (effAt a) 0 0 0 (setF a 0 0 0 s)) s
  setMsix v Msix.cold { s with regs := tabDrop s.regs (0x1000_0000 * v + 0x10_1000) (0x1000_0000 * v + 0x10_1400) }

/-- An FLR of a VF (R378, R420). -/
def flrVf (v : Nat) (s : State) : State :=
  let mine := (ctxIds s).filter (fun c => ctxFunc s c == v)
  let s := forEach mine (fun c s => if (getCtx s c).st = .retained then releaseCtx c s else killCtx true c s) s
  let s := countEvent .pcie (regAt .pcie 0 0x4C) 31 0 (clearVf v s)
  raise .pcie 0 0 (.args v 0) s

/-- VF_FLR. -/
def execVfFlr (vf : Fin 16) (s : State) : Host.Outcome State Fault Refusal :=
  if vf.val ≠ 0 ∧ bit s.boot.vfEn vf.val then .next (flrVf vf.val s) else .next s

/-- VF_ENABLE: the VFs present from now on; those that the PF disables are reset as by an FLR (R374, R378). -/
def execVfEnable (mask : BitVec 16) (s : State) : Host.Outcome State Fault Refusal :=
  let m := putBits mask.toNat 0 0 0
  let gone := (List.range 16).filter (fun v => bit s.boot.vfEn v && !bit m v)
  let s := forEach gone flrVf s
  .next { s with boot := { s.boot with vfEn := m } }

/-! ## Device stop (R344, R380) -/

/-- FABRIC_UNLOCK: a loss of lock on the fabric, memory or PCIe PLL in RUN. -/
def execFabricUnlock (pll : FabricPll) (s : State) : Host.Outcome State Fault Refusal :=
  if s.boot.st ≠ .run then .next s
  else
    let b := s.boot
    let b := match pll with
      | .fclk => { b with fclk := false }
      | .mclk => { b with mclk := false }
      | .pclk => { b with pclk := false }
    let k := match pll with
      | .fclk => 0 | .mclk => 1 | .pclk => 2
    .next (stopDevice 0x22 (raise .clock 0 2 (.args k 0) { s with boot := b }))

/-- Every grove is gated; a sweep that runs ends with no result (R408). -/
def gateAll (s : State) : State :=
  forEach (List.range 64) (gateGrove .gated) { s with seedbank := { s.seedbank with sweeping := none } }

/-- DEVICE_STOPPED: every context has completed, one that became READY meanwhile too; the device enters STOPPED and records the cause. -/
def execDeviceStopped (s : State) : Host.Outcome State Fault Refusal :=
  match s.boot.stopping with
  | none => .next s
  | some code =>
    let s := forEach (ctxIds s) (fun c s => ctxFault c 0x0303 s) s
    let s := { s with boot := { s.boot with st := .stopped, stopping := none, stopCode := code, fault := code, detail := 0 } }
    let s := forEach ((List.range 16).filter (fun p => (getPort s p).st != .off)) (fun p s => lostPort p 5 s) (gateAll s)
    .next (raiseBoot 3 (setMevent 2 s))

/-! ## Grove PLLs (R346) -/

/-- PLL_LOCK_TIMEOUT: the PLL in use has not locked within 600 UCLK cycles of a wake. -/
def execPllLockTimeout (g : Fin 64) (s : State) : Host.Outcome State Fault Refusal :=
  if (getGrove s g.val).pw = .waking then .next (pllFailed g.val (bump (regAt .clock 0 0x50) 15 0 1 s)) else .next s

/-- PLL_LOCK_LOSS: the grove's clock is lost while it is awake; its layer is suspect, and the other PLL locks. -/
def execPllLockLoss (g : Fin 64) (s : State) : Host.Outcome State Fault Refusal :=
  let x := getGrove s g.val
  if x.pw ≠ .awake then .next s
  else
    let s := bump (regAt .clock 0 0x50) 15 0 1 s
    let s := match x.owner with
      | some c => replayError .suspect c (.ofCause 5) s
      | none => s
    .next (pllFailed g.val (modGrove g.val (fun y => { y with pw := .waking }) s))

end Sys2Proof.Machine
end

