-- ==== Sys2Proof/Machine/RepairMap.lean ====
section
/-! DEFINITION. Staging windows, the check of a staged repair map and its application (R413 to R416, R232, R434). -/

namespace Sys2Proof.Machine

/-! ## Windows (R434) -/

def keyStage : Nat := 0x21_0000
def imgStage : Nat := 0x30_0000
def mapStage : Nat := 0x40_0000

/-- Bytes of a staging window, from its words. -/
def winRead (s : State) (base off n : Nat) : List Byte :=
  (List.range n).map (fun k =>
    let a := off + k
    BitVec.ofNat 8 (bits (getR s (base + a / 4 * 4)) (8 * (a % 4) + 7) (8 * (a % 4))))

def winField (s : State) (base off n : Nat) : Nat := ofBytes (winRead s base off n)

/-! ## Check (R413, R414) -/

def mostEntries : Nat := 131064

/-- An entry's KIND is defined, its fields are in range and its other bits are zero. -/
def entryOk (e : Nat) : Bool :=
  let f := e % 2 ^ 60
  match entryKind e with
  | 1 => decide (f < 1088)
  | 2 => decide (f < 128)
  | 3 => decide (f < 64)
  | 4 => decide (bits f 10 0 < 1088) && decide (bits f 23 11 < 4608) && decide (f < 2 ^ 26)
  | 5 => decide (bits f 17 8 < 568) && decide (f < 2 ^ 21)
  | 6 => decide (f < 256)
  | 7 => decide (bits f 8 5 ≤ 8) && decide (f < 2 ^ 9)
  | 8 => decide (f < 2 ^ 11)
  | 9 => decide (bits f 29 13 < 76288) && decide (f < 2 ^ 32)
  | 10 => decide (bits f 29 13 < 76288) && decide (f < 2 ^ 42)
  | _ => false

/-- What an entry uses that no other may use: a redundant row, a seam spare, a remap slot, a grove's spare nib or PLL. -/
def entryUse (retired : List Nat) (e : Nat) : Option Nat :=
  let f := e % 2 ^ 60
  match entryKind e with
  | 1 => if retired.contains (f / 17) then none else some (mapEntry 1 (f / 17))
  | 2 => if retired.contains (bits f 5 0) then none else some (mapEntry 2 (bits f 5 0))
  | 4 => some (mapEntry 4 (bits f 10 0 + 2 ^ 11 * (bits f 23 11 / 256) + 2 ^ 24 * bits f 25 24))
  | 5 => some (mapEntry 5 (bits f 7 0 + 2 ^ 18 * bits f 20 18))
  | 10 => some (mapEntry 10 (bits f 2 0 + 2 ^ 30 * bits f 41 30))
  | _ => none

/-- Reasons 4 to 6 in increasing index: (reason, index), reason 0 for none. -/
def checkEntries (retired : List Nat) : Nat → Option Nat → List Nat → List Nat → Nat × Nat
  | _, _, _, [] => (0, 0)
  | i, prev, used, e :: t =>
    if (match prev with
      | some p => decide (e ≤ p)
      | none => false) then (4, i)
    else if !entryOk e then (5, i)
    else match entryUse retired e with
      | none => checkEntries retired (i + 1) (some e) used t
      | some u => if used.contains u then (6, i) else checkEntries retired (i + 1) (some e) (u :: used) t

/-- The groves that KIND 3 entries name. -/
def retiredIn (es : List Nat) : List Nat := es.filterMap (fun e => if entryKind e = 3 then some (e % 64) else none)

def checkList (es : List Nat) : Nat × Nat := checkEntries (retiredIn es) 0 none [] es

/-- The staged entries. -/
def stagedEntries (s : State) : List Nat :=
  (List.range (winField s mapStage 0x10 4)).map (fun k => winField s mapStage (64 + 8 * k) 8)

/-- The whole check of R414: the header first. -/
def checkMap (s : State) : Nat × Nat :=
  let count := winField s mapStage 0x10 4
  if winField s mapStage 0 4 ≠ 0x5052_4D4E ∨ winField s mapStage 4 2 ≠ 1 ∨ mostEntries < count then (1, 0x1_FFFF)
  else if winField s mapStage 8 8 ≠ s.fuses.serial.toNat then (2, 0x1_FFFF)
  else if winRead s mapStage 0x18 8 ≠ (shake256 (winRead s mapStage 64 (8 * count))).take 8 then (3, 0x1_FFFF)
  else checkList (stagedEntries s)

/-! ## Application (R232, R384 step 5) -/

/-- DRAM row key of a KIND 9 or 10 entry. -/
def entryDram (f : Nat) : Nat := bits f 29 13 * 1024 + bits f 12 9 * 64 + bits f 8 3

/-- One entry takes effect. A soft repair applied again (KIND 9) raises no count of PPR_STATUS (DESIGN CHOICE, log 175). KIND 6 entries raise nothing, though both planes of a seam be failed by them (DESIGN CHOICE, log 128). -/
def applyEntry (e : Nat) (s : State) : State :=
  let f := e % 2 ^ 60
  match entryKind e with
  | 1 =>
    let s := modPNib f (fun q => { q with retired := true }) s
    if f % 17 = 16 then s else modGrove (f / 17) (fun x => { x with spareAt := some (f % 17) }) s
  | 2 =>
    modGrove (bits f 5 0) (fun x =>
      if bit f 6 then { x with pllBad1 := true } else { x with pllBad0 := true, pll := 1 }) s
  | 3 => modGrove f (fun x => { x with pw := .retired }) s
  | 4 => modPNib (bits f 10 0) (fun q => { q with remap := tabInsert q.remap (bits f 23 11) (bits f 25 24) }) s
  | 5 =>
    let d := tabGet SeamDir.zero s.canopy.seams (bits f 7 0)
    { s with canopy := { s.canopy with seams := tabSet SeamDir.zero s.canopy.seams (bits f 7 0) { d with spares := d.spares ||| 2 ^ bits f 20 18 } } }
  | 6 =>
    let d := tabGet SeamDir.zero s.canopy.seams f
    { s with canopy := { s.canopy with seams := tabSet SeamDir.zero s.canopy.seams f { d with failed := true } } }
  | 8 => modMc (bits f 2 0) (fun m => { m with wayGone := tabSet false m.wayGone (16 * bits f 6 3 + bits f 10 7) true }) s
  | 9 =>
    let hard : Bool := bit f 31
    modMc (bits f 2 0) (fun m => { m with
        repaired := tabSet 0 m.repaired (entryDram f) (if hard then 3 else 1)
        softBanks := if hard then m.softBanks else tabSet false m.softBanks (bankOf (entryDram f)) true }) s
  | 10 => modMc (bits f 2 0) (fun m => { m with repaired := tabSet 0 m.repaired (entryDram f) 2, slots := m.slots + 1 }) s
  | _ => s

/-- The Seedbank and the spares before any map. -/
def clearSpares (s : State) : State :=
  { s with
      pnibs := s.pnibs.filterMap (fun p =>
        let q : PNib := { PNib.cold with detects := p.2.detects, margin := p.2.margin }
        if q = PNib.cold then none else some (p.1, q)),
      groves := s.groves.map (fun x => { Grove.cold with swept := x.swept, lock := x.lock }),
      canopy := { s.canopy with seams := s.canopy.seams.filterMap (fun p =>
        let d : SeamDir := { SeamDir.zero with crcs := p.2.crcs }
        if d = SeamDir.zero then none else some (p.1, d)) },
      mcs := s.mcs.map (fun m => { m with trained := false, repaired := [], softBanks := [], slots := 0, wayGone := [] }) }

/-- Train every stack but a failing one. -/
def trainStacks (failed : Option (Fin 8)) (s : State) : State :=
  forEach (List.range 8) (fun m s => modMc m (fun x => { x with trained := failed.map (fun f => f.val) != some m }) s) s

/-- A hard repair asked for and allowed at MAP_GO: DONE is set (R232, R413, R441). -/
def hardDone (s : State) (e : Nat) : Nat :=
  let f := e % 2 ^ 60
  if entryKind e = 9 ∧ bit f 30 ∧ !bit f 31 ∧ bit s.boot.hardEn (bits f 2 0) then putBits e 31 31 1 else e

/-- Apply a checked map: spares in use, training, HBM repairs; MAP_READY unless a stack failed to train. -/
def applyMap (es : List Nat) (gen : Nat) (selfBuilt : Bool) (failed : Option (Fin 8)) (s : State) : State :=
  let s := forEach es applyEntry (clearSpares s)
  let s := trainStacks failed s
  let s := { s with
    boot := { s.boot with mapBusy := false, selfBusy := false, mapReady := failed.isNone, selfBuilt := selfBuilt && failed.isNone }
    seedbank := { s.seedbank with entries := es.map (BitVec.ofNat 64 ·), gen := gen, errReason := 0, errIndex := 0 } }
  if failed.isSome then s
  else forEach es (fun e s => if hardDone s e = e then s else applyEntry (hardDone s e) (mapRewrite e (hardDone s e) s)) s

end Sys2Proof.Machine
end

