-- ==== Sys2Proof/Machine/BootSeq.lean ====
section
/-! DEFINITION. Bring-up and security: keys, images, the repair map, ARM, VERIFY, DISARM and attestation (R381 to R394, R414 to R416). -/

namespace Sys2Proof.Machine

def setBoot (f : Boot → Boot) (s : State) : State := { s with boot := f s.boot }

/-- One count in LOCKED_WRITES. -/
def countLocked (s : State) : State := bump (regAt .boot 0 0x70) 31 0 1 s

/-! ## Keys (R381) -/

/-- Images accepted under a slot are discarded. -/
def dropImages (slot : Nat) (s : State) : State :=
  setBoot (fun b => { b with images := b.images.map (fun i => match i with
    | some x => if x.keySlot = slot then none else some x
    | none => none) }) s

/-- The key of a slot; slot 0 holds the fused root key. -/
def keyOf (s : State) (slot : Nat) : Option (List Byte) := if slot = 0 then some s.fuses.rootKey else vget none s.boot.keys slot

/-- KEY_LOAD: the staged key is parsed for slots 1 to 3, in HELD. -/
def execKeyLoad (slot : BitVec 2) (s : State) : Host.Outcome State Fault Refusal :=
  if s.boot.st = .held ∧ slot.toNat ≠ 0 ∧ s.boot.keyParse.isNone then
    .next (setBoot (fun b => { b with keyParse := some slot.toNat }) s)
  else .next s

/-- KEY_PARSED: the slot holds the key, or KEY_REJECT sets and the slot is empty. -/
def execKeyParsed (s : State) : Host.Outcome State Fault Refusal :=
  match s.boot.keyParse with
  | none => .next s
  | some k =>
    let key := winRead s keyStage 0 1793
    let ok := Config.keyParses key
    .next (setBoot (fun b =>
      { b with keyParse := none, keyReject := !ok, keys := vset b.keys k (if ok then some key else none) }) (dropImages k s))

/-- KEY_CLEAR. -/
def execKeyClear (slot : BitVec 2) (s : State) : Host.Outcome State Fault Refusal :=
  if s.boot.st = .held ∧ slot.toNat ≠ 0 then
    .next (setBoot (fun b => { b with keys := vset b.keys slot.toNat none }) (dropImages slot.toNat s))
  else .next s

/-! ## Images (R382, R383) -/

/-- IMG_GO. -/
def execImgGo (s : State) : Host.Outcome State Fault Refusal :=
  if s.boot.st = .held ∧ !s.boot.imgBusy then .next (setBoot (fun b => { b with imgBusy := true }) s) else .next s

/-- Payload limit of an image kind; 0 for a kind that does not exist. -/
def payloadLimit : Nat → Nat
  | 1 => 1046528 | 2 => 262144 | 3 => 524288 | 4 => 131072 | _ => 0

def minVersion (s : State) (kind : Nat) : Nat := getR s (regAt .boot 0 (0x50 + 4 * kind))
def keyDisabled (s : State) (slot : Nat) : Bool := bit (getF s (regAt .boot 0 0x64) 3 0) slot

/-- Result of the checks of R383 on the staged image: 0, or the first failure. -/
def imageResult (s : State) : Nat :=
  let f (off n : Nat) : Nat := winField s imgStage off n
  let kind := f 4 1
  let slot := f 5 1
  let len := f 0x0C 4
  if f 0 4 ≠ 0x4946_4D4E ∨ f 6 2 ≠ 0 ∨ f 0x10 48 ≠ 0 ∨ len = 0 ∨ payloadLimit kind < len then 1
  else
    let siglen := f (0x40 + len) 2
    if siglen = 0 ∨ 1536 < siglen ∨ 2 ^ 20 < 0x42 + len + siglen then 1
    else match keyOf s slot with
      | none => 2
      | some key =>
        if keyDisabled s slot then 2
        else if !Config.falconVerify key (winRead s imgStage 0 (0x40 + len)) (winRead s imgStage (0x42 + len) siglen) then 3
        else if f 8 4 < minVersion s kind then 4
        else 0

/-- IMAGE_VERIFIED: the payload is installed, or IMG_REJECTED. A new supervisor image restarts a running supervisor, which abandons
a map application and clears MAP_READY. -/
def execImageVerified (s : State) : Host.Outcome State Fault Refusal :=
  if !s.boot.imgBusy then .next s
  else
    let r := imageResult s
    let kind := winField s imgStage 4 1
    let s := setBoot (fun b => { b with imgBusy := false, imgKind := kind % 8, imgValid := true, imgResult := r }) s
    if r ≠ 0 then .next (raiseBoot 2 s)
    else
      let len := winField s imgStage 0x0C 4
      let img : Image := ⟨winField s imgStage 8 4, winField s imgStage 5 1, (shake256 (winRead s imgStage 0 (0x40 + len))).take 32,
        winRead s imgStage 0x40 len⟩
      let s := setBoot (fun b => { b with images := vset b.images (kind - 1) (some img) }) s
      if kind = 1 then
        .next (setBoot (fun b =>
          { b with
              supv := true, mapReady := b.mapReady && !b.supv, mapBusy := b.mapBusy && !b.supv,
              selfBusy := b.selfBusy && !b.supv }) s)
      else .next s

/-! ## The repair map (R414, R416) -/

/-- MAP_GO and SELF_MAP act in HELD, once the supervisor runs, while no map is busy or in force. -/
def mapFree (s : State) : Bool := s.boot.st == .held && s.boot.supv && !s.boot.mapBusy && !s.boot.mapReady

/-- PPR_HARD_EN of every stack, bit m (R232). -/
def hardEnables (s : State) : Nat :=
  (List.range 8).foldl (fun v m => v + (if getF s (regAt .memctl m 0x40) 22 22 = 1 then 2 ^ m else 0)) 0

/-- MAP_GO: the whole staged map is checked before any of it is applied; PPR_HARD_EN counts as it stands now (R441). -/
def execMapGo (s : State) : Host.Outcome State Fault Refusal :=
  if !mapFree s then .next s
  else
    let (why, idx) := checkMap s
    let s := { s with seedbank := { s.seedbank with errReason := why, errIndex := idx } }
    .next (if why = 0 then setBoot (fun b => { b with mapBusy := true, hardEn := hardEnables s }) s else s)

/-- MAP_APPLIED. -/
def execMapApplied (failed : Option (Fin 8)) (s : State) : Host.Outcome State Fault Refusal :=
  if s.boot.mapBusy ∧ !s.boot.selfBusy then
    .next (applyMap (stagedEntries s) (winField s mapStage 0x14 4) false failed s)
  else .next s

/-- SELF_MAP. -/
def execSelfMap (s : State) : Host.Outcome State Fault Refusal :=
  if mapFree s then .next (setBoot (fun b => { b with mapBusy := true, selfBusy := true }) s) else .next s

/-- SELF_MAP_DONE: the map that the self-test found is in force, every nib swept, HBM zero. A list that is no valid map, or holds a
lane, is no result of the self-test. -/
def execSelfMapDone (entries : List Word64) (failed : Option (Fin 8)) (s : State) : Host.Outcome State Fault Refusal :=
  let es := entries.map (fun e => e.toNat)
  if s.boot.selfBusy ∧ (checkList es).1 = 0 ∧ es.all (fun e => entryKind e != 7) ∧ es.length ≤ mostEntries then
    let s := applyMap es 0 true failed { s with hbm := ⟨[], [], [], []⟩ }
    let s := forEach (List.range 1088) (fun p s => modPNib p (fun q => { q with sweptOk := true }) s) s
    .next { s with groves := s.groves.map (fun x => { x with swept := s.uclk }) }
  else .next s

/-! ## The configuration stream and the checks of VERIFY (R385, R386, R389, R439, R440) -/

/-- BAR0 offsets of the stream's records, in order. -/
def streamOffs : List Nat :=
  [0x54, 0x58, 0x5C, 0x60, 0x64, 0x3048, 0x304C, 0x4040, 0x5040, 0x5044] ++
  (List.range 8).flatMap (fun i => [0x5080 + 8 * i, 0x5084 + 8 * i]) ++
  [0x6040, 0x7040, 0x7044, 0x7048, 0x9040, 0xA040, 0xB040, 0xC040, 0xD040, 0xE040, 0xF040, 0x1_0040, 0x1_1040, 0x1_4040,
    0x1_5040, 0x1_6040] ++
  (List.range 8).flatMap (fun n => [0x2_0040 + 0x1000 * n, 0x2_0044 + 0x1000 * n]) ++
  (List.range 16).map (fun p => 0x3_0040 + 0x1000 * p)

def streamBytes (s : State) : List Byte := streamOffs.flatMap (fun a => bytesOf 4 a ++ bytesOf 4 (getR s a))

/-- What VERIFY refuses in one register: a required field that is zero, another invalid value. -/
structure Needs where
  off  : Nat
  zero : Nat → Bool
  bad  : Nat → Bool

/-- The registers of R440, in increasing offset. -/
def needs (s : State) : List Needs :=
  let z (hi lo : Nat) (v : Nat) : Bool := bits v hi lo == 0
  let none_ (_ : Nat) : Bool := false
  [⟨0x3048, none_, fun v => bits v 13 12 == 3⟩,
   ⟨0x4040, z 4 0, fun v => decide (27 < bits v 4 0)⟩,
   ⟨0x5040, z 11 0, none_⟩,
   ⟨0x5044, fun v => z 7 0 v || z 15 8 v, fun v => decide (bits v 7 0 < 60) || decide (105 < bits v 7 0) ||
      decide (bits v 15 8 < bits v 7 0) || decide (110 < bits v 15 8)⟩] ++
  (List.range 8).flatMap (fun i =>
    [⟨0x5080 + 8 * i, fun v => z 11 0 v || z 23 12 v, none_⟩,
     ⟨0x5084 + 8 * i, fun v => z 11 0 v || z 17 12 v, fun v =>
        decide (50 < bits v 17 12) || decide (integMv s i ≤ bits v 11 0) || decide (warnMv s i ≤ integMv s i)⟩]) ++
  [⟨0x7040, fun v => z 11 0 v || z 24 12 v, fun v => decide (1800 < bits v 11 0) || decide (6000 < bits v 24 12)⟩,
   ⟨0x7048, z 4 0, fun v => decide (27 < bits v 4 0)⟩,
   ⟨0x9040, z 1 0, none_⟩,
   ⟨0xA040, z 1 0, fun v => bits v 1 0 == 3⟩,
   ⟨0xC040, z 3 0, none_⟩,
   ⟨0x1_5040, fun v => z 12 12 v || z 19 16 v, none_⟩,
   ⟨0x1_6040, z 19 8, fun v => decide (64 < bits v 6 0)⟩] ++
  (List.range 8).map (fun n => ⟨0x2_0040 + 0x1000 * n, fun v => z 1 0 v || z 13 2 v, fun v => bits v 1 0 == 3⟩)

/-- Check 3: (code, offset), code 0 for none. -/
def checkFields (s : State) : List Needs → Nat × Nat
  | [] => (0, 0)
  | n :: t =>
    let v := getR s n.off
    if n.zero v then (0x08, n.off) else if n.bad v then (0x09, n.off) else checkFields s t

/-- Check 1: (code, kind). -/
def checkImages (s : State) : List Nat → Nat × Nat
  | [] => (0, 0)
  | k :: t =>
    match vget none s.boot.images (k - 1) with
    | none => (0x01, k)
    | some i => if i.version < minVersion s k then (0x02, k) else checkImages s t

/-- Check 4: the first sensor at or above THERM_HOLD_C, or the first rail not above its warning threshold. -/
def checkSensors (s : State) : Option Nat :=
  match (List.range 72).find? (fun k => decide (holdC s ≤ vget 0 s.supply.temps k)) with
  | some k => some k
  | none => (List.range 8).find? (fun i => decide ((getRail s i).mv ≤ warnMv s i))

/-- Detail of code 0x06: the stack that failed to train; 0 where the last map failed its check (R414). -/
def untrained (s : State) : Nat :=
  if s.seedbank.errReason ≠ 0 then 0
  else
  match (List.range 8).find? (fun m => !(getMc s m).trained) with
  | none => 0
  | some m => if (List.range 8).any (fun k => (getMc s k).trained) then 1 + m else 0

/-- CFG_DIGEST as the host wrote it. -/
def hostDigest (s : State) : List Byte := (List.range 8).flatMap (fun k => bytesOf 4 (getR s (regAt .boot 0 (0x80 + 4 * k))))

/-- Checks 1 to 4: (code, detail, address). Check 1 goes kind by kind: one below MIN_VERSION is found before a later one that is missing (DEDUCED,
log 181). -/
def verifyChecks (s : State) : Nat × Nat × Nat :=
  match checkImages s [1, 2, 3, 4] with
  | (0, _) =>
    if !s.boot.mapReady then (0x06, untrained s, 0)
    else match checkFields s (needs s) with
      | (0, _) =>
        match checkSensors s with
        | some k => (0x0C, k, 0)
        | none => (0, 0, 0)
      | (code, off) => (code, 0, off)
  | (code, kind) => (code, kind, 0)

/-- The fabric, memory and PCIe PLLs are locked (R344). -/
def clocksLocked (s : State) : Bool := s.boot.fclk && s.boot.mclk && s.boot.pclk

/-- ARM (R387, R391). The PLLs lock before the device leaves HELD (R344): an ARM before that is ignored as any other out of place is
(log 121). -/
def execArm (s : State) : Host.Outcome State Fault Refusal :=
  if s.boot.st = .held ∧ !s.boot.imgBusy ∧ !s.boot.mapBusy ∧ clocksLocked s then
    .next (setBoot (fun b => { b with st := .verify, fault := 0, detail := 0, faultAddr := 0 }) s)
  else .next (setBoot (fun b => { b with fault := 0x0B, detail := 0, faultAddr := 0 }) (countLocked s))

/-- A failed VERIFY: HELD, RWL fields unlocked, ARM_REFUSED. -/
def refuseArm (code detail addr : Nat) (s : State) : State :=
  let s := setBoot (fun b => { b with st := .held, fault := code, detail := detail, faultAddr := addr }) s
  raiseBoot 0 s

/-- Every page instance that has events (R433). -/
def eventPages : List (Page × Nat) :=
  [(.boot, 0), (.security, 0), (.pcie, 0), (.understory, 0), (.clock, 0), (.supply, 0), (.seedbank, 0), (.ranger, 0),
    (.canopy, 0), (.numeric, 0), (.matrix, 0), (.inkwell, 0), (.dma, 0), (.vector, 0), (.quill, 0), (.thin, 0), (.litter, 0),
    (.mmu, 0), (.scribe, 0), (.ligature, 0)] ++
  (List.range 8).map (fun m => (.memctl, m)) ++ (List.range 16).map (fun p => (.port, p))

/-- PEND of a page (R431). -/
def pend (s : State) (p : Page) (j : Nat) : Bool := getR s (regAt p j 0x10) &&& getR s (regAt p j 0x14) != 0

/-- One message from every page whose PEND is 1 (R432). -/
def sendPending (s : State) : State := forEach (eventPages.filter (fun e => pend s e.1 e.2)) (fun _ s => sendEvent s) s

/-- Ranger and context counters clear (R389). -/
def clearCounters (s : State) : State :=
  let s := forEach [0x70, 0x74, 0x78, 0x7C, 0x80] (fun off s => setR (regAt .ranger 0 off) 0 s) s
  { s with times := [], regs := s.regs.filter (fun e => !(decide (0x10_0000 ≤ e.1) && decide (e.1 < 0x20_0000) && decide (0x80 ≤ e.1 % 0x1000))) }

/-- Groves as RUN begins: every plot runs at the highest step, and a grove that has had no thermal limit has none (R324, R364). -/
def runSteps (x : Grove) : Grove := { x with step := 9, therm := if x.therm = 0 then 9 else x.therm }

/-- Entry to RUN (R389): service mode, counters, messages that have waited in HELD or VERIFY (R377), a full bucket of tokens, RUN_ENTERED, ports to
DETECT; a trip holds dispatch no more (R365). -/
def enterRun (s : State) : State :=
  let s := clearCounters s
  let cfg := getR s (regAt .ranger 0 0x40)
  let r := { Ranger.cold with slots := s.ranger.slots, envW := bits cfg 11 0, capMj := bits cfg 24 12 }
  let s := { s with ranger := r, groves := s.groves.map runSteps, supply := { s.supply with tripHeld := false } }
  let s := { s with ranger := { s.ranger with tokens := capOf s } }
  let s := setBoot (fun b => { b with st := .run, service := true, accepted := some b.digestDev }) s
  let s := raiseBoot 1 (sendPending (flushAll s))
  let s := forEach ((List.range 16).filter (fun p => maxRate s p != 0)) (fun p s =>
    announce p (modPort p (fun x => { Port.off with st := .detect, lastDown := x.lastDown, peer := x.peer }) s)) s
  forEach (ctxIds s) doWaiting s

/-- VERIFY_COMPLETE. -/
def execVerifyComplete (s : State) : Host.Outcome State Fault Refusal :=
  if s.boot.st ≠ .verify then .next s
  else
    match verifyChecks s with
    | (0, _, _) =>
      let d := (shake256 (streamBytes s)).take 32
      let s := setBoot (fun b => { b with digestDev := d }) s
      .next (if d = hostDigest s then enterRun s else refuseArm 0x07 0 0 s)
    | (code, detail, addr) => .next (refuseArm code detail addr s)

/-! ## DISARM (R390) -/

/-- Every port is in OFF. -/
def portsOff (s : State) : State := forEach (List.range 16) (fun p s => modPort p (fun x => { x with st := .off }) s) s

/-- DISARM: kills, abandons, drops; in VERIFY it is ignored and counted (R391). -/
def execDisarm (s : State) : Host.Outcome State Fault Refusal :=
  if s.boot.st = .verify then .next (countLocked s)
  else if s.boot.st = .held ∨ s.boot.disarming then .next s
  else
    let s := forEach (ctxIds s) (fun c s => if (getCtx s c).st = .retained then releaseCtx c s else killCtx true c s) s
    let s := match s.lig.open_ with
      | some _ => abandonStep 7 (ownOrdinal s) s
      | none => s
    .next (setBoot (fun b => { b with disarming := true }) (portsOff (dropAllPorts s)))

/-- A kill that the DISARM covers ends. -/
def endKill (c : Nat) (s : State) : State :=
  if (getCtx s c).st = .killing ∨ (getCtx s c).killDue.isSome then
    raise .ranger 0 6 (.of c (getCtx s c).lastCode (getCtx s c).curRec) (scrubMemory c s)
  else s

/-- Every scrub that a grove owes is over before the groves are gated (R390, R417): one whose GROVE_SCRUB_DONE has not come is carried out and
counted here (DESIGN CHOICE, log 163). -/
def scrubOwed (s : State) : State :=
  forEach ((List.range 64).filter (fun g => (getGrove s g).dirty)) (fun g s => if (getGrove s g).dirty then scrubGrove g s else s) s

/-- XING_CFG.FAST_XING: crossings in HELD are in fast-crossing mode (R355). -/
def fastXing (s : State) : Bool := bit (getR s (regAt .understory 0 0x4C)) 0

/-- DISARM_DONE: contexts FREE, groves gated, caches empty, HELD with code 0x13, or the code of the stop that came before. -/
def execDisarmDone (s : State) : Host.Outcome State Fault Refusal :=
  if !s.boot.disarming then .next s
  else
    let cs := ctxIds s
    let s := flushCaches (forEach cs endKill (scrubOwed s))
    let s := forEach cs (fun c s => setF (regAt .ctx c 0x40) 0 0 0 (freePlot c s)) s
    let s := gateAll { s with ctxs := [], ranger := { s.ranger with slots := Vector.replicate 16 none } }
    let keep : Bool := s.boot.st == .stopped && decide (0x20 ≤ s.boot.fault) && decide (s.boot.fault ≤ 0x23)
    .next (portsOff (setBoot (fun b =>
      { b with
          st := .held, disarming := false, stopping := none, service := !fastXing s, fault := if keep then b.fault else 0x13,
          detail := if keep then b.detail else 0 }) s))

/-! ## Attestation (R392 to R394) -/

/-- ATT_GO: the nonce is taken; ignored while BUSY. -/
def execAttGo (s : State) : Host.Outcome State Fault Refusal :=
  if s.boot.attNonce.isSome then .next s
  else
    let nonce := (List.range 8).flatMap (fun k => bytesOf 4 (getR s (regAt .security 0 (0x48 + 4 * k))))
    .next (setBoot (fun b => { b with attNonce := some nonce }) s)

/-- BOOT_STATE bits 1:0. -/
def bootCode : BootSt → Nat
  | .held => 0 | .verify => 1 | .run => 2 | .stopped => 3

/-- SHAKE256 of the repair map in force, header and entries; zero until MAP_READY. -/
def mapDigest (s : State) : List Byte :=
  if s.boot.mapReady then (shake256 (mapHeader s ++ entryBytes s.seedbank.entries)).take 32 else List.replicate 32 0

def imageField (s : State) (k : Nat) : List Byte :=
  match vget none s.boot.images (k - 1) with
  | none => List.replicate 48 0
  | some i => i.digest ++ bytesOf 4 i.version ++ bytesOf 4 i.keySlot ++ List.replicate 8 0

def keyField (s : State) (slot : Nat) : List Byte :=
  match keyOf s slot with
  | none => List.replicate 32 0
  | some k => (shake256 k).take 32

def identDigest (s : State) : List Byte := (shake256 s.fuses.identKey).take 32

/-- Bytes 0x000 to 0x1FD of a report. -/
def reportBody (s : State) (nonce : List Byte) : List Byte :=
  let links := getR s (regAt .links 0 0x40)
  let flags := bits links 12 12 + (if s.boot.accepted.isSome then 2 else 0) + (if s.boot.selfBuilt then 4 else 0)
  bytesOf 4 1 ++ bytesOf 4 (bootCode s.boot.st + 2 ^ 8 * s.boot.fault) ++ bytesOf 8 s.fuses.serial.toNat ++ bytesOf 8 (now s) ++
  bytesOf 2 (ownOrdinal s) ++ bytesOf 2 flags ++ bytesOf 4 0 ++ nonce ++
  [1, 2, 3, 4].flatMap (imageField s) ++ [0, 1, 2, 3].flatMap (keyField s) ++
  bytesOf 4 (getF s (regAt .boot 0 0x64) 3 0) ++ List.replicate 12 0 ++
  (s.boot.accepted.getD (List.replicate 32 0)) ++ mapDigest s ++ identDigest s ++ List.replicate 14 0

/-- ATT_DONE: the report is complete. -/
def execAttDone (s : State) : Host.Outcome State Fault Refusal :=
  match s.boot.attNonce with
  | none => .next s
  | some nonce =>
    let body := reportBody s nonce
    let sig := (Config.identSign s.free body).take 1536
    let report := body ++ bytesOf 2 sig.length ++ sig ++ List.replicate (1536 - sig.length) 0
    .next (raise .security 0 0 Note.none
      (takeFree (setBoot (fun b => { b with attNonce := none, attValid := true, report := report }) s)))

end Sys2Proof.Machine
end

