-- ==== Sys2Proof/Machine/Flags.lean ====
section
/-! DEFINITION. Tile flags, the overflow vote, the NUMERIC events, and accumulator entries: adding, checking and reading out
(R50 to R58, R64, R65, R134, R147). -/

namespace Sys2Proof.Machine

/-! ## TILE_FLAGS, vote and events -/

/-- TILE_FLAGS only gains bits (R157). -/
def Nib.flag (n : Nib) (ovf nf : Bool) : Nib := { n with tileOvf := n.tileOvf || ovf, tileNf := n.tileNf || nf }

/-- Bits of the overflow vote of the layer that runs on a nib (R55, R242). -/
def voteFor (nib bits : Nat) (s : State) : State :=
  match ctxOfNib s nib with
  | some c => modCtx c (fun x => { x with vote := x.vote ||| bits }) s
  | none => s

/-- The context's own count of tiles (R342 ACC_NUM). -/
def countNum (nib hi lo : Nat) (s : State) : State :=
  match ctxOfNib s nib with
  | some c => countEvent .numeric (regAt .ctx c 0xEC) hi lo s
  | none => s

/-- TILE_OVF and NONFINITE of one tile, instruction or result (R64, R65). -/
def noteFlags (nib pc : Nat) (ovf nf : Bool) (s : State) : State :=
  let s := if ovf then
      raise .numeric 0 0 (nibNote s nib pc 0) (countEvent .numeric (regAt .numeric 0 0x44) 31 0 (countNum nib 15 0 (voteFor nib 1 s)))
    else s
  if nf then
    raise .numeric 0 1 (nibNote s nib pc 0) (countEvent .numeric (regAt .numeric 0 0x48) 31 0 (countNum nib 31 16 (voteFor nib 2 s)))
  else s

/-- Flags of a vector instruction: TILE_FLAGS, vote, events. A conversion counts once for its instruction (DESIGN CHOICE, log 131). -/
def vecFlags (nib pc : Nat) (ovf nf : Bool) (s : State) : State := noteFlags nib pc ovf nf (modNib nib (fun n => n.flag ovf nf) s)

def srAllow (s : State) : Bool := bit (getR s (regAt .numeric 0 0x40)) 4
def fbWrite (s : State) : Bool := bit (getR s (regAt .numeric 0 0x40)) 5

/-- A stochastic rounding request of a narrowing instruction (R48): whether it takes effect; a refused one is counted. -/
def wantSr (nib pc : Nat) (asked : Bool) (s : State) : Bool × State :=
  if !asked then (false, s)
  else if srAllow s then (true, s)
  else (false, raise .numeric 0 4 (nibNote s nib pc 0) (countEvent .numeric (regAt .numeric 0 0x4C) 31 0 s))

/-- ANCHOR_MISMATCH or ACC_DEPTH (R52, R53). -/
inductive AccErr where
  | anchor
  | depth
  deriving DecidableEq, Repr

def accFault (nib pc : Nat) (e : AccErr) (s : State) : State :=
  match e with
  | .anchor => nibFault .numeric 2 2 nib pc 0 (countEvent .numeric (regAt .numeric 0 0x50) 15 0 s)
  | .depth => nibFault .numeric 3 3 nib pc 0 (countEvent .numeric (regAt .numeric 0 0x50) 31 16 s)

/-! ## Accumulator entries (R50) -/

/-- One term of an anchored sum: v and its flags. -/
structure Term where
  v       : Int
  nf      : Bool
  sat     : Bool
  inexact : Bool
  /-- floor(log₂ |p|), if p is finite and nonzero -/
  top     : Option Int
  deriving DecidableEq, Repr

def Term.zero : Term := ⟨0, false, false, false, none⟩

/-- Steps 2 to 5 for p; a zero p contributes nothing. -/
def termOf (A : Int) (p : Num) : Term :=
  match p with
  | .nan => ⟨0, true, false, false, none⟩
  | .inf _ => ⟨0, true, false, false, none⟩
  | .fin neg m e =>
    if m = 0 then Term.zero
    else
      let t := anchorTerm A neg m e
      ⟨t.v, false, t.sat, t.inexact, some t.top⟩

/-- Steps 1 to 5 for a product: a zero operand wins over NaN and infinity. -/
def termOfProduct (A : Int) (a w : Num) : Term := if a.isZero || w.isZero then Term.zero else termOf A (mulNum a w)

def AccEntry.add (e : AccEntry) (t : Term) : AccEntry :=
  ⟨e.sum + BitVec.ofInt 88 t.v, e.nf || t.nf, e.sat || t.sat, e.inexact || t.inexact⟩

/-- The larger MAXPROD. -/
def topMax (m : Int) (t : Option Int) : Int := match t with
  | some k => max m k
  | none => m

/-- Accumulator row r of array a. -/
def Nib.accRow (n : Nib) (a r : Nat) : AccRow := tabGet AccRow.clear n.acc (64 * a + r)
def Nib.setAcc (n : Nib) (a r : Nat) (x : AccRow) : Nib := { n with acc := tabSet AccRow.clear n.acc (64 * a + r) x }

/-- R52 then R53 over the rows that an instruction would write; it counts `count` times. -/
def accCheck (rows : List AccRow) (A : Int) (count : Nat) : Option AccErr :=
  if rows.any (fun r => r.tag.isSome && r.tag != some A) then some .anchor
  else if rows.any (fun r => decide (2 ^ 20 < r.depth + count)) then some .depth
  else none

/-- A row as an instruction begins to add into it. -/
def AccRow.begin (r : AccRow) (A : Int) (clr : Bool) (count : Nat) : AccRow :=
  let r := if clr then AccRow.clear else r
  { r with tag := some (r.tag.getD A), depth := r.depth + count }

/-- Add one term into entry n. -/
def AccRow.addTerm (r : AccRow) (n : Nat) (t : Term) : AccRow :=
  { r with entries := vset r.entries n ((vget AccEntry.clear r.entries n).add t), maxProd := topMax r.maxProd t.top }

/-! ## Readout (R54, R55, R58) -/

/-- The clamp of step 2: S, and whether it was clamped. -/
def clampSum (s : Int) : Int × Bool :=
  let lim : Int := 2 ^ 63 - 1
  if s > lim then (lim, true) else if s < -lim then (-lim, true) else (s, false)

/-- What reading one anchored sum gives. -/
structure ReadOut where
  bits    : Nat
  ovf     : Bool
  nf      : Bool
  convSat : Bool
  deriving DecidableEq, Repr

/-- Steps 1 to 3 for an entry with anchor A; `f` none is a raw readout. -/
def readEntry (f : Option Fmt) (sat8 : Bool) (rnd : Rnd) (A : Int) (sum : Int) (nf sat : Bool) : ReadOut :=
  if nf then
    match f with
    | none => ⟨2 ^ 63, sat, true, false⟩
    | some f => ⟨(narrow f sat8 rnd .nan).bits, sat, true, false⟩
  else
    let (c, clamped) := clampSum sum
    match f with
    | none => ⟨wrap 64 c, sat || clamped, false, false⟩
    | some f =>
      let v := narrow f sat8 rnd (numOfInt c (A - 44))
      ⟨v.bits, sat || clamped, v.nonfinite, v.convSat⟩

/-- MAXSUM of one entry, before the clamp (R58). -/
def sumTop (A sum : Int) : Int := if sum = 0 then -512 else max (-511) (min 511 ((Nat.log2 sum.natAbs : Int) + A - 44))

/-- The anchor feedback word (R58, R79) of the rows read, as they stand after this readout's conversions. -/
def feedbackWord (rows : List AccRow) (ovf nf : Bool) : Nat :=
  let prod := rows.foldl (fun m r => max m r.maxProd) (-512 : Int)
  let sum := rows.foldl (fun m r => match r.tag with
    | none => m
    | some A => r.entries.toList.foldl (fun m e => max m (sumTop A e.sum.toInt)) m) (-512 : Int)
  let es := rows.flatMap (fun r => r.entries.toList)
  let A := (rows.findSome? (fun r => r.tag)).getD 0
  let b (x : Bool) (i : Nat) : Nat := if x then 2 ^ i else 0
  wrap 10 prod + wrap 10 sum * 2 ^ 16 + b ovf 32 + b nf 33 + b (es.any (fun e => e.inexact)) 34 +
    b (es.any (fun e => e.sat)) 35 + b (rows.any (fun r => r.convSat)) 36 + wrap 10 A * 2 ^ 46

end Sys2Proof.Machine
end

