-- ==== Sys2Proof/Machine/QuillCore.lean ====
section
/-! DEFINITION. The Quill core: one command for each instruction and for the end of each wait (R154 to R162), and how a nib finds its
next strand under prediction (R207, R208). -/

namespace Sys2Proof.Machine

/-! ## Registers and memory -/

/-- s0 reads as zero (R154). -/
def Nib.reg (n : Nib) (r : Nat) : Nat := if r = 0 then 0 else (tabGet 0 n.quill.sregs r).toNat

/-- A write of s0 is ignored. -/
def Nib.setReg (n : Nib) (r v : Nat) : Nib :=
  if r = 0 then n else { n with quill := { n.quill with sregs := tabSet 0 n.quill.sregs r (BitVec.ofNat 32 v) } }

def Nib.modQuill (n : Nib) (f : Quill → Quill) : Nib := { n with quill := f n.quill }

/-- A program fault of the core: its reason and PC are kept (R158). -/
def quillFault (nib pc reason : Nat) (s : State) : State :=
  let s := modNib nib (fun n => { n with count := { n.count with qReason := reason, qPc := pc } }) s
  let s := nibFault .quill 0 7 nib pc reason (countEvent .quill (regAt .quill 0 0x44) 15 0 s)
  modNib nib (fun n => n.modQuill (fun q => { q with run := .faulted, pc := pc })) s

/-- An instruction completes and the core goes on at `pc`; a bad PC is reason 3. -/
def quillGo (nib pc : Nat) (s : State) : State :=
  let s := modNib nib (fun n => { n.modQuill (fun q => { q with pc := pc, run := .running, stalled := false }) with
    count := { n.count with instrs := n.count.instrs + 1 } }) s
  if pc % 4 ≠ 0 ∨ 16384 ≤ pc then quillFault nib pc 3 s else s

def quillWait (nib kind a b : Nat) (s : State) : State :=
  modNib nib (fun n => n.modQuill (fun q => { q with run := .waiting kind a b, stalled := false })) s

/-- The word at the PC. -/
def Nib.fetch (n : Nib) : Nat := (tabGet 0 n.quill.imem (n.quill.pc / 4)).toNat

/-- One instruction of the kind that the command names: it starts where it stands at the PC of a running core. An undefined one
is a fault, whichever command meets it. -/
def quillRow (kind : Nat → Bool) (body : Nat → Nat → Nat → State → State) (nib : Fin 1024) (s : State) :
    Host.Outcome State Fault Refusal :=
  let n := getNib s nib.val
  let w := n.fetch
  if !nibRuns s nib.val || n.quill.run != .running then .next s
  else if !qDefined w then .next (quillFault nib.val n.quill.pc 1 s)
  else if kind w then .next (body nib.val n.quill.pc w s)
  else .next s

def opIs (o : Nat) (w : Nat) : Bool := qOp w == o

/-! ## ALU (R156) -/

/-- FN 0 to 14 on 32-bit patterns. -/
def aluOp (fn a b : Nat) : Nat :=
  match fn with
  | 0 => (a + b) % 2 ^ 32
  | 1 => (a + 2 ^ 32 - b) % 2 ^ 32
  | 2 => a &&& b
  | 3 => a ||| b
  | 4 => a ^^^ b
  | 5 => a * 2 ^ (b % 32) % 2 ^ 32
  | 6 => a / 2 ^ (b % 32)
  | 7 => wrap 32 (signed 32 a / 2 ^ (b % 32))
  | 8 => a * b % 2 ^ 32
  | 9 => if signed 32 a < signed 32 b then 1 else 0
  | 10 => if a < b then 1 else 0
  | 11 => if ltNum (val32 a) (val32 b) then 1 else 0
  | 12 => if eqNum (val32 a) (val32 b) then 1 else 0
  | 13 => fadd a b
  | _ => fmul a b

/-- RD = RA op RB. -/
def aluBody (fn : Nat) (nib pc w : Nat) (s : State) : State :=
  quillGo nib (pc + 4) (modNib nib (fun n => n.setReg (qRd w) (aluOp fn (n.reg (qRa w)) (n.reg (qRb w)))) s)

def aluRow (fn : Nat) (nib : Fin 1024) (s : State) : Host.Outcome State Fault Refusal :=
  quillRow (fun w => qOp w == 1 && qFn w == fn) (aluBody fn) nib s

def execAluAdd (nib : Fin 1024) (s : State) : Host.Outcome State Fault Refusal := aluRow 0 nib s
def execAluSub (nib : Fin 1024) (s : State) : Host.Outcome State Fault Refusal := aluRow 1 nib s
def execAluAnd (nib : Fin 1024) (s : State) : Host.Outcome State Fault Refusal := aluRow 2 nib s
def execAluOr (nib : Fin 1024) (s : State) : Host.Outcome State Fault Refusal := aluRow 3 nib s
def execAluXor (nib : Fin 1024) (s : State) : Host.Outcome State Fault Refusal := aluRow 4 nib s
def execAluSll (nib : Fin 1024) (s : State) : Host.Outcome State Fault Refusal := aluRow 5 nib s
def execAluSrl (nib : Fin 1024) (s : State) : Host.Outcome State Fault Refusal := aluRow 6 nib s
def execAluSra (nib : Fin 1024) (s : State) : Host.Outcome State Fault Refusal := aluRow 7 nib s
def execAluMul (nib : Fin 1024) (s : State) : Host.Outcome State Fault Refusal := aluRow 8 nib s
def execAluSlt (nib : Fin 1024) (s : State) : Host.Outcome State Fault Refusal := aluRow 9 nib s
def execAluSltu (nib : Fin 1024) (s : State) : Host.Outcome State Fault Refusal := aluRow 10 nib s
def execAluFlt (nib : Fin 1024) (s : State) : Host.Outcome State Fault Refusal := aluRow 11 nib s
def execAluFeq (nib : Fin 1024) (s : State) : Host.Outcome State Fault Refusal := aluRow 12 nib s
def execAluFadd (nib : Fin 1024) (s : State) : Host.Outcome State Fault Refusal := aluRow 13 nib s
def execAluFmul (nib : Fin 1024) (s : State) : Host.Outcome State Fault Refusal := aluRow 14 nib s

/-- RA + IMM15. -/
def addrOf (n : Nib) (w : Nat) : Nat := wrap 32 (n.reg (qRa w) + qImm15 w)

def execAddi (nib : Fin 1024) (s : State) : Host.Outcome State Fault Refusal :=
  quillRow (opIs 2) (fun nib pc w s => quillGo nib (pc + 4) (modNib nib (fun n => n.setReg (qRd w) (addrOf n w)) s)) nib s

def execLui (nib : Fin 1024) (s : State) : Host.Outcome State Fault Refusal :=
  quillRow (opIs 3) (fun nib pc w s =>
    quillGo nib (pc + 4) (modNib nib (fun n => n.setReg (qRd w) (wrap 32 (qImm20 w * 2 ^ 12))) s)) nib s

/-! ## Data memory -/

def dmemBad (a : Nat) : Bool := decide (a % 4 ≠ 0) || decide (8192 ≤ a)

def execLw (nib : Fin 1024) (s : State) : Host.Outcome State Fault Refusal :=
  quillRow (opIs 4) (fun nib pc w s =>
    let a := addrOf (getNib s nib) w
    if dmemBad a then quillFault nib pc 2 s
    else quillGo nib (pc + 4) (modNib nib (fun n => n.setReg (qRd w) (tabGet 0 n.quill.dmem (a / 4)).toNat) s)) nib s

def execSw (nib : Fin 1024) (s : State) : Host.Outcome State Fault Refusal :=
  quillRow (opIs 5) (fun nib pc w s =>
    let a := addrOf (getNib s nib) w
    if dmemBad a then quillFault nib pc 2 s
    else quillGo nib (pc + 4) (modNib nib (fun n =>
      n.modQuill (fun q => { q with dmem := tabSet 0 q.dmem (a / 4) (BitVec.ofNat 32 (n.reg (qRd w))) })) s)) nib s

/-! ## Branches and jumps -/

/-- PC + 4 × OFF15 where the condition holds, else the next instruction. -/
def branchBody (cond : Nat → Nat → Bool) (nib pc w : Nat) (s : State) : State :=
  let n := getNib s nib
  quillGo nib (if cond (n.reg (qRa w)) (n.reg (qBrb w)) then wrap 32 (pc + 4 * qImm15 w) else pc + 4) s

def execBeq (nib : Fin 1024) (s : State) : Host.Outcome State Fault Refusal :=
  quillRow (opIs 6) (branchBody (fun a b => a == b)) nib s
def execBne (nib : Fin 1024) (s : State) : Host.Outcome State Fault Refusal :=
  quillRow (opIs 7) (branchBody (fun a b => a != b)) nib s
def execBlt (nib : Fin 1024) (s : State) : Host.Outcome State Fault Refusal :=
  quillRow (opIs 8) (branchBody (fun a b => decide (signed 32 a < signed 32 b))) nib s
def execBge (nib : Fin 1024) (s : State) : Host.Outcome State Fault Refusal :=
  quillRow (opIs 9) (branchBody (fun a b => decide (signed 32 b ≤ signed 32 a))) nib s

def execJal (nib : Fin 1024) (s : State) : Host.Outcome State Fault Refusal :=
  quillRow (opIs 0x0A) (fun nib pc w s =>
    quillGo nib (wrap 32 (pc + 4 * qImm20 w)) (modNib nib (fun n => n.setReg (qRd w) (pc + 4)) s)) nib s

/-- RA is read before RD is written. -/
def execJalr (nib : Fin 1024) (s : State) : Host.Outcome State Fault Refusal :=
  quillRow (opIs 0x0B) (fun nib pc w s =>
    quillGo nib (addrOf (getNib s nib) w) (modNib nib (fun n => n.setReg (qRd w) (pc + 4)) s)) nib s

/-! ## Queues (R74, R108, R115, R135, R144) -/

def tagOf (n : Nib) (t : Nat) : Nat × Nat := tabGet (0, 0) n.tags t

/-- The issued count that an instruction captures (R115). -/
def capture (n : Nib) (t : TagRef) : Nat := if t.2 then (tagOf n t.1).1 else 0

/-- Tag t has done all that a captured count covers. -/
def tagDone (n : Nib) (t cap : Nat) : Bool := decide (0 ≤ signed 16 (((tagOf n t).2 + 2 ^ 16 - cap) % 2 ^ 16))

/-- The words in registers W0 to W3. -/
def queueWord (n : Nib) (w : Nat) : Nat :=
  n.reg (qRd w) + 2 ^ 32 * n.reg (qRa w) + 2 ^ 64 * n.reg (qRb w) + 2 ^ 96 * n.reg (qW3 w)

/-- An earlier VST still has to write an operand row (R144). -/
def storeOrder (n : Nib) (word : Nat) : Bool :=
  let rows := mxReads n.regions word
  n.vq.any (fun e => (vxWrites e.word).any (fun r => rows.contains r))

/-- MXQ stands at a full queue or behind a store. -/
def mxqHeld (n : Nib) (w : Nat) : Bool := decide (16 ≤ n.mq.length) || storeOrder n (queueWord n w)

/-- A matrix instruction as the core places it. -/
def mxEntry (n : Nib) (pc w : Nat) : MxEntry :=
  let word := queueWord n w
  let i := Mma.ofWord word
  if mxOp word = 0x40 then ⟨n.seq, pc, word, capture n i.tag0, capture n i.tag1, n.quill.fbBase⟩
  else ⟨n.seq, pc, word, 0, 0, n.quill.fbBase⟩

def execMxq (nib : Fin 1024) (s : State) : Host.Outcome State Fault Refusal :=
  quillRow (opIs 0x10) (fun nib pc w s =>
    if mxqHeld (getNib s nib) w then s
    else quillGo nib (pc + 4) (modNib nib (fun n => { n with mq := n.mq ++ [mxEntry n pc w], seq := n.seq + 1 }) s)) nib s

/-- VLD and VTLOAD name a tag. -/
def vxEntry (n : Nib) (pc w : Nat) : VecEntry :=
  let word := queueWord n w
  ⟨n.seq, pc, word, if vxOp word = 0x72 ∨ vxOp word = 0x78 then capture n (vxTag word) else 0⟩

def vxqHeld (n : Nib) : Bool := decide (16 ≤ n.vq.length)

def execVxq (nib : Fin 1024) (s : State) : Host.Outcome State Fault Refusal :=
  quillRow (opIs 0x11) (fun nib pc w s =>
    if vxqHeld (getNib s nib) then s
    else quillGo nib (pc + 4) (modNib nib (fun n => { n with vq := n.vq ++ [vxEntry n pc w], seq := n.seq + 1 }) s)) nib s

/-- Descriptors issued and not yet completed (R108). -/
def Nib.inFlight (n : Nib) : Nat := (n.descs.filter (fun d => !d.done)).length

def dmaHeld (n : Nib) : Bool := decide (32 ≤ n.inFlight)

/-- The eight words at a data memory address. -/
def descWord (n : Nib) (a : Nat) : Nat :=
  (List.range 8).foldl (fun v k => v + (tabGet 0 n.quill.dmem (a / 4 + k)).toNat * 2 ^ (32 * k)) 0

/-- Issue a descriptor (R112, R115). -/
def issueDesc (nib pc a : Nat) (s : State) : State :=
  let n := getNib s nib
  let word := descWord n a
  let d : Desc := ⟨n.seq, pc, word, 0, false, [], [], false, false, false, if n.quill.sampled then some n.quill.strand else none, false⟩
  let rank := match ctxOfNib s nib with
    | some c => (rankOfNib (getCtx s c).plot nib).getD 0
    | none => 0
  let why := d.reason rank
  if why ≠ 0 then
    let s := modNib nib (fun n => { n with count := { n.count with dReason := why } }) s
    nibFault .dma 0 4 nib pc (why + 16 * d.tag) (countEvent .dma (regAt .dma 0 0x44) 15 0 s)
  else
    let (issued, done) := tagOf n d.tag
    let ord := (issued + 1) % 2 ^ 16
    quillGo nib (pc + 4) (modNib nib (fun n =>
      { n with
          descs := n.descs ++ [{ d with ord := ord }], seq := n.seq + 1, tags := tabSet (0, 0) n.tags d.tag (ord, done) }) s)

def execDma (nib : Fin 1024) (s : State) : Host.Outcome State Fault Refusal :=
  quillRow (opIs 0x12) (fun nib pc w s =>
    let a := addrOf (getNib s nib) w
    if a % 32 ≠ 0 ∨ 8191 < a + 31 then quillFault nib pc 5 s
    else if dmaHeld (getNib s nib) then s
    else issueDesc nib pc a s) nib s

/-! ## Waits (R121, R115, R152) -/

/-- (counter − value) mod 2¹⁶ read as two's complement is at least 0. -/
def sigReached (n : Nib) (k v : Nat) : Bool := decide (0 ≤ signed 16 ((tabGet 0 n.signals k % 2 ^ 16 + 2 ^ 16 - v % 2 ^ 16) % 2 ^ 16))

def execWsig (nib : Fin 1024) (s : State) : Host.Outcome State Fault Refusal :=
  quillRow (opIs 0x13) (fun nib pc w s =>
    let n := getNib s nib
    let v := n.reg (qRa w)
    if 15 < qRd w then quillFault nib pc 1 s
    else if sigReached n (qRd w) v then quillGo nib (pc + 4) s
    else quillWait nib 4 (qRd w) v s) nib s

/-- A wait of the kind ends when it is over, as `ended` tells from its two numbers. -/
def waitDone (kind : Nat) (ended : Nib → Nat → Nat → Bool) (finish : Nib → Nat → Nat → Nib) (nib : Fin 1024) (s : State) :
    Host.Outcome State Fault Refusal :=
  let n := getNib s nib.val
  match nibRuns s nib.val, n.quill.run with
  | true, .waiting k a b =>
    if k = kind ∧ ended n a b then .next (quillGo nib.val (n.quill.pc + 4) (setNib nib.val (finish n a b) s)) else .next s
  | _, _ => .next s

def execWsigDone (nib : Fin 1024) (s : State) : Host.Outcome State Fault Refusal :=
  waitDone 4 (fun n k v => sigReached n k v) (fun n _ _ => n) nib s

def execWtag (nib : Fin 1024) (s : State) : Host.Outcome State Fault Refusal :=
  quillRow (opIs 0x14) (fun nib pc w s =>
    let n := getNib s nib
    let t := qField w 5 0
    let cap := (tagOf n t).1
    if tagDone n t cap then quillGo nib (pc + 4) s else quillWait nib 5 t cap s) nib s

def execWtagDone (nib : Fin 1024) (s : State) : Host.Outcome State Fault Refusal :=
  waitDone 5 (fun n t cap => tagDone n t cap) (fun n _ _ => n) nib s

/-- Field f of summary slot i; 0 where no VSUM has written it. -/
def slotField (n : Nib) (i f : Nat) : Nat :=
  match tabFind? n.slots i with
  | none => 0
  | some x => match f with
    | 0 => x.max | 1 => x.sum | 2 => x.count | _ => x.flags

/-- No VSUM to the slot is still in the queue. -/
def slotReady (n : Nib) (i : Nat) : Bool := n.vq.all (fun e => !(vxOp e.word == 0x77 && wf e.word 1 1 0 == i))

def execRsum (nib : Fin 1024) (s : State) : Host.Outcome State Fault Refusal :=
  quillRow (opIs 0x15) (fun nib pc w s =>
    let n := getNib s nib
    let i := qField w 1 0
    let f := qField w 3 2
    if slotReady n i then quillGo nib (pc + 4) (setNib nib (n.setReg (qRd w) (slotField n i f)) s)
    else quillWait nib 6 (i + 4 * f) (qRd w) s) nib s

def execRsumDone (nib : Fin 1024) (s : State) : Host.Outcome State Fault Refusal :=
  waitDone 6 (fun n a _ => slotReady n (a % 4)) (fun n a rd => n.setReg rd (slotField n (a % 4) (a / 4))) nib s

def execVwait (nib : Fin 1024) (s : State) : Host.Outcome State Fault Refusal :=
  quillRow (opIs 0x18) (fun nib pc _ s =>
    if (getNib s nib).vq = [] then quillGo nib (pc + 4) s else quillWait nib 7 0 0 s) nib s

def execVwaitDone (nib : Fin 1024) (s : State) : Host.Outcome State Fault Refusal :=
  waitDone 7 (fun n _ _ => decide (n.vq = [])) (fun n _ _ => n) nib s

/-! ## Control registers (R157) -/

/-- TILE_FLAGS. -/
def tileFlags (n : Nib) : Nat := (if n.tileOvf then 1 else 0) + (if n.tileNf then 2 else 0)

/-- The value of a defined control register; CYCLE depends on timing (log 9). MX_FB_BASE_LO gives the word in force until the high one is written
(DESIGN CHOICE, log 125). -/
def csrValue (s : State) (nib i : Nat) : Option Nat :=
  let n := getNib s nib
  let plot := match ctxOfNib s nib with
    | some c => (getCtx s c).plot
    | none => []
  let rec? := nibRecord s nib
  let rv (f : Record → Nat) : Nat := match rec? with
    | some r => f r
    | none => 0
  match i with
  | 0x000 => some n.quill.strand
  | 0x001 => some (rv (fun r => r.grid))
  | 0x002 => some ((rankOfNib plot nib).getD 0)
  | 0x003 => some (16 * plot.length)
  | 0x004 => some (rv (fun r => r.spatter))
  | 0x005 => some (rv (fun r => r.step.toNat % 2 ^ 32))
  | 0x006 => some (rv (fun r => r.step.toNat / 2 ^ 32))
  | 0x007 => some (tileFlags n)
  | 0x010 => some (n.quill.fbBase % 2 ^ 32)
  | 0x011 => some (n.quill.fbBase / 2 ^ 32 % 2 ^ 32)
  | 0x012 => some (Config.timing s.free).toNat
  | 0x013 => some (Config.timing (s.free + 1)).toNat
  | _ => none

/-- Reading under the core's latch (R8): a low word of a read-only pair latches its high word, any other low word ends the latch. -/
def csrRead (s : State) (nib i : Nat) (v : Nat) : Nat × Option (Nat × Word32) :=
  let l := (getNib s nib).quill.latch
  match i with
  | 0x005 => (v, some (5, BitVec.ofNat 32 ((csrValue s nib 6).getD 0)))
  | 0x012 => (v, some (0x12, BitVec.ofNat 32 ((csrValue s nib 0x13).getD 0)))
  | 0x010 => (v, none)
  | _ =>
    match l with
    | some (lo, hi) => if i = lo + 1 then (hi.toNat, l) else (v, l)
    | none => (v, none)

def execCsrr (nib : Fin 1024) (s : State) : Host.Outcome State Fault Refusal :=
  quillRow (opIs 0x16) (fun nib pc w s =>
    let i := qField w 11 0
    match csrValue s nib i with
    | none => quillFault nib pc 4 s
    | some v =>
      let (x, l) := csrRead s nib i v
      let s := modNib nib (fun n => (n.modQuill (fun q => { q with latch := l })).setReg (qRd w) x) s
      quillGo nib (pc + 4) (if i = 0x12 ∨ i = 0x13 then takeFree (takeFree s) else s)) nib s

/-- CSRW: MX_FB_BASE takes effect with its high word (R8); a write of TILE_FLAGS never changes the vote. -/
def execCsrw (nib : Fin 1024) (s : State) : Host.Outcome State Fault Refusal :=
  quillRow (opIs 0x17) (fun nib pc w s =>
    let v := (getNib s nib).reg (qRa w)
    let set (f : Nib → Nib) : State := quillGo nib (pc + 4) (modNib nib f s)
    match qField w 11 0 with
    | 0x007 => set (fun n => { n with tileOvf := bit v 0, tileNf := bit v 1 })
    | 0x010 => set (fun n => n.modQuill (fun q => { q with fbLow := some (BitVec.ofNat 32 v) }))
    | 0x011 => set (fun n => n.modQuill (fun q =>
        { q with
            fbBase := v * 2 ^ 32 + (match q.fbLow with
              | some l => l.toNat
              | none => q.fbBase % 2 ^ 32), fbLow := none }))
    | _ => quillFault nib pc 4 s) nib s

/-! ## Strands (R160, R207, R208) -/

/-- DMA_PAGE_FAULT of a nib (R80, R123): `tag` is the descriptor's ink-dry tag. -/
def dmaPageFault (nib pc tag va reason : Nat) (s : State) : State :=
  match ctxOfNib s nib with
  | none => s
  | some c =>
    let s := modNib nib (fun n => { n with count := { n.count with dTag := tag } }) s
    let s := countEvent .dma (regAt .dma 0 0x44) 31 16 s
    let s := raise .dma 0 1 ⟨some c, some nib, bits pc 13 0 + 2 ^ 16 * reason + 2 ^ 20 * tag, bits va 47 0⟩ s
    pageFault c va reason s

/-- An error of a read or a write that a nib's DMA engine makes by itself. -/
def nibMemError (nib : Nat) (e : VErr) (s : State) : State :=
  match e with
  | .page va r => dmaPageFault nib 0 0 va r s
  | .data dpa => match ctxOfNib s nib with
    | some c => replayRow c dpa s
    | none => s

/-- Ones of a byte list's bits from `lo` up to `hi` − 1, counted from the first byte's bit 0. -/
def onesBetween (b : List Byte) (lo hi : Nat) : Nat :=
  let v := ofBytes b
  (List.range (hi - lo)).foldl (fun n k => if bit v (lo + k) then n + 1 else n) 0

/-- Advance the mask to strand st: its bit, with the rank counted up to it. -/
def maskBit (nib c : Nat) (p : PredTable) (st : Nat) (s : State) : (Except VErr Bool) × State :=
  let n := getNib s nib
  let b0 := n.maskPos / 8
  match vReadBy (nibTranslate nib c false) (p.maskVa + b0) (st / 8 + 1 - b0) s with
  | (.error e, s) => (.error e, s)
  | (.ok bs, s) =>
    let lo := n.maskPos - 8 * b0
    let hi := st - 8 * b0
    let s := modNib nib (fun n => { n with maskPos := st, rank := n.rank + onesBetween bs lo hi }) s
    (.ok (bit (ofBytes bs) hi), moveBytes c 0xA0 bs.length s)

/-- The zero rows of a skipped strand's window. -/
def zeroWindow (nib c : Nat) (p : PredTable) (st : Nat) (s : State) : Option VErr × State :=
  let va := p.outVa + 512 * p.stride * st
  if 2 ^ 48 < va + 512 * p.rows then (some (.page va 3), s)
  else
    match vTargetsBy (nibTranslate nib c true) va (512 * p.rows) s with
    | (.error e, s) => (some e, s)
    | (.ok ps, s) =>
      let s := forEach ps (fun q s => memZero q.1 q.2 s) s
      let s := modNib nib (fun n => { n with count := { n.count with dmaOut := n.count.dmaOut + p.rows } }) s
      (none, moveBytes c 0xA8 (512 * p.rows) s)

/-- A strand starts at PC 0 with its registers zero. -/
def startStrand (nib st : Nat) (sampled : Bool) (s : State) : State :=
  modNib nib (fun n => n.modQuill (fun q =>
    { q with pc := 0, sregs := [], run := .running, strand := st, sampled := sampled, stalled := false })) s

/-- The nib's next strand from st on; `step` is PLOT_NIBS, `grid` the strands of the layer, `every` the sampling interval. -/
def nextStrand (nib c grid step every : Nat) : Nat → Nat → State → State
  | 0, _, s => s
  | fuel + 1, st, s =>
    if grid ≤ st ∨ step = 0 then modNib nib (fun n => n.modQuill (fun q => { q with run := .idle, finished := true })) s
    else
      match (getNib s nib).pred with
      | none => startStrand nib st false s
      | some p =>
        match maskBit nib c p st s with
        | (.error e, s) => nibMemError nib e s
        | (.ok false, s) => startStrand nib st false s
        | (.ok true, s) =>
          if every ≠ 0 ∧ (getNib s nib).rank % every = 0 then startStrand nib st true s
          else
            match zeroWindow nib c p st s with
            | (some e, s) => nibMemError nib e s
            | (none, s) => nextStrand nib c grid step every fuel (st + step) s

/-- Find the next strand of the layer that runs on a nib. -/
def goStrand (nib st : Nat) (s : State) : State :=
  match ctxOfNib s nib with
  | none => s
  | some c =>
    match (getCtx s c).record with
    | none => s
    | some r => nextStrand nib c r.grid (16 * (getCtx s c).plot.length) r.sample (r.grid + 1) st s

/-- END: the strand ends and the next one starts. -/
def execStrandEnd (nib : Fin 1024) (s : State) : Host.Outcome State Fault Refusal :=
  quillRow (opIs 0x19) (fun nib pc _ s =>
    let step := match ctxOfNib s nib with
      | some c => 16 * (getCtx s c).plot.length
      | none => 0
    let st := (getNib s nib).quill.strand
    let s := modNib nib (fun n => { n.modQuill (fun q => { q with ended := q.ended + 1, pc := pc }) with
      count := { n.count with instrs := n.count.instrs + 1 } }) s
    goStrand nib (st + step) s) nib s

/-! ## Watchdog (R159) -/

/-- QUILL_WAIT: once for each wait. -/
def execQuillWait (nib : Fin 1024) (s : State) : Host.Outcome State Fault Refusal :=
  let n := getNib s nib.val
  match nibRuns s nib.val, n.quill.run with
  | true, .waiting kind _ _ =>
    if getF s (regAt .quill 0 0x40) 11 0 = 0 ∨ n.quill.stalled then .next s
    else
      let s := modNib nib.val (fun n => n.modQuill (fun q => { q with stalled := true })) (countEvent .quill (regAt .quill 0 0x44) 31 16 s)
      .next (raise .quill 0 1 (nibNote s nib.val n.quill.pc kind) s)
  | _, _ => .next s

end Sys2Proof.Machine
end

