-- ==== Sys2Proof/Machine/Spatter.lean ====
section
/-! DEFINITION. Spatter, and the commands of the SPATTER and MMU pages (R183 to R186, R219). -/

namespace Sys2Proof.Machine

/-! ## Philox (R184) -/

/-- One round. -/
def philoxRound (c0 c1 c2 c3 k0 k1 : Nat) : Nat × Nat × Nat × Nat :=
  let p0 := 0xD2511F53 * c0
  let p1 := 0xCD9E8D57 * c2
  ((p1 / 2 ^ 32) ^^^ c1 ^^^ k0, p1 % 2 ^ 32, (p0 / 2 ^ 32) ^^^ c3 ^^^ k1, p0 % 2 ^ 32)

/-- The rounds that are left, each with its key. -/
def philoxGo : Nat → Nat → Nat → Nat → Nat → Nat → Nat → List Nat
  | 0, c0, c1, c2, c3, _, _ => [c0, c1, c2, c3]
  | n + 1, c0, c1, c2, c3, k0, k1 =>
    let (a, b, c, d) := philoxRound c0 c1 c2 c3 k0 k1
    philoxGo n a b c d ((k0 + 0x9E3779B9) % 2 ^ 32) ((k1 + 0xBB67AE85) % 2 ^ 32)

def philox10 (c0 c1 c2 c3 k0 k1 : Nat) : List Nat := philoxGo 10 c0 c1 c2 c3 k0 k1

/-- What every Spatter position of a layer shares (R183). -/
structure SpatterKey where
  seed  : Nat
  layer : Nat
  step  : Nat
  deriving DecidableEq, Repr

/-- The word of element e of tensor t. -/
def spatterWord (k : SpatterKey) (t e : Nat) : Nat :=
  let e := e % 2 ^ 32
  (philox10 (e / 4) (k.layer % 2 ^ 16 * 2 ^ 16 + t % 2 ^ 16) (k.step % 2 ^ 32) (k.step / 2 ^ 32 % 2 ^ 32) (k.seed % 2 ^ 32)
    (k.seed / 2 ^ 32 % 2 ^ 32)).getD (e % 4) 0

/-- The seed, layer and step of the layer that runs on a nib. -/
def spatterKey (s : State) (nib : Nat) : SpatterKey :=
  match ctxOfNib s nib with
  | none => ⟨0, 0, 0⟩
  | some c =>
    let x := getCtx s c
    let seed := match x.lit with
      | some l => l.seed.toNat
      | none => 0
    match x.record with
    | some r => ⟨seed, r.spatter, r.step.toNat⟩
    | none => ⟨seed, 0, 0⟩

/-! ## The SPATTER page (R186) -/

/-- SPT_GO: an evaluation starts with the registers as they stand; while BUSY it is ignored. -/
def execSptGo (s : State) : Host.Outcome State Fault Refusal :=
  if s.mmu.spatter.isSome then .next s
  else
    let r (off : Nat) : Nat := getR s (regAt .spatter 0 off)
    let out := philox10 (r 0x48) (r 0x4C) (r 0x50) (r 0x54) (r 0x40) (r 0x44)
    .next { s with mmu := { s.mmu with spatter := some (out.map (BitVec.ofNat 32)) } }

/-- SPATTER_DONE: the result registers hold the words and BUSY clears. -/
def execSpatterDone (s : State) : Host.Outcome State Fault Refusal :=
  match s.mmu.spatter with
  | none => .next s
  | some ws =>
    let s := forEach ws.zipIdx (fun p s => setR (regAt .spatter 0 (0x5C + 4 * p.2)) p.1.toNat s) s
    .next { s with mmu := { s.mmu with spatter := none } }

/-! ## PT_INV (R219) -/

/-- PT_INV with GO: the context's translations are dropped in every nib; while INV_BUSY it is ignored. -/
def execPtInv (ctx : Fin 256) (s : State) : Host.Outcome State Fault Refusal :=
  if s.mmu.inv.isSome then .next s
  else
    let s := forEach (s.nibs.map (fun p => p.1)) (fun n s =>
      modNib n (fun x => { x with tlb := x.tlb.filter (fun e => decide (e.1 / 2 ^ 27 ≠ ctx.val)) }) s) s
    .next { s with mmu := { s.mmu with inv := some ctx.val } }

/-- INV_BUSY clears. -/
def execInvDone (s : State) : Host.Outcome State Fault Refusal := .next { s with mmu := { s.mmu with inv := none } }

end Sys2Proof.Machine
end

