-- ==== Sys2Proof/Machine/Matrix.lean ====
section
/-! DEFINITION. The matrix queue: MMA, gather groups, READOUT and ACCCLR (R67 to R98). -/

namespace Sys2Proof.Machine

/-! ## Issue conditions (R85, R87, R144) -/

/-- An earlier descriptor of this nib still has to write local row r. -/
def dmaPending (n : Nib) (seq r : Nat) : Bool :=
  n.descs.any (fun d => decide (d.seq < seq) && !d.done && d.localDest && decide (d.lrow ≤ r) && decide (r < d.lrow + d.rows) &&
    !d.landed.contains (r - d.lrow))

/-- An earlier vector instruction in the queue reads row r. -/
def vecReads (n : Nib) (seq r : Nat) : Bool := n.vq.any (fun e => decide (e.seq < seq) && (vxReads e.word).contains r)

def tagWaits (n : Nib) (t : TagRef) (cap : Nat) : Bool := t.2 && !tagDone n t.1 cap

/-- What an entry waits on, in the code of MX_NIB_STATUS 8:6; 0 when it may issue. An instruction takes effect whole, so only waits on
other engines are seen. A READOUT behind an earlier VLD waits on the readout path (DESIGN CHOICE, log 133). -/
def mxEntryWait (n : Nib) (e : MxEntry) : Nat :=
  let w := e.word
  if mxOp w = 0x40 then
    let i := Mma.ofWord w
    if tagWaits n i.tag0 e.cap0 || tagWaits n i.tag1 e.cap1 then 1
    else if (mxReads n.regions w).any (dmaPending n e.seq) then 2
    else 0
  else if mxOp w = 0x48 then
    let i := Readout.ofWord w
    if i.rows.any (vecReads n e.seq) then 4
    else if !i.dest ∧ i.n ≠ 0 ∧ 8 ≤ n.ftq.length then 5
    else 0
  else 0

def mxWait (n : Nib) : Nat := match n.mq with
  | [] => 0
  | e :: _ => mxEntryWait n e

/-- ILLEGAL_MMA (R84). -/
def mxIllegal (nib pc reason : Nat) (s : State) : State :=
  let s := modNib nib (fun n => { n with count := { n.count with mxIll := reason } }) s
  nibFault .matrix 0 1 nib pc reason (countEvent .matrix (regAt .matrix 0 0x44) 15 0 s)

/-- A row that a nib's reader cannot deliver. -/
def readFailed (nib reader : Nat) (r : RowsRead) (s : State) : State :=
  match ctxOfNib s nib, r with
  | some c, .stale row => staleRow c nib row reader s
  | some c, .detect row => iwDetect c nib row reader s
  | _, _ => s

def popMx (n : Nib) : Nib := { n with mq := n.mq.drop 1 }

/-- One matrix command: the queue head is of its kind, no gather group is open and the head may issue. An undefined opcode is refused
whichever command meets it. -/
def mxRow (kind : Nib → Nat → Bool) (body : Nat → MxEntry → State → State) (nib : Fin 1024) (ups : List Upset) (s : State) :
    Host.Outcome State Fault Refusal :=
  let n := getNib s nib.val
  match nibRuns s nib.val, n.mq with
  | true, e :: _ =>
    let o := mxOp e.word
    if n.gather ≠ 0 ∨ mxEntryWait n e ≠ 0 then .next s
    else if o ≠ 0x40 ∧ o ≠ 0x48 ∧ o ≠ 0x49 then .next (mxIllegal nib.val e.pc 9 s)
    else if kind n e.word then .next (body nib.val e (modNib nib.val (fun n => n.upset ups) s))
    else .next s
  | _, _ => .next s

/-! ## MMA (R70 to R77) -/

/-- The row of a list of (index, data). -/
def rowIn (rows : List (Nat × Row)) (r : Nat) : Row := match rows.find? (fun p => p.1 == r) with
  | some p => p.2
  | none => 0

/-- The 16 activation values of matrix row j. -/
def mmaActs (i : Mma) (rows : List (Nat × Row)) (j : Nat) : List Num :=
  let g := j / 16
  let (sr, si) := i.aScale g
  sliceValues i.afmt (rowIn rows (i.aRow + g)) (rowIn rows sr, si) (j % 16) i.aSel

/-- The weights that array a loads: cell (k, n) at 16 k + n. -/
def mmaWeights (i : Mma) (rows : List (Nat × Row)) (a : Nat) : Held :=
  let (sr, si) := i.wScale a
  let r := rowIn rows (i.wRow + a)
  let sc := (rowIn rows sr, si)
  ⟨(List.range 256).map (fun q =>
    let k := q / 16
    let n := q % 16
    if i.wmode = 2 then vecValue i.wfmt r sc k n else vecValue i.wfmt r sc n (16 * i.wSel + k))⟩

/-- The products of one matrix row with an array's weights, added into an accumulator row. -/
def addVector (A : Int) (acts : List Num) (h : Held) (r : AccRow) : AccRow :=
  (List.range 256).foldl (fun r q =>
    let k := q / 16
    r.addTerm (q % 16) (termOfProduct A (acts.getD k .nan) (h.elems.getD q .nan))) r

/-- The feeder buffers after an MMA (R93). Of its scale rows the weights' count as used last, in the order of the arrays (DESIGN CHOICE, log
150). -/
def Nib.fillBuffers (n : Nib) (i : Mma) (rows : List (Nat × Row)) : Nib :=
  let scales := (i.aScaleRows ++ i.wScaleRows).foldl (fun (acc : List (Nat × Row)) r =>
    (r, rowIn rows r) :: acc.filter (fun p => p.1 != r)) n.scaleBuf
  let n := { n with actBuf := i.dataRows.map (fun r => (r, rowIn rows r)), scaleBuf := scales.take 2 }
  if i.wmode = 1 then n
  else (arraysOf i.amask).foldl (fun n a =>
    { n with wBuf := vset n.wBuf a (some (i.wRow + a, rowIn rows (i.wRow + a))) }) n

/-- An MMA's effect once its rows are read. -/
def Nib.runMma (n : Nib) (i : Mma) (rows : List (Nat × Row)) : Nib :=
  let arrays := arraysOf i.amask
  let n := if i.wmode = 1 then n
    else arrays.foldl (fun n a => { n with held := vset n.held a (some (mmaWeights i rows a)) }) n
  let n := n.fillBuffers i rows
  arrays.foldl (fun n a =>
    match vget none n.held a with
    | none => n
    | some h => (List.range i.m).foldl (fun n j =>
        n.setAcc a (i.acc + j) (addVector i.anchor (mmaActs i rows j) h ((n.accRow a (i.acc + j)).begin i.anchor i.clr 1))) n) n

/-- The accumulator rows that an MMA would write. -/
def Nib.mmaRows (n : Nib) (i : Mma) : List AccRow :=
  (arraysOf i.amask).flatMap (fun a => (List.range i.m).map (fun j => n.accRow a (i.acc + j)))

def holds (n : Nib) (a : Nat) : Bool := (vget none n.held a).isSome

def countMma (n : Nib) : Nib := { n with count := { n.count with mmas := n.count.mmas + 1 } }

/-- Issue one ordinary MMA, the queue head; the answer says whether it executed. -/
def issueMma (nib : Nat) (e : MxEntry) (s : State) : Bool × State :=
  let n := getNib s nib
  let i := Mma.ofWord e.word
  let why := i.reason (holds n)
  if why ≠ 0 then (false, mxIllegal nib e.pc why s)
  else if i.idle then (true, modNib nib (fun n => countMma (popMx n)) s)
  else
    match (if i.clr then none else accCheck (n.mmaRows i) i.anchor 1) with
    | some err => (false, accFault nib e.pc err s)
    | none =>
      match n.feedRows i.rows with
      | .ok ds => (true, modNib nib (fun n => countMma ((popMx n).runMma i (i.rows.zip ds))) s)
      | r => (false, readFailed nib 0 r s)

/-! ## Gathering (R90) -/

def gatherTimeout (s : State) : Nat := getF s (regAt .matrix 0 0x40) 11 0

/-- The static conditions on a member. -/
def mayGather (regions : List Nat) (w : Nat) : Bool :=
  mxOp w == 0x40 && !isSparse regions w && (Mma.ofWord w).gather

def opensGroup (s : State) (n : Nib) (w : Nat) : Bool :=
  gatherTimeout s != 0 && mayGather n.regions w && decide ((Mma.ofWord w).m < 16)

/-- Accumulator rows of two members overlap; a member that writes no row (R83) overlaps none. -/
def accOverlap (i j : Mma) : Bool := !i.idle && !j.idle && decide (i.acc < j.acc + j.m) && decide (j.acc < i.acc + i.m)

/-- An entry fits a group of members (the first at the head). -/
def fitsGroup (regions : List Nat) (members : List Mma) (w : Nat) : Bool :=
  match members with
  | [] => false
  | f :: _ =>
    let i := Mma.ofWord w
    mayGather regions w && i.afmt == f.afmt && i.wfmt == f.wfmt && i.amask == f.amask && i.anchor == f.anchor &&
    (i.wmode == 1 || (i.wmode == f.wmode && i.wRow == f.wRow && i.wSel == f.wSel && i.wSrow == f.wSrow && i.wSi == f.wSi)) &&
    members.all (fun m => !accOverlap m i) && decide (members.foldl (fun t m => t + m.m) i.m ≤ 16)

def membersOf (n : Nib) : List Mma := (n.mq.take n.gather).map (fun e => Mma.ofWord e.word)

/-- Following entries join while they fit and meet R85. -/
def growGroup (n : Nib) : Nat → Nib
  | 0 => n
  | fuel + 1 =>
    match n.mq[n.gather]? with
    | none => n
    | some e =>
      if fitsGroup n.regions (membersOf n) e.word ∧ mxEntryWait n e = 0 then growGroup { n with gather := n.gather + 1 } fuel
      else n

/-- The group is full, or the next entry cannot join. -/
def groupDue (n : Nib) : Bool :=
  let ms := membersOf n
  decide (ms.foldl (fun t m => t + m.m) 0 = 16) ||
  (match n.mq[n.gather]? with
   | none => false
   | some e => !fitsGroup n.regions ms e.word)

/-- Issue the members, first to last, until one does not execute. -/
def issueMembers (nib : Nat) : Nat → State → State
  | 0, s => s
  | k + 1, s =>
    match (getNib s nib).mq with
    | [] => s
    | e :: _ =>
      match issueMma nib e s with
      | (true, s) => issueMembers nib k s
      | (false, s) => s

/-- The group issues as one pass. -/
def gatherPass (nib : Nat) (s : State) : State :=
  let k := (getNib s nib).gather
  let s := modNib nib (fun n => { n with gather := 0, count := { n.count with gathered := satAdd 32 n.count.gathered 1 } }) s
  issueMembers nib k s

/-- GATHER_PASS. -/
def execGatherPass (nib : Fin 1024) (timedOut : Bool) (ups : List Upset) (s : State) : Host.Outcome State Fault Refusal :=
  let n := growGroup (getNib s nib.val) 16
  if nibRuns s nib.val ∧ n.gather ≠ 0 ∧ (timedOut ∨ groupDue n) then
    .next (gatherPass nib.val (setNib nib.val (n.upset ups) s))
  else .next s

/-- MMA_ISSUE: the head MMA issues, or opens a gather group; an entry behind an open group joins it. -/
def execMmaIssue (nib : Fin 1024) (ups : List Upset) (s : State) : Host.Outcome State Fault Refusal :=
  if nibRuns s nib.val ∧ (getNib s nib.val).gather ≠ 0 then .next (modNib nib.val (fun n => growGroup n 16) s)
  else
    mxRow (fun n w => mxOp w == 0x40 && !isSparse n.regions w) (fun nib e s =>
      if opensGroup s (getNib s nib) e.word then modNib nib (fun n => growGroup { n with gather := 1 } 16) s
      else (issueMma nib e s).2) nib ups s

/-! ## READOUT (R54, R55, R58, R78 to R81) -/

def readFmt (t : Nat) : Option Fmt := match t with
  | 0 => some .fp32 | 1 => some .bf16 | 2 => some .fp16 | 3 => some .e5m2 | 4 => some .e4m3 | 5 => some .int8 | _ => none

/-- Row j of a readout: the results and the row with its sticky CONV_SAT; a row without a tag reads as zero. -/
def readAccRow (i : Readout) (sat8 sr : Bool) (key : SpatterKey) (j : Nat) (r : AccRow) : List ReadOut × AccRow :=
  match r.tag with
  | none => (List.replicate 16 ⟨0, false, false, false⟩, r)
  | some A =>
    let outs := (List.range 16).map (fun n =>
      let e := vget AccEntry.clear r.entries n
      let rnd : Rnd := if sr then .sr (bits (spatterWord key i.tensor (i.srBase + j * i.stride + 16 * i.array + n)) 31 16) else .ne
      readEntry (readFmt i.tfmt) sat8 rnd A e.sum.toInt e.nf e.sat)
    (outs, { r with convSat := r.convSat || outs.any (fun o => o.convSat) })

/-- Inkwell rows of a readout: P accumulator rows each, zeros after the last. -/
def packReadout (i : Readout) (rows : List (List ReadOut)) : List Row :=
  let bytesAll := rows.map (fun os => os.flatMap (fun o => bytesOf i.bytes o.bits))
  let p := i.perRow
  (List.range ((rows.length + p - 1) / p)).map (fun k => rowOfBytes (((bytesAll.drop (p * k)).take p).flatten))

/-- Write one feedback word (R79, R80), by the nib's translations (DESIGN CHOICE, log 159); bits 2:0 of MX_FB_BASE are ignored. -/
def writeFeedback (nib pc fb idx word : Nat) (s : State) : State :=
  match ctxOfNib s nib with
  | none => s
  | some c =>
    let va := fb / 8 * 8 + 8 * idx
    if aperture ≤ va then dmaPageFault nib pc 0 va 3 s
    else
      match vWriteBy (nibTranslate nib c true) va (bytesOf 8 word) s with
      | (some (.page a why), s) => dmaPageFault nib pc 0 a why s
      | (_, s) => moveBytes c 0xA8 8 s

/-- A layer's feedback words are written: FB_WRITE is 1 and it is no recomputation (R58, R181). -/
def wantFeedback (s : State) (nib : Nat) : Bool :=
  fbWrite s && (match nibRecord s nib with
    | some r => !r.recompute
    | none => false)

def runReadout (nib : Nat) (e : MxEntry) (i : Readout) (s : State) : State :=
  let (sr, s) := wantSr nib e.pc (i.sr && i.tfmt != 6) s
  let n := getNib s nib
  let key := spatterKey s nib
  let reads := (List.range i.n).map (fun j => readAccRow i (fp8Sat s) sr key j (n.accRow i.array (i.acc + j)))
  let outs := reads.map (fun p => p.1)
  let rows := reads.map (fun p => p.2)
  let ovf := outs.any (fun os => os.any (fun o => o.ovf))
  let nf := outs.any (fun os => os.any (fun o => o.nf))
  let n := ((List.range i.n).zip rows).foldl (fun n p => n.setAcc i.array (i.acc + p.1) (if i.clr then AccRow.clear else p.2)) (popMx n)
  let n := if i.dest then
      ((i.rows.zip (packReadout i outs)).foldl (fun n p => n.writeRow p.1 p.2) n).flag ovf nf
    else
      let tile : Tile := ⟨i.array, outs.map (fun os => BitVec.ofNat 512 (ofBytes (os.flatMap (fun o => bytesOf 4 o.bits)))), ovf, nf⟩
      { n with ftq := n.ftq ++ [tile] }
  let s := noteFlags nib e.pc ovf nf (setNib nib n s)
  if wantFeedback s nib then writeFeedback nib e.pc e.fb i.fbIdx (feedbackWord rows ovf nf) s else s

/-- READOUT_ISSUE. With N = 0 nothing is rounded, so a request for stochastic rounding is not counted either (R48, R83; DESIGN CHOICE, log
148). -/
def execReadoutIssue (nib : Fin 1024) (s : State) : Host.Outcome State Fault Refusal :=
  mxRow (fun _ w => mxOp w == 0x48) (fun nib e s =>
    let i := Readout.ofWord e.word
    if i.reason ≠ 0 then mxIllegal nib e.pc i.reason s
    else if i.n = 0 then modNib nib popMx s
    else runReadout nib e i s) nib [] s

/-- ACCCLR_ISSUE (R82, R83). -/
def execAccclrIssue (nib : Fin 1024) (s : State) : Host.Outcome State Fault Refusal :=
  mxRow (fun _ w => mxOp w == 0x49) (fun nib e s =>
    let i := AccClr.ofWord e.word
    if i.reason ≠ 0 then mxIllegal nib e.pc i.reason s
    else modNib nib (fun n => (arraysOf i.amask).foldl (fun n a =>
      (List.range i.n).foldl (fun n j => n.setAcc a (i.acc + j) AccRow.clear) n) (popMx n)) s) nib [] s

/-! ## Watchdog (R88) -/

/-- The tag that a head waits on, for the Blotter. -/
def stallTag (n : Nib) (e : MxEntry) : Nat :=
  let i := Mma.ofWord e.word
  if mxEntryWait n e ≠ 1 then 0
  else if tagWaits n i.tag0 e.cap0 then i.tag0.1
  else i.tag1.1

/-- ISSUE_STALL: once for each head that waits. -/
def execIssueStall (nib : Fin 1024) (s : State) : Host.Outcome State Fault Refusal :=
  let n := getNib s nib.val
  match n.mq with
  | [] => .next s
  | e :: _ =>
    let w := mxWait n
    if nibRuns s nib.val ∧ getF s (regAt .matrix 0 0x40) 23 12 ≠ 0 ∧ w ≠ 0 ∧ n.mqStall ≠ some e.seq then
      let s := modNib nib.val (fun n => { n with mqStall := some e.seq }) (countEvent .matrix (regAt .matrix 0 0x44) 31 16 s)
      .next (raise .matrix 0 1 (nibNote s nib.val e.pc (w + 16 * stallTag n e)) s)
    else .next s

end Sys2Proof.Machine
end

