-- ==== Sys2Proof/Machine/VectorEngine.lean ====
section
/-! DEFINITION. The vector engine: one command for each vector instruction (R132 to R153). -/

namespace Sys2Proof.Machine

/-! ## Tile registers (R132) -/

/-- Lane c of a tile row. -/
def lane (l : Lanes) (c : Nat) : Nat := bits l.toNat (32 * c + 31) (32 * c)

/-- A tile row from its 64 lanes. -/
def packLanes (vs : List Nat) : Lanes := BitVec.ofNat 2048 (vs.foldr (fun v acc => v % 2 ^ 32 + 2 ^ 32 * acc) 0)

/-- Row r of tile register t. -/
def Nib.tileRow (n : Nib) (t r : Nat) : Lanes := tabGet 0 n.tiles (16 * t + r)
def Nib.setTile (n : Nib) (t r : Nat) (l : Lanes) : Nib := { n with tiles := tabSet 0 n.tiles (16 * t + r) l }

def isFin32 (b : Nat) : Bool := (val32 b).isFin

/-! ## The head of the queue (R144, R153) -/

/-- A matrix instruction placed earlier writes (or reads) row r. -/
def mxEarlier (rowsOf : Nat → List Nat) (n : Nib) (seq r : Nat) : Bool :=
  n.mq.any (fun e => decide (e.seq < seq) && (rowsOf e.word).contains r)

/-- What an entry waits on, in the code of VEC_NIB_STATUS; 0 when it may start. -/
def vxEntryWait (n : Nib) (e : VecEntry) : Nat :=
  let w := e.word
  let o := vxOp w
  if o = 0x72 ∨ o = 0x78 then
    if tagWaits n (vxTag w) e.cap0 then 3
    else if (vxReads w).any (fun r => dmaPending n e.seq r || mxEarlier mxWrites n e.seq r) then 4
    else 0
  else if o = 0x73 then (if (vxWrites w).any (mxEarlier (mxReads n.regions) n e.seq) then 4 else 0)
  else if o = 0x74 then (if n.ftq = [] then 2 else 0)
  else 0

def vxWait (n : Nib) : Nat := match n.vq with
  | [] => 0
  | e :: _ => vxEntryWait n e

/-- Function table TSEL. -/
def Nib.fnTable (n : Nib) (w : Nat) : Option (List Row) := if wb w 1 0 then n.fn1 else n.fn0

/-- Tile registers that a VPOP of the head entry fills. -/
def popTiles (t : Tile) : Nat := (t.rows.length + 15) / 16

/-- The reasons of R153 beside reason 1; 0 where none applies. An instruction of zero rows uses no table and no row (R138). -/
def vxReason (n : Nib) (w : Nat) : Nat :=
  let o := vxOp w
  if 16 < vxRows w ∧ o ≠ 0x74 ∧ o ≠ 0x78 then 2
  else if (o = 0x75 ∨ o = 0x76) ∧ (4 < wf w 1 2 0 ∨ wf w 1 4 3 = 3) then 3
  else if o = 0x6F ∧ vxRows w ≠ 0 ∧ n.fnTable w = none then 4
  else if o = 0x74 ∧ 16 < vxDst w + (n.ftq.head?.elim 0 popTiles) then 5
  else if (vxReads w ++ vxWrites w).any (fun r => decide (4095 < r)) then 6
  else if (o = 0x72 ∨ o = 0x73) ∧ vxFmt w = 7 ∧ 16 ≤ vxSidx w then 7
  else 0

/-- ILLEGAL_VEC. -/
def vxIllegal (nib pc reason : Nat) (s : State) : State :=
  let s := modNib nib (fun n => { n with count := { n.count with vecIll := reason } }) s
  nibFault .vector 0 6 nib pc reason (countEvent .vector (regAt .vector 0 0x44) 15 0 s)

def popVx (n : Nib) : Nib := { n with vq := n.vq.drop 1 }

/-- An instruction of zero rows completes and does nothing: a VST of zero rows with SR = 1 counts and raises nothing of SR_ALLOW either (DESIGN
CHOICE, log 165). -/
def vxEmpty (w : Nat) : Bool := vxRows w == 0 && vxOp w != 0x74 && vxOp w != 0x78

/-- One vector command: the queue head has its opcode and may start. An illegal opcode is refused whichever command meets it. -/
def vxRow (o : Nat) (body : Nat → VecEntry → State → State) (nib : Fin 1024) (ups : List Upset) (s : State) :
    Host.Outcome State Fault Refusal :=
  let n := getNib s nib.val
  match nibRuns s nib.val, n.vq with
  | true, e :: _ =>
    let op := vxOp e.word
    if op < 0x60 ∨ 0x78 < op then .next (vxIllegal nib.val e.pc 1 s)
    else if op ≠ o ∨ vxEntryWait n e ≠ 0 then .next s
    else if vxReason n e.word ≠ 0 then .next (vxIllegal nib.val e.pc (vxReason n e.word) s)
    else if vxEmpty e.word then .next (modNib nib.val popVx s)
    else .next (body nib.val e (modNib nib.val (fun n => n.upset ups) s))
  | _, _ => .next s

/-! ## Element-wise instructions (R133, R134, R136) -/

/-- A result, and whether every input of the element was finite. -/
abbrev LaneOut := Nat × Bool

/-- A one-operand instruction reads A alone: the scalar of word 2 is no input of it, whatever BSCAL holds (DESIGN CHOICE, log 166). -/
def elem1 (f : Nat → Nat) (a _ _ : Nat) : LaneOut := (f a, isFin32 a)
def elem2 (f : Nat → Nat → Nat) (a b _ : Nat) : LaneOut := (f a b, isFin32 a && isFin32 b)
def elem3 (f : Nat → Nat → Nat → Nat) (a b c : Nat) : LaneOut := (f a b c, isFin32 a && isFin32 b && isFin32 c)

/-- The results of tile row r. -/
def elemRow (f : Nat → Nat → Nat → LaneOut) (n : Nib) (w r : Nat) : List LaneOut :=
  let a := n.tileRow (vxA w) r
  let b := n.tileRow (vxB w) r
  let c := n.tileRow (vxC w) r
  (List.range 64).map (fun k => f (lane a k) (if vxBscal w then vxScalar w else lane b k) (lane c k))

/-- A non-finite result of finite inputs. -/
def badElem (e : LaneOut) : Bool := e.2 && !isFin32 e.1

/-- Rows 0 to ROWS − 1 of DST get the results; the other rows stay. -/
def runElem (f : Nib → Nat → Nat → Nat → Nat → LaneOut) (nib : Nat) (e : VecEntry) (s : State) : State :=
  let n := getNib s nib
  let w := e.word
  let rows := (List.range (vxRows w)).map (fun r => (r, elemRow (f n w) n w r))
  let n := rows.foldl (fun n p => n.setTile (vxDst w) p.1 (packLanes (p.2.map (fun x => x.1)))) (popVx n)
  vecFlags nib e.pc false (rows.any (fun p => p.2.any badElem)) (setNib nib n s)

def elemOp (o : Nat) (f : Nat → Nat → Nat → LaneOut) (nib : Fin 1024) (s : State) : Host.Outcome State Fault Refusal :=
  vxRow o (runElem (fun _ _ => f)) nib [] s

def execVadd (nib : Fin 1024) (s : State) : Host.Outcome State Fault Refusal := elemOp 0x60 (elem2 fadd) nib s
def execVsub (nib : Fin 1024) (s : State) : Host.Outcome State Fault Refusal := elemOp 0x61 (elem2 fsub) nib s
def execVmul (nib : Fin 1024) (s : State) : Host.Outcome State Fault Refusal := elemOp 0x62 (elem2 fmul) nib s
def execVfma (nib : Fin 1024) (s : State) : Host.Outcome State Fault Refusal := elemOp 0x63 (elem3 ffma) nib s
def execVmax (nib : Fin 1024) (s : State) : Host.Outcome State Fault Refusal := elemOp 0x64 (elem2 fmaxp) nib s
def execVmin (nib : Fin 1024) (s : State) : Host.Outcome State Fault Refusal := elemOp 0x65 (elem2 fminp) nib s
def execVabs (nib : Fin 1024) (s : State) : Host.Outcome State Fault Refusal := elemOp 0x66 (elem1 fabs) nib s
def execVneg (nib : Fin 1024) (s : State) : Host.Outcome State Fault Refusal := elemOp 0x67 (elem1 fneg) nib s
def execVrcp (nib : Fin 1024) (s : State) : Host.Outcome State Fault Refusal := elemOp 0x68 (elem1 frcp) nib s
def execVsqrt (nib : Fin 1024) (s : State) : Host.Outcome State Fault Refusal := elemOp 0x69 (elem1 fsqrt) nib s
def execVrsqrt (nib : Fin 1024) (s : State) : Host.Outcome State Fault Refusal := elemOp 0x6A (elem1 frsqrt) nib s
def execVexp2 (nib : Fin 1024) (s : State) : Host.Outcome State Fault Refusal := elemOp 0x6B (elem1 fexp2) nib s
def execVlog2 (nib : Fin 1024) (s : State) : Host.Outcome State Fault Refusal := elemOp 0x6C (elem1 flog2) nib s
def execVcmplt (nib : Fin 1024) (s : State) : Host.Outcome State Fault Refusal := elemOp 0x6D (elem2 fcmplt) nib s
def execVsel (nib : Fin 1024) (s : State) : Host.Outcome State Fault Refusal := elemOp 0x6E (elem3 fsel) nib s
def execVmov (nib : Fin 1024) (s : State) : Host.Outcome State Fault Refusal := elemOp 0x70 (elem1 fcopy) nib s

/-! ## Function tables (R150, R151) -/

/-- The FP32 pattern at a byte of row k of a table image. -/
def fnWord (t : List Row) (k b : Nat) : Nat := rowBits ((t[k]?).getD 0) (8 * b + 31) (8 * b)

/-- Coefficient c of segment i. -/
def fnCoef (t : List Row) (c i : Nat) : Nat := fnWord t (1 + 2 * c + i / 128) (4 * (i % 128))

/-- m × 2^e × 2^(−k) for a finite value; others unchanged. -/
def scaleNum (v : Num) (k : Int) : Num := match v with
  | .nan => .nan
  | .inf s => .inf s
  | .fin s m e => .fin s m (e - k)

/-- One linear segment: round(slope × x + offset). -/
def fnLinear (x slope off : Nat) : LaneOut :=
  let r := if (val32 slope).isZero && !isFin32 x then fcopy off else ffma slope x off
  (r, isFin32 x && isFin32 slope && isFin32 off)

/-- The table's value at x. A zero u − i is taken as +0, whatever the sign of u (DESIGN CHOICE, log 168). -/
def fnValue (t : List Row) (x : Nat) : LaneOut :=
  let base := fnWord t 0 0
  let shift := signed 8 (rowByte ((t[0]?).getD 0) 4)
  let fin := isFin32 x && isFin32 base
  if (val32 x).isNaN then (fp32L.nan, false)
  else
    let u := scaleNum (addNum (val32 x) (negNum (val32 base))) shift
    if u.isNaN then (fp32L.nan, false)
    else if ltNum u (numOfInt 0 0) then
      let r := fnLinear x (fnWord t 0 8) (fnWord t 0 12)
      (r.1, r.2 && fin)
    else if !ltNum u (numOfInt 256 0) then
      let r := fnLinear x (fnWord t 0 16) (fnWord t 0 20)
      (r.1, r.2 && fin)
    else
      match u with
      | .fin _ m e =>
        let i : Nat := match e with
          | .ofNat k => m * 2 ^ k
          | .negSucc k => m / 2 ^ (k + 1)
        let d := round32 (addNum u (numOfInt (-(i : Int)) 0))
        let c0 := fnCoef t 0 i
        let c1 := fnCoef t 1 i
        let c2 := fnCoef t 2 i
        (ffma (ffma c2 d c1) d c0, fin && isFin32 c0 && isFin32 c1 && isFin32 c2)
      | _ => (fp32L.nan, false)

def execVfn (nib : Fin 1024) (s : State) : Host.Outcome State Fault Refusal :=
  vxRow 0x6F (runElem (fun n w a _ _ => fnValue ((n.fnTable w).getD []) a)) nib [] s

/-- VTLOAD: seven rows become the table's image. -/
def runVtload (nib : Nat) (e : VecEntry) (s : State) : State :=
  match (getNib s nib).readRows (vxReads e.word) with
  | .ok ds => modNib nib (fun n => if wb e.word 1 12 then { popVx n with fn1 := some ds } else { popVx n with fn0 := some ds }) s
  | r => readFailed nib 1 r s

def execVtload (nib : Fin 1024) (ups : List Upset) (s : State) : Host.Outcome State Fault Refusal :=
  vxRow 0x78 runVtload nib ups s

/-! ## VRNG (R143, R185) -/

/-- The Spatter word of tile element (r, c). -/
def tileSpatter (k : SpatterKey) (w r c : Nat) : Nat := spatterWord k (vxTensor w) (vxScalar w + r * vxStride w + c)

def runVrng (nib : Nat) (e : VecEntry) (s : State) : State :=
  let k := spatterKey s nib
  let w := e.word
  modNib nib (fun n => (List.range (vxRows w)).foldl (fun n r =>
    n.setTile (vxDst w) r (packLanes ((List.range 64).map (fun c =>
      round32 (.fin false (bits (tileSpatter k w r c) 31 8) (-24)))))) (popVx n)) s

def execVrng (nib : Fin 1024) (s : State) : Host.Outcome State Fault Refusal := vxRow 0x71 runVrng nib [] s

/-! ## VLD and VST (R139 to R143) -/

/-- Element (r, c) of a tile in the Inkwell, from the data rows and scale rows read. -/
def tileValue (w : Nat) (data scales : List (Nat × Row)) (r c : Nat) : Num :=
  let f := vxFmt w
  let (q, b) := tilePlace f r c
  let x := rowBits (rowIn data (vxIrow w + q)) (b + elemBits f - 1) b
  if isBlock f then
    let (q, b) := tileScale f (vxSidx w) r c
    blockElem (f == 7) x (rowByte (rowIn scales (vxSrow w + q)) b)
  else elemValue (fmtOfCode f) x

/-- A VLD's effect once its rows are read. -/
def loadTile (nib : Nat) (e : VecEntry) (rows : List (Nat × Row)) (s : State) : State :=
  let w := e.word
  let conv (r : Nat) : List Conv := (List.range 64).map (fun c => widen (tileValue w rows rows r c))
  let out := (List.range (vxRows w)).map (fun r => (r, conv (if vxBrow w then 0 else r)))
  let s := modNib nib (fun n => out.foldl (fun n p => n.setTile (vxDst w) p.1 (packLanes (p.2.map (fun x => x.bits)))) (popVx n)) s
  vecFlags nib e.pc false (out.any (fun p => p.2.any (fun x => x.nonfinite))) s

def runVld (nib : Nat) (e : VecEntry) (s : State) : State :=
  let rs := vxReads e.word
  match (getNib s nib).readRows rs with
  | .ok ds => loadTile nib e (rs.zip ds) s
  | r => readFailed nib 1 r s

def execVld (nib : Fin 1024) (ups : List Upset) (s : State) : Host.Outcome State Fault Refusal := vxRow 0x72 runVld nib ups s

/-- What a VST writes: data fields as (Inkwell row, first bit, value), scale bytes as (Inkwell row, byte, value), NONFINITE. -/
structure Stored where
  data   : List (Nat × Nat × Nat)
  scales : List (Nat × Nat × Nat)
  nf     : Bool
  deriving DecidableEq, Repr

/-- Narrow a tile; rows at or above ROWS are zeros. -/
def storeTile (w : Nat) (n : Nib) (sat8 sr : Bool) (k : SpatterKey) : Stored :=
  let f := vxFmt w
  let val (r c : Nat) : Num := if r < vxRows w then val32 (lane (n.tileRow (vxA w) r) c) else .fin false 0 0
  let rnd (r c : Nat) : Rnd := if sr then .sr (bits (tileSpatter k w r c) 31 16) else .ne
  let at_ (r c v : Nat) : Nat × Nat × Nat :=
    let (q, b) := tilePlace f r c
    (vxIrow w + q, b, v)
  if isBlock f then
    let blocks := (List.range 32).map (fun j =>
      let r := j / 2
      let h := j % 2
      let out := toBlock (f == 7) ((List.range 32).map (fun c => (val r (32 * h + c), rnd r (32 * h + c))))
      (r, h, out))
    { data := blocks.flatMap (fun p => p.2.2.q.zipIdx.map (fun q => at_ p.1 (32 * p.2.1 + q.2) q.1)),
      scales := blocks.map (fun p =>
        let (q, b) := tileScale f (vxSidx w) p.1 (32 * p.2.1)
        (vxSrow w + q, b, p.2.2.scale)),
      nf := blocks.any (fun p => p.2.2.nonfinite) }
  else
    let els := (List.range 1024).map (fun i => (i / 64, i % 64, narrow (fmtOfCode f) sat8 (rnd (i / 64) (i % 64)) (val (i / 64) (i % 64))))
    { data := els.map (fun p => at_ p.1 p.2.1 p.2.2.bits), scales := [], nf := els.any (fun p => p.2.2.nonfinite) }

/-- A row assembled from fields. -/
def rowOfFields (fs : List (Nat × Nat × Nat)) (row : Nat) : Row :=
  BitVec.ofNat 4096 ((fs.filter (fun p => p.1 == row)).foldl (fun v p => v + p.2.2 * 2 ^ p.2.1) 0)

/-- A row with bytes replaced. -/
def patchRow (r : Row) (bs : List (Nat × Nat)) : Row :=
  BitVec.ofNat 4096 (bs.foldl (fun v p => putBits v (8 * p.1 + 7) (8 * p.1) p.2) r.toNat)

/-- The scale row for a read-modify-write: one whose valid bit is clear reads as zeros. -/
def Nib.scaleRow (n : Nib) (r : Nat) : RowRead := match n.readRow r with
  | .stale => .ok 0
  | x => x

def runVst (nib : Nat) (e : VecEntry) (s : State) : State :=
  let w := e.word
  let (sr, s) := wantSr nib e.pc (vxSr w && vxFmt w != 0) s
  let n := getNib s nib
  let out := storeTile w n (fp8Sat s) sr (spatterKey s nib)
  let n := (vstRows w).foldl (fun n r => n.writeRow r (rowOfFields out.data r)) n
  let s := setNib nib n s
  match readRowsBy n.scaleRow (vxScaleRows w) with
  | .ok ds =>
    let s := modNib nib (fun n => ((vxScaleRows w).zip ds).foldl (fun n p =>
      n.writeRow p.1 (patchRow p.2 ((out.scales.filter (fun q => q.1 == p.1)).map (fun q => q.2)))) (popVx n)) s
    vecFlags nib e.pc false out.nf s
  | r => readFailed nib 1 r s

def execVst (nib : Fin 1024) (ups : List Upset) (s : State) : Host.Outcome State Fault Refusal := vxRow 0x73 runVst nib ups s

/-! ## VPOP (R145) -/

/-- Columns 16 × ARRAY to 16 × ARRAY + 15 of a tile row replaced. -/
def patchLanes (l : Lanes) (array : Nat) (v : BitVec 512) : Lanes :=
  BitVec.ofNat 2048 (putBits l.toNat (512 * array + 511) (512 * array) v.toNat)

def runVpop (nib : Nat) (e : VecEntry) (s : State) : State :=
  modNib nib (fun n => match n.ftq with
    | [] => n
    | t :: rest =>
      let n := { popVx n with ftq := rest }
      (t.rows.zipIdx.foldl (fun n p =>
        let reg := vxDst e.word + p.2 / 16
        n.setTile reg (p.2 % 16) (patchLanes (n.tileRow reg (p.2 % 16)) t.array p.1)) n).flag t.ovf t.nf) s

def execVpop (nib : Fin 1024) (s : State) : Host.Outcome State Fault Refusal := vxRow 0x74 runVpop nib [] s

/-! ## Reductions (R147 to R149) -/

def redRop (w : Nat) : Nat := wf w 1 2 0
def redMode (w : Nat) : Nat := wf w 1 4 3
def redClr (w : Nat) : Bool := wb w 1 5
def redAnchor (w : Nat) : Int := sbits w (32 + 15) (32 + 6)

/-- SUM, SUMSQ and MEAN take the anchored path. -/
def redSums (w : Nat) : Bool := decide (redRop w ≤ 2)

def Nib.redEntry (n : Nib) (i : Nat) : RedEntry := tabGet RedEntry.zero n.red i
def Nib.setRed (n : Nib) (i : Nat) (x : RedEntry) : Nib := { n with red := tabSet RedEntry.zero n.red i x }

/-- One element into an entry. -/
def RedEntry.add (w : Nat) (x : Nat) (e : RedEntry) : RedEntry :=
  let e := { e with count := e.count + 1 }
  if redSums w then
    let v := val32 x
    let t := termOf (redAnchor w) (if redRop w = 1 then (if v.isZero then numOfInt 0 0 else mulNum v v) else v)
    { e with
        sum := e.sum + BitVec.ofInt 88 t.v, nf := e.nf || t.nf, sat := e.sat || t.sat, inexact := e.inexact || t.inexact,
        maxProd := topMax e.maxProd t.top }
  else
    let f := if redRop w = 3 then fmaxp else fminp
    { e with run := some (match e.run with
      | none => x
      | some y => f y x) }

/-- All elements of an index, first to last. -/
def RedEntry.addAll (w : Nat) (xs : List Nat) (e : RedEntry) : RedEntry :=
  let e := if redSums w then { e with tag := some (e.tag.getD (redAnchor w)) } else e
  xs.foldl (fun e x => e.add w x) e

/-- The result of an entry. -/
def RedEntry.result (w : Nat) (e : RedEntry) : ReadOut :=
  let A := e.tag.getD (redAnchor w)
  if redRop w = 2 then
    if e.nf then ⟨fp32L.nan, e.sat, true, false⟩
    else
      let v := toFloat fp32L false .ne (divNum (numOfInt e.sum.toInt (A - 44)) (numOfInt e.count 0))
      ⟨v.bits, e.sat, v.nonfinite, false⟩
  else if redSums w then readEntry (some .fp32) false .ne A e.sum.toInt e.nf e.sat
  else ⟨fcopy (e.run.getD 0), false, false, false⟩

/-- The entries that a reduction uses with the elements that go into each: VREDR by tile row, VREDC by column. -/
def redInputs (byRow : Bool) (n : Nib) (w : Nat) : List (Nat × List Nat) :=
  let a (r c : Nat) : Nat := lane (n.tileRow (vxA w) r) c
  if byRow then (List.range (vxRows w)).map (fun r => (r, (List.range 64).map (a r)))
  else (List.range 64).map (fun c => (c, (List.range (vxRows w)).map (fun r => a r c)))

/-- ANCHOR_MISMATCH before ACC_DEPTH (R148). -/
def redCheck (w : Nat) (es : List (RedEntry × Nat)) : Option AccErr :=
  if redSums w ∧ es.any (fun p => p.1.tag.isSome && p.1.tag != some (redAnchor w)) then some .anchor
  else if es.any (fun p => decide (2 ^ 24 < p.1.count + p.2)) then some .depth
  else none

/-- The results written to DST. -/
def writeReds (byRow : Bool) (w : Nat) (rs : List Nat) (n : Nib) : Nib :=
  if byRow then rs.zipIdx.foldl (fun n p => n.setTile (vxDst w) p.2 (packLanes (List.replicate 64 p.1))) n
  else (List.range 16).foldl (fun n r => n.setTile (vxDst w) r (packLanes rs)) n

/-- A reduction. RCLR clears the entries that the instruction uses: those of the tile rows 0 to ROWS − 1, or of every column (DESIGN CHOICE, log
167). -/
def runRed (byRow : Bool) (nib : Nat) (e : VecEntry) (s : State) : State :=
  let n := getNib s nib
  let w := e.word
  let ins := redInputs byRow n w
  let start (i : Nat) : RedEntry := if redMode w = 0 ∨ redClr w then RedEntry.clear else n.redEntry i
  match redCheck w (ins.map (fun p => (start p.1, p.2.length))) with
  | some err => accFault nib e.pc err s
  | none =>
    let outs := ins.map (fun p => (p.1, (start p.1).addAll w p.2))
    let n := popVx n
    let n := if redMode w = 0 then n else outs.foldl (fun n p => n.setRed p.1 p.2) n
    if redMode w = 1 then setNib nib n s
    else
      let rs := outs.map (fun p => p.2.result w)
      vecFlags nib e.pc (rs.any (fun r => r.ovf)) (rs.any (fun r => r.nf)) (setNib nib (writeReds byRow w (rs.map (fun r => r.bits)) n) s)

def execVredr (nib : Fin 1024) (s : State) : Host.Outcome State Fault Refusal := vxRow 0x75 (runRed true) nib [] s
def execVredc (nib : Fin 1024) (s : State) : Host.Outcome State Fault Refusal := vxRow 0x76 (runRed false) nib [] s

/-! ## VSUM (R152) -/

def runVsum (nib : Nat) (e : VecEntry) (s : State) : State :=
  let w := e.word
  let n := getNib s nib
  let A := sbits w (32 + 12) (32 + 3)
  let xs := (List.range (vxRows w)).flatMap (fun r => (List.range 64).map (fun c => lane (n.tileRow (vxA w) r) c))
  let vs := xs.map val32
  let sum := vs.foldl (fun a v => a.add (termOf A v)) AccEntry.clear
  let r := readEntry (some .fp32) false .ne A sum.sum.toInt sum.nf sum.sat
  let top := vs.foldl (fun m v => if v.isNaN then m else some (match m with
    | none => v
    | some y => maxNum y v)) (none : Option Num)
  let s := vecFlags nib e.pc r.ovf r.nf (modNib nib popVx s)
  modNib nib (fun n =>
    let b (x : Bool) (i : Nat) : Nat := if x then 2 ^ i else 0
    let slot : Summary := { max := (match top with
                              | none => fp32L.nan
                              | some v => round32 v),
                            sum := r.bits, count := (vs.filter (fun v => !v.isZero)).length,
                            flags := b (vs.any (fun v => v.isNaN)) 0 + b (vs.any (fun v => !v.isNaN && !v.isFin)) 1 +
                              b n.tileOvf 2 + b n.tileNf 3 }
    let n := { n with slots := tabInsert n.slots (wf w 1 1 0) slot }
    if wb w 1 2 then { n with tileOvf := false, tileNf := false } else n) s

def execVsum (nib : Fin 1024) (s : State) : Host.Outcome State Fault Refusal := vxRow 0x77 runVsum nib [] s

/-! ## Watchdog -/

/-- VEC_STALL: once for each head that waits. -/
def execVecStall (nib : Fin 1024) (s : State) : Host.Outcome State Fault Refusal :=
  let n := getNib s nib.val
  match n.vq with
  | [] => .next s
  | e :: _ =>
    if nibRuns s nib.val ∧ getF s (regAt .vector 0 0x40) 11 0 ≠ 0 ∧ vxWait n ≠ 0 ∧ n.vqStall ≠ some e.seq then
      let s := modNib nib.val (fun n => { n with vqStall := some e.seq }) (countEvent .vector (regAt .vector 0 0x44) 31 16 s)
      let tag := if vxWait n = 3 then (vxTag e.word).1 else 0
      .next (raise .vector 0 1 (nibNote s nib.val e.pc (vxWait n + 16 * tag)) s)
    else .next s

end Sys2Proof.Machine
end

