-- ==== Sys2Proof/Machine/DmaEngine.lean ====
section
/-! DEFINITION. The DMA engine: starting descriptors, translation, landing, completion, remote rows and signals (R108 to R125, R173 to
R178, R208, R218). -/

namespace Sys2Proof.Machine

/-! ## Litter access (R176) -/

/-- LIT_ACCESS: why an aperture row of a descriptor is refused; 0 where it may go. A row in the wrong direction and beyond LIT_ROWS has reason 6
(DESIGN CHOICE, log 147). -/
def litRefusal (l : LitFrame) (kind f : Nat) : Nat :=
  if l.op = 0 ∨ (l.op = 1 ∧ kind = 0) ∨ (l.op ≠ 1 ∧ kind = 1) then 6 else if l.rows ≤ f then 5 else 0

/-! ## Request tags (R108, R119) -/

/-- The request that carries row i of a descriptor: up to 4 consecutive rows, inside a page, where STRIDE is 1. -/
def Desc.request (d : Desc) (i : Nat) : Nat := if d.kind ≤ 1 ∧ d.stride = 1 then (d.va / 512 + i) / 4 else i

/-- The requests of a nib that hold request tags, by descriptor and request: each until its last row has landed or been accepted, a
prefetch hint until its controller has it done. -/
def tagsHeld (s : State) (nib : Nat) : List (Nat × Nat) :=
  (s.canopy.xfers.filterMap (fun x => if x.nib ≠ nib ∨ x.kind = .local then none else some (x.seq, x.group))).dedup

/-- The request tags that prefetch hints hold. -/
def hintsHeld (s : State) (nib : Nat) : List (Nat × Nat) :=
  (s.canopy.xfers.filterMap (fun x => if x.nib = nib ∧ x.kind = .hint then some (x.seq, x.group) else none)).dedup

def tagsUsed (s : State) (nib : Nat) : Nat := (tagsHeld s nib).length

/-- Row i of a descriptor may take a request tag: one is free, or its request holds one already. -/
def tagFree (s : State) (nib : Nat) (d : Desc) (i : Nat) : Bool :=
  decide (tagsUsed s nib < 64) || (tagsHeld s nib).contains (d.seq, d.request i)

/-! ## Which row comes next (R113, R123) -/

def rowSent (s : State) (nib : Nat) (d : Desc) (i : Nat) : Bool :=
  d.landed.contains i || (tabFind? d.held i).isSome ||
  s.canopy.xfers.any (fun x => x.nib == nib && x.seq == d.seq && x.row == i)

/-- The first row not yet requested. -/
def nextRow (s : State) (nib : Nat) (d : Desc) : Option Nat := (List.range d.rows).find? (fun i => !rowSent s nib d i)

/-- A descriptor may start: every earlier one has started, and, with FENCE, has completed. -/
def mayStart (n : Nib) (d : Desc) : Bool :=
  n.descs.all (fun e => decide (d.seq ≤ e.seq) || (e.started && (!d.fence || e.done)))

/-- A READOUT or a VST earlier in program order still has to write local row r (R117). -/
def sourceWaits (n : Nib) (d : Desc) (r : Nat) : Bool :=
  n.mq.any (fun e => decide (e.seq < d.seq) && (mxWrites e.word).contains r) ||
  n.vq.any (fun e => decide (e.seq < d.seq) && (vxWrites e.word).contains r)

/-- What the engine meets at row i of a KIND 0 or 1 descriptor. -/
inductive RowGo where
  /-- a row at a device physical address -/
  | hbm (dpa : Nat)
  /-- a window hit: local row -/
  | window (row : Nat)
  /-- the page is not cached: a walk is needed -/
  | walk (va : Nat)
  /-- a page fault -/
  | page (va reason : Nat)
  /-- LIT_ACCESS with a reason -/
  | refused (reason : Nat)
  deriving DecidableEq, Repr

def RowGo.walks : RowGo → Bool
  | .walk _ => true
  | .hbm _ => false
  | .window _ => false
  | .page _ _ => false
  | .refused _ => false

/-- Translate through the nib's cache. -/
def goVa (n : Nib) (c kind va : Nat) : RowGo :=
  if 2 ^ 48 ≤ va then .page va 3
  else match n.cached c va with
    | none => .walk va
    | some (a, w) => if kind = 1 ∧ !w then .page va 2 else .hbm (a + va % 2 ^ 21)

def rowGo (s : State) (nib c : Nat) (d : Desc) (i : Nat) : RowGo :=
  let n := getNib s nib
  let va := (d.addr i).toNat
  if va < aperture then goVa n c d.kind va
  else
    let f := (va - aperture) / 512
    match (getCtx s c).lit with
    | none => .refused 6
    | some l =>
      if litRefusal l d.kind f ≠ 0 then .refused (litRefusal l d.kind f)
      else if d.kind = 0 ∧ winEn s ∧ (n.row (4096 + f % 512)).isSome ∧ tabFind? n.slotTag (f % 512) = some (c, l.frameSeq, f) then
        .window (4096 + f % 512)
      else goVa n c d.kind (l.regionVa + 512 * (l.start + f))

/-! ## Planes and routers (R18, R22, R25) -/

/-- Router of a logical nib: 32 y + x. -/
def routerOf (nib : Nat) : Nat :=
  let x := 16 * (nib / 256 % 2) + 4 * (nib / 16 % 4) + nib % 4
  let y := 16 * (nib / 512) + 4 * (nib / 64 % 4) + nib / 4 % 4
  32 * y + x

/-- Router at which a request for a DPA enters its controller's edge block. -/
def edgeRouter (dpa : Nat) : Nat :=
  let k := bits dpa 13 10
  let at_ (x y : Nat) : Nat := 32 * y + x
  match mcOf dpa with
  | 0 => at_ 0 k
  | 1 => at_ k 0
  | 2 => at_ (31 - k) 0
  | 3 => at_ 31 k
  | 4 => at_ 31 (31 - k)
  | 5 => at_ (31 - k) 31
  | 6 => at_ k 31
  | _ => at_ 0 (31 - k)

/-- Side of the sheet at which a controller's edge block stands, as a router's port there (R22). -/
def edgeSide (mc : Nat) : Nat := match mc with
  | 1 => 1
  | 2 => 1
  | 3 => 2
  | 4 => 2
  | 5 => 3
  | 6 => 3
  | _ => 4

/-- Where a flit comes from or goes: a router, and the port there, 0 to a nib, a side to an edge block. -/
structure Stop where
  router : Nat
  port   : Nat
  deriving DecidableEq, Repr

def nibStop (nib : Nat) : Stop := ⟨routerOf nib, 0⟩
def edgeStop (dpa : Nat) : Stop := ⟨edgeRouter dpa, edgeSide (mcOf dpa)⟩

/-- Plane of a row by its deciding address bit: 0 A, 1 B. -/
def planeOf (s : State) (b : Nat) : Nat :=
  match getF s (regAt .canopy 0 0x40) 1 0 with
  | 1 => b % 2
  | 3 => 1
  | _ => 0

/-- A flit at its source's router. -/
def newFlit (id part : Nat) (x : Xfer) (plane : Nat) (src dst : Stop) : Flit :=
  ⟨id, x.nib, x.seq, x.row, part, plane, src.router, src.router, dst.router, src.port, dst.port, src.port⟩

/-- Eight flits of a row leave their source. -/
def sendFlits (x : Xfer) (plane : Nat) (src dst : Stop) (s : State) : State :=
  let id := s.canopy.nextId
  let fs := (List.range 8).map (fun k => newFlit (id + k) k x plane src dst)
  { s with canopy := { s.canopy with flits := s.canopy.flits ++ fs, nextId := id + 8 } }

def addXfer (x : Xfer) (s : State) : State := { s with canopy := { s.canopy with xfers := s.canopy.xfers ++ [x] } }

/-- A request goes out as one flit for all its rows: a row joins its request while that is on its way. -/
def sendRequest (x : Xfer) (plane : Nat) (src dst : Stop) (s : State) : State :=
  let joins : Bool := s.canopy.xfers.any (fun y => y.nib == x.nib && y.seq == x.seq && y.group == x.group && y.st == .req)
  let s := addXfer { x with st := .req } s
  if joins then s
  else
    let id := s.canopy.nextId
    { s with canopy := { s.canopy with flits := s.canopy.flits ++ [newFlit id 8 x plane src dst], nextId := id + 1 } }

def setXfer (x : Xfer) (s : State) : State :=
  { s with canopy := { s.canopy with xfers := s.canopy.xfers.map (fun y => if sameXfer x y then x else y) } }

/-! ## Withheld outputs (R208) -/

/-- Elements of a row with a nonzero bit other than the most significant one; `es` is the element size in bytes. -/
def activesIn (es : Nat) (r : Row) : Nat :=
  ((List.range (512 / es)).filter (fun k => bits r.toNat (8 * es * k + 8 * es - 2) (8 * es * k) != 0)).length

/-- Row data as it goes out: zeros, with the actives counted, where the row lies in its sampled strand's window. -/
def withhold (n : Nib) (d : Desc) (va : Nat) (data : Row) : Row × Nib :=
  match d.sample, n.pred with
  | some st, some p =>
    let lo := p.outVa + 512 * p.stride * st
    if lo ≤ va ∧ va < lo + 512 * p.rows then (0, { n with actives := n.actives + activesIn p.es data }) else (data, n)
  | _, _ => (data, n)

/-! ## Sending rows -/

/-- What sending one row answers: go on with the next, wait, or stop because something was raised. -/
inductive Sent where
  | more (s : State)
  | wait
  | stop (s : State)

def descFault (nib : Nat) (d : Desc) (s : State) : State := modNib nib (failDesc d.seq) s

/-- LIT_ACCESS: the row is refused, the nib, the PC and the frame row in the Blotter, and the context faults (R176, R188). -/
def litAccess (nib c : Nat) (d : Desc) (va r : Nat) (s : State) : State :=
  let step := match nibRecord s nib with
    | some x => x.step.toNat
    | none => 0
  litFault c r (some nib) step (noteLitter c r (some nib) (bits d.pc 13 0) ((va - aperture) / 512) (descFault nib d s))

/-- Row i of a KIND 0 descriptor. -/
def sendRead (nib c : Nat) (d : Desc) (i : Nat) (s : State) : Sent :=
  let va := (d.addr i).toNat
  match rowGo s nib c d i with
  | .walk _ => .wait
  | .page v r => .stop (dmaPageFault nib d.pc d.tag v r (descFault nib d s))
  | .refused r => .stop (litAccess nib c d va r s)
  | .window r =>
    match (getNib s nib).readRow r with
    | .ok data => .more (addXfer ⟨nib, d.seq, i, i, .local, .arrived, nib, va, data, 0, none⟩ (addPair (regAt .litter 0 0x54) 1 s))
    | .stale => .stop (readFailed nib 2 (.stale r) (descFault nib d s))
    | .detect => .stop (readFailed nib 2 (.detect r) (descFault nib d s))
  | .hbm a =>
    if tagFree s nib d i then
      let s := if aperture ≤ va then addPair (regAt .litter 0 0x5C) 1 s else s
      .more (sendRequest ⟨nib, d.seq, i, d.request i, .read, .req, a, va, 0, 0, none⟩ (planeOf s (a / 512)) (nibStop nib) (edgeStop a) s)
    else .wait

/-- Read a local source row for DMA. -/
def takeSource (nib : Nat) (d : Desc) (r : Nat) (ok : Row → State → Sent) (s : State) : Sent :=
  match (getNib s nib).readRow r with
  | .ok data => ok data (modNib nib countOut s)
  | .stale => .stop (readFailed nib 2 (.stale r) (descFault nib d s))
  | .detect => .stop (readFailed nib 2 (.detect r) (descFault nib d s))

/-- Row i of a KIND 1 descriptor. -/
def sendWrite (nib c : Nat) (d : Desc) (i : Nat) (s : State) : Sent :=
  let va := (d.addr i).toNat
  match rowGo s nib c d i with
  | .walk _ => .wait
  | .page v r => .stop (dmaPageFault nib d.pc d.tag v r (descFault nib d s))
  | .refused r => .stop (litAccess nib c d va r s)
  | .window _ => .wait
  | .hbm a =>
    if sourceWaits (getNib s nib) d (d.srcRow i) ∨ !tagFree s nib d i then .wait
    else takeSource nib d (d.srcRow i) (fun data s =>
      let (data, n) := withhold (getNib s nib) d va data
      let x : Xfer := ⟨nib, d.seq, i, d.request i, .write, .flying, a, va, data, 0, none⟩
      .more (sendFlits x (planeOf s (a / 512)) (nibStop nib) (edgeStop a) (addXfer x (setNib nib n s)))) s

/-- Row i of a KIND 2 descriptor. -/
def sendLocal (nib _c : Nat) (d : Desc) (i : Nat) (s : State) : Sent :=
  if sourceWaits (getNib s nib) d (d.srcRow i) then .wait
  else takeSource nib d (d.srcRow i) (fun data s =>
    .more (addXfer ⟨nib, d.seq, i, i, .local, .arrived, nib, 0, data, 0, none⟩ s)) s

/-- Row i of a KIND 3 descriptor to the nib `far`. -/
def sendPush (far : Nat) (nib _c : Nat) (d : Desc) (i : Nat) (s : State) : Sent :=
  if sourceWaits (getNib s nib) d (d.srcRow i) ∨ !tagFree s nib d i then .wait
  else takeSource nib d (d.srcRow i) (fun data s =>
    let x : Xfer := ⟨nib, d.seq, i, i, .push, .flying, far, d.xrow + i, data, 0, none⟩
    .more (sendFlits x (planeOf s (d.xrow + i)) (nibStop nib) (nibStop far) (addXfer x s))) s

/-- Row i of a KIND 4 descriptor from the nib `far`: only the request goes out, on the plane of the row it asks for (log 114). -/
def sendPull (far : Nat) (nib _c : Nat) (d : Desc) (i : Nat) (s : State) : Sent :=
  if tagFree s nib d i then
    .more (sendRequest ⟨nib, d.seq, i, i, .pull, .req, far, d.xrow + i, 0, 0, none⟩ (planeOf s (d.xrow + i)) (nibStop nib) (nibStop far) s)
  else .wait

/-- Send rows in order until one waits; the answer says that every row has been sent. -/
def sendRows (send : Nat → Nat → Desc → Nat → State → Sent) (nib c : Nat) (d : Desc) : Nat → State → Bool × State
  | 0, s => (false, s)
  | fuel + 1, s =>
    match (getNib s nib).desc? d.seq with
    | none => (false, s)
    | some e =>
      match nextRow s nib e with
      | none => (true, s)
      | some i =>
        match send nib c e i s with
        | .more s => sendRows send nib c d fuel s
        | .wait => (false, s)
        | .stop s => (false, s)

/-- One DESC command: the descriptor is of the kind, may start, and has rows left to send. -/
def descRow (kind : Nat) (send : Nat → Nat → Desc → Nat → State → Sent) (after : Nat → Desc → State → State) (nib : Fin 1024)
    (seq : Nat) (ups : List Upset) (s : State) : Host.Outcome State Fault Refusal :=
  let n := getNib s nib.val
  match nibRuns s nib.val, n.desc? seq, ctxOfNib s nib.val with
  | true, some d, some c =>
    if d.kind ≠ kind ∨ d.failed ∨ d.done ∨ !mayStart n d then .next s
    else
      let left := (nextRow s nib.val d).isSome
      let s := modNib nib.val (fun n => (n.upset ups).setDesc { d with started := true }) s
      match sendRows send nib.val c d (d.rows + 1) s with
      | (true, s) => .next (if left ∨ !d.started then after nib.val d s else s)
      | (false, s) => .next s
  | _, _, _ => .next s

/-- Prefetch hints (R124): after the last request, into the last row's page, on free tags, at most 16. -/
def sendHints (nib : Nat) (d : Desc) (s : State) : State :=
  let last := (d.addr (d.rows - 1)).toNat
  if d.rows = 0 ∨ aperture ≤ last then s
  else
    match ctxOfNib s nib with
    | none => s
    | some c =>
      match (getNib s nib).cached c last with
      | none => s
      | some (page, _) =>
        forEach (List.range (getF s (regAt .dma 0 0x40) 7 0)) (fun k s =>
          let i := d.rows + k
          let va := d.addr i
          let hints := hintsHeld s nib
          if va / 2 ^ 21 = (last / 2 ^ 21 : Nat) ∧ tagFree s nib d i ∧ (hints.length < 16 ∨ hints.contains (d.seq, d.request i)) then
            let a := page + va.toNat % 2 ^ 21
            sendRequest ⟨nib, d.seq, i, d.request i, .hint, .req, a, va.toNat, 0, 0, none⟩ (planeOf s (a / 512)) (nibStop nib) (edgeStop a) s
          else s) s

def execDescHbmRead (nib : Fin 1024) (desc : Nat) (s : State) : Host.Outcome State Fault Refusal :=
  descRow 0 sendRead sendHints nib desc [] s

def execDescHbmWrite (nib : Fin 1024) (desc : Nat) (ups : List Upset) (s : State) : Host.Outcome State Fault Refusal :=
  descRow 1 sendWrite (fun _ _ s => s) nib desc ups s

def execDescLocalCopy (nib : Fin 1024) (desc : Nat) (ups : List Upset) (s : State) : Host.Outcome State Fault Refusal :=
  descRow 2 sendLocal (fun _ _ s => s) nib desc ups s

/-- PLOT_BOUNDS (R34). -/
def plotBounds (nib : Nat) (d : Desc) (s : State) : State :=
  let s := countEvent .dma (regAt .dma 0 0x48) 15 0 (descFault nib d s)
  let x := nibNote s nib d.pc (16 * d.tag)
  let s := raise .dma 0 2 { x with arg1 := bits x.arg1 47 0 + 2 ^ 48 * d.xrank } s
  match ctxOfNib s nib with
  | some c => ctxFault c 0x0105 s
  | none => s

/-- A remote descriptor: its rank is checked before anything leaves. A transfer of no rows delivers its signal at once (R111). -/
def remoteRow (kind : Nat) (send : Nat → Nat → Nat → Desc → Nat → State → Sent) (nib : Fin 1024) (desc : Nat) (ups : List Upset)
    (s : State) : Host.Outcome State Fault Refusal :=
  let n := getNib s nib.val
  match nibRuns s nib.val, n.desc? desc, ctxOfNib s nib.val with
  | true, some d, some c =>
    match nibOfRank (getCtx s c).plot d.xrank with
    | some far => descRow kind (send far) (fun nib d s => deliverSignal nib d.seq s) nib desc ups s
    | none => if d.kind = kind ∧ !d.failed ∧ mayStart n d then .next (plotBounds nib.val d s) else .next s
  | _, _, _ => .next s

def execPush (nib : Fin 1024) (desc : Nat) (ups : List Upset) (s : State) : Host.Outcome State Fault Refusal :=
  remoteRow 3 sendPush nib desc ups s

def execPull (nib : Fin 1024) (desc : Nat) (s : State) : Host.Outcome State Fault Refusal := remoteRow 4 sendPull nib desc [] s

/-! ## Translation (R218, R123) -/

/-- PT_WALK: the miss of the descriptor's next row walks the tables. -/
def execPtWalk (nib : Fin 1024) (desc : Nat) (s : State) : Host.Outcome State Fault Refusal :=
  let n := getNib s nib.val
  match nibRuns s nib.val, n.desc? desc, ctxOfNib s nib.val with
  | true, some d, some c =>
    match (if d.started ∧ !d.failed ∧ d.kind ≤ 1 then nextRow s nib.val d else none) with
    | none => .next s
    | some i =>
      match rowGo s nib.val c d i with
      | .walk va =>
        match walk c va s with
        | (.bad r, s) => .next (dmaPageFault nib.val d.pc d.tag va r (descFault nib.val d s))
        | (.ok a w _, s) =>
          if d.kind = 1 ∧ !w then .next (dmaPageFault nib.val d.pc d.tag va 2 (descFault nib.val d s))
          else .next (cacheTranslation nib.val c va a w s)
      | _ => .next s
  | _, _, _ => .next s

/-! ## Landing and completion (R114 to R117) -/

/-- Rows are still moving for a nib: its layer runs, or its plot drains before a save. -/
def nibMoves (s : State) (nib : Nat) : Bool :=
  (getGrove s (nib / 16)).pw == .awake &&
  match ctxOfNib s nib with
  | some c => (getCtx s c).phase == .running || (getCtx s c).phase == .saving
  | none => false

/-- Take the transfers of a landed block out; a row that waits for its block keeps its request tag (R119). -/
def dropLanded (nib : Nat) (d : Desc) (row : Nat) (s : State) : State :=
  match (getNib s nib).desc? d.seq with
  | some e =>
    if e.landed.contains row then
      forEach (d.block row) (fun k s => match findXfer s nib d.seq k with
        | some x => dropXfer x s
        | none => s) s
    else s
  | none => s

/-- DMA_ROW_LAND: a row that has come to the engine is written, unless an earlier instruction still reads its place; a row of a transpose
block is held until its block is there. -/
def execDmaRowLand (nib : Fin 1024) (desc row : Nat) (s : State) : Host.Outcome State Fault Refusal :=
  let n := getNib s nib.val
  match nibMoves s nib.val, n.desc? desc with
  | true, some d =>
    if !n.mayLand d row then .next s
    else
      match findXfer s nib.val desc row with
      | some x =>
        if x.st = .arrived ∧ x.kind ≠ .push then
          .next (dropLanded nib.val d row (modNib nib.val (fun n => landBlock desc row (holdRow desc row x.data n)) s))
        else .next s
      | none => .next (modNib nib.val (landBlock desc row) s)
  | _, _ => .next s

/-- Done advances past the completed descriptors at the front of a tag (R115). -/
def advanceTag (t : Nat) : Nat → Nib → Nib
  | 0, n => n
  | fuel + 1, n =>
    match n.descs.find? (fun d => d.tag == t) with
    | none => n
    | some d =>
      if d.done then
        advanceTag t fuel { n with
          descs := n.descs.filter (fun e => e.seq != d.seq),
          tags := tabSet (0, 0) n.tags t ((tagOf n t).1, d.ord) }
      else n

/-- Every row has landed or been accepted, and the signal delivered. -/
def descReady (d : Desc) : Bool :=
  d.started && !d.failed && !d.done && (List.range d.rows).all (fun i => d.landed.contains i) && (!d.signal || d.signaled)

/-- DESCRIPTOR_COMPLETE. -/
def execDescriptorComplete (nib : Fin 1024) (desc : Nat) (s : State) : Host.Outcome State Fault Refusal :=
  let n := getNib s nib.val
  match nibMoves s nib.val, n.desc? desc with
  | true, some d =>
    if descReady d then .next (modNib nib.val (fun n => advanceTag d.tag n.descs.length (n.setDesc { d with done := true })) s) else .next s
  | _, _ => .next s

/-! ## Remote rows (R120, R121) -/

/-- REMOTE_PUSH_ARRIVE: every flit of a pushed row has arrived; the row is written and acknowledged, and the signal follows the last. -/
def execRemotePushArrive (nib : Fin 1024) (desc row : Nat) (s : State) : Host.Outcome State Fault Refusal :=
  match nibMoves s nib.val, findXfer s nib.val desc row with
  | true, some x =>
    if x.kind = .push ∧ x.st = .arrived then .next (deliverSignal nib.val desc (writeRemote x (dropXfer x s))) else .next s
  | _, _ => .next s

/-- PULL_SERVE: the remote nib reads the row and sends it; the signal follows the last row read. -/
def execPullServe (nib : Fin 1024) (desc row : Nat) (ups : List Upset) (s : State) : Host.Outcome State Fault Refusal :=
  match nibMoves s nib.val, findXfer s nib.val desc row with
  | true, some x =>
    if x.kind ≠ .pull ∨ x.st ≠ .travel then .next s
    else
      let s := modNib x.place (fun n => n.upset ups) s
      let failed (r : RowsRead) : State := readFailed x.place 3 r (modNib nib.val (failDesc desc) (dropXfer x s))
      match (getNib s x.place).readRow x.addr with
      | .stale => .next (failed (.stale x.addr))
      | .detect => .next (failed (.detect x.addr))
      | .ok data =>
        let y : Xfer := { x with st := .flying, data := data }
        let dest := match (getNib s nib.val).desc? desc with
          | some d => d.lrow + row
          | none => 0
        let s := setXfer y (countRemote nib.val (modNib x.place countOut s))
        .next (deliverSignal nib.val desc (sendFlits y (planeOf s dest) (nibStop x.place) (nibStop nib.val) s))
  | _, _ => .next s

/-! ## Watchdog (R125, R130) -/

/-- What a descriptor waits on, in the code of DMA_NIB_STATUS 15:13. -/
def descWait (s : State) (nib : Nat) (d : Desc) : Nat :=
  let n := getNib s nib
  if d.fence && n.descs.any (fun e => decide (e.seq < d.seq) && !e.done) then 3
  else if s.canopy.xfers.any (fun x => x.nib == nib && x.seq == d.seq && x.st == .arrived && x.kind != .push && !n.mayLand d x.row) ||
      d.held.any (fun p => !n.mayLand d p.1) then 2
  else
    let next := if d.started ∧ !d.failed then nextRow s nib d else none
    let waits : Nat := match next, ctxOfNib s nib with
      | some i, some c =>
        if d.kind ≤ 1 ∧ (rowGo s nib c d i).walks then 4
        else if (d.kind = 1 ∨ d.kind = 2 ∨ d.kind = 3) ∧ sourceWaits n d (d.srcRow i) then 2
        else if d.kind ≠ 2 ∧ !tagFree s nib d i then 1
        else 0
      | _, _ => 0
    if waits ≠ 0 then waits
    else if 3 ≤ d.kind && s.canopy.xfers.any (fun x => x.nib == nib && x.seq == d.seq) then 5
    else 0

/-- DMA_STALL: once for each descriptor. -/
def execDmaStall (nib : Fin 1024) (desc : Nat) (s : State) : Host.Outcome State Fault Refusal :=
  let n := getNib s nib.val
  match nibRuns s nib.val, n.desc? desc with
  | true, some d =>
    if getF s (regAt .dma 0 0x40) 19 8 = 0 ∨ d.stalled ∨ d.done then .next s
    else
      let w := descWait s nib.val d
      let s := modNib nib.val (fun n => { n.setDesc { d with stalled := true } with count := { n.count with dTag := d.tag } }) s
      .next (raise .dma 0 3 (nibNote s nib.val d.pc (w + 16 * d.tag)) (countEvent .dma (regAt .dma 0 0x48) 31 16 s))
  | _, _ => .next s

end Sys2Proof.Machine
end

