-- ==== Sys2Proof/Machine/CanopyNet.lean ====
section
/-! DEFINITION. The Canopy: flits hop from router to router, and seam wires are replaced (R23 to R31, R36, R37). -/

namespace Sys2Proof.Machine

/-! ## Routing (R18, R24, R30) -/

/-- The router after `at_` on the way to `dst`: plane A goes X then Y, plane B Y then X. -/
def nextRouter (plane at_ dst : Nat) : Nat :=
  let x := at_ % 32
  let y := at_ / 32
  let dx := dst % 32
  let dy := dst / 32
  let x' := if x < dx then x + 1 else if dx < x then x - 1 else x
  let y' := if y < dy then y + 1 else if dy < y then y - 1 else y
  if plane = 0 then (if x ≠ dx then 32 * y + x' else 32 * y' + x) else (if y ≠ dy then 32 * y' + x else 32 * y + x')

/-- The seam link-direction that a hop crosses, in the layout of SEAM_SEL. -/
def seamOf (plane a b : Nat) : Option Nat :=
  let ax := a % 32
  let bx := b % 32
  let ay := a / 32
  let by' := b / 32
  if ax = 15 ∧ bx = 16 then some (2 * ay + 64 * plane)
  else if ax = 16 ∧ bx = 15 then some (2 * ay + 64 * plane + 128)
  else if ay = 15 ∧ by' = 16 then some (1 + 2 * ax + 64 * plane)
  else if ay = 16 ∧ by' = 15 then some (1 + 2 * ax + 64 * plane + 128)
  else none

/-- The same position and direction on the other plane. -/
def otherPlane (link : Nat) : Nat := link ^^^ 64

def getSeam (s : State) (l : Nat) : SeamDir := tabGet SeamDir.zero s.canopy.seams l
def modSeam (l : Nat) (f : SeamDir → SeamDir) (s : State) : State :=
  { s with canopy := { s.canopy with seams := tabSet SeamDir.zero s.canopy.seams l (f (getSeam s l)) } }

/-- The seam link-direction that a flit really uses: a failed one is detoured on the other plane. -/
def usedSeam (s : State) (l : Nat) : Nat := if (getSeam s l).failed then otherPlane l else l

/-- A link-direction lets no flit through: it drains, or it and its detour have failed. -/
def seamShut (s : State) (l : Nat) : Bool := (getSeam s (usedSeam s l)).drain.isSome || (getSeam s (usedSeam s l)).failed

/-- Output port of a router on the way to another: 1 north, 2 east, 3 south, 4 west. -/
def outPort (plane at_ dst : Nat) : Nat :=
  let b := nextRouter plane at_ dst
  if b + 32 = at_ then 1 else if b = at_ + 1 then 2 else if b = at_ + 32 then 3 else if b + 1 = at_ then 4 else 0

/-- The input port at which a flit that leaves by an output port comes to the next router. -/
def facingPort (out : Nat) : Nat := (out + 1) % 4 + 1

/-- The output port that a flit wants: at its destination, the one to its nib or edge block. -/
def outOf (f : Flit) : Nat := if f.at_ = f.dst then f.dport else outPort f.plane f.at_ f.dst

/-- The seam link-direction that a flit is to cross on its own plane. -/
def seamAhead (f : Flit) : Option Nat := if f.at_ = f.dst then none else seamOf f.plane f.at_ (nextRouter f.plane f.at_ f.dst)

/-- A flit is to take the detour of a failed seam link-direction (R30). -/
def detoured (s : State) (f : Flit) : Bool := (seamAhead f).any (fun l => (getSeam s l).failed)

/-- The plane whose router serves a flit next: the other one at a detour. -/
def linkPlane (s : State) (f : Flit) : Nat := if detoured s f then 1 - f.plane else f.plane

/-- The input port at which that router takes it: 5 for the flits of the other plane at a detour. -/
def inPort (s : State) (f : Flit) : Nat := if detoured s f then 5 else f.port

/-- The link that a flit crosses next, for the Blotter: a seam's in the layout of SEAM_SEL, another from 2^16 on (log 42). -/
def linkCode (s : State) (f : Flit) : Nat :=
  match seamAhead f with
  | some l => usedSeam s l
  | none => 2 ^ 16 + 8 * (1024 * f.plane + f.at_) + outOf f

/-- An earlier flit of the same source, destination and plane stands at the same router (R26); a nib and an edge block, or the two edge
blocks of a corner, are sources of their own though they share a router, and so are they as destinations. -/
def flitBehind (s : State) (f : Flit) : Bool :=
  s.canopy.flits.any (fun g => decide (g.id < f.id) && g.src == f.src && g.sport == f.sport && g.dst == f.dst && g.dport == f.dport &&
    g.plane == f.plane && g.at_ == f.at_)

/-- Key of the output port that serves a flit next, among the records of round-robin service. -/
def robinKey (s : State) (f : Flit) : Nat := 8 * (1024 * linkPlane s f + f.at_) + outOf f

/-- The input ports whose flits wait for the output port that a flit wants. -/
def portsWaiting (s : State) (f : Flit) : List Nat :=
  (s.canopy.flits.filter (fun g => robinKey s g == robinKey s f && !flitBehind s g)).map (inPort s)

/-- A flit's input port is the next one that its output port serves: the first with a flit after the port served last (R24). The order of the
ports, and that the first round of an output port begins just after port 0, are the model's (DESIGN CHOICE, log 59). -/
def portServed (s : State) (f : Flit) : Bool :=
  let last := tabGet 0 s.canopy.robin (robinKey s f)
  let ports := portsWaiting s f
  (List.range 6).find? (fun k => ports.contains ((last + 1 + k) % 6)) == some ((inPort s f + 11 - last) % 6)

/-- An output port has served a flit's input port. -/
def servePort (f : Flit) (s : State) : State :=
  { s with canopy := { s.canopy with robin := tabSet 0 s.canopy.robin (robinKey s f) (inPort s f) } }

/-- A flit stands at the next router. -/
def moveFlit (f : Flit) (b : Nat) (s : State) : State :=
  let p := facingPort (outOf f)
  { s with canopy := { s.canopy with flits := s.canopy.flits.map (fun g => if g.id = f.id then { g with at_ := b, port := p } else g) } }

/-! ## Arrival (R26, R31) -/

/-- All flits of a row have arrived. -/
def rowArrived (x : Xfer) : Xfer := match x.kind with
  | .write => { x with st := .travel }
  | _ => { x with st := .arrived }

def dropFlit (f : Flit) (s : State) : State :=
  { s with canopy := { s.canopy with flits := s.canopy.flits.filter (fun g => g.id != f.id) } }

/-- The transfers that a request's flit stands for. -/
def ofRequest (s : State) (f : Flit) (x : Xfer) : Bool :=
  x.nib == f.nib && x.seq == f.seq && x.st == .req && (match findXfer s f.nib f.seq f.row with
    | some y => y.group == x.group
    | none => false)

/-- A flit leaves the Canopy at its destination: a request has come to its controller or nib, or one more part of a row is there. -/
def deliverFlit (f : Flit) (s : State) : State :=
  let s := dropFlit f s
  match findXfer s f.nib f.seq f.row with
  | none => s
  | some x =>
    if f.part = 8 then
      { s with canopy := { s.canopy with
        xfers := s.canopy.xfers.map (fun y => if ofRequest s f y then { y with st := .travel } else y) } }
    else
    let x := { x with parts := x.parts + 1 }
    setXfer (if x.parts = 8 then rowArrived x else x) s

/-- A transfer fails on the Canopy: it never completes, and its layer is replayed. The Blotter entry names the link-direction in ARG0 and
the nib (log 42). -/
def failFlit (f : Flit) (s : State) : State :=
  let s := countEvent .canopy (regAt .canopy 0 0x50) 31 0 s
  let s := raise .canopy 0 0 ⟨ctxOfNib s f.nib, some f.nib, linkCode s f, 0⟩ s
  let s := modNib f.nib (failDesc f.seq) s
  let s := { s with canopy := { s.canopy with
      flits := s.canopy.flits.filter (fun g => !(g.nib == f.nib && g.seq == f.seq && g.row == f.row)),
      xfers := s.canopy.xfers.filter (fun x => !(x.nib == f.nib && x.seq == f.seq && x.row == f.row) && !(f.part == 8 && ofRequest s f x)) } }
  match ctxOfNib s f.nib with
  | some c => replayFor c 2 s
  | none => s

/-! ## Seam sparing (R28 to R30) -/

/-- The next free spare wire, 0 to 7. -/
def freeSpare (d : SeamDir) : Option Nat := (List.range 8).find? (fun k => !bit d.spares k)

/-- Spare wires in use (R36). -/
def spareWires (d : SeamDir) : Nat := ((List.range 8).filter (bit d.spares)).length

def seamThresh (s : State) : Nat := getF s (regAt .canopy 0 0x40) 15 8

/-- A flit crosses a link-direction: it is counted, and so is its failure. -/
def crossSeam (l : Nat) (crcOk : Bool) (s : State) : State :=
  modSeam l (fun d =>
    let n := d.flits + 1
    let old := d.recent.filter (fun k => decide (n < k + 2 ^ 20))
    { d with
        flits := n, crcs := if crcOk then d.crcs else satAdd 24 d.crcs 1, recent := if crcOk then old else old ++ [n] }) s

/-- A link-direction reaches the threshold: a drain starts for the wire that the margin monitor names, or, with its spares used up, the
link-direction fails. The failures counted so far count toward no later threshold (DESIGN CHOICE, log 60). SEAM_LINK_FAILED and SEAM_FAILED
have the link-direction in ARG0 and 0 in ARG1 (DESIGN CHOICE, log 42). -/
def seamTrip (l wire : Nat) (s : State) : State :=
  let d := getSeam s l
  if (freeSpare d).isSome then modSeam l (fun d => { d with drain := some wire, recent := [] }) s
  else
    let s := modSeam l (fun d => { d with failed := true, recent := [] }) s
    let s := raise .canopy 0 2 (.args l 0) (mapAdd (mapEntry 6 l) s)
    if (getSeam s (otherPlane l)).failed then stopDevice 0x20 (raise .canopy 0 3 (.args l 0) s) else s

/-- The threshold has been reached on a working link-direction that does not drain already. -/
def seamDue (s : State) (l : Nat) : Bool :=
  let d := getSeam s l
  seamThresh s != 0 && decide (seamThresh s ≤ d.recent.length) && d.drain.isNone && !d.failed

/-- FLIT_ARRIVE: a flit reaches the next router, which checks its CRC (R31), or at its last router leaves for its nib or edge block. -/
def execFlitArrive (flit : Nat) (crcOk : Bool) (wire : Fin 568) (s : State) : Host.Outcome State Fault Refusal :=
  match s.canopy.flits.find? (fun f => f.id == flit) with
  | none => .next s
  | some f =>
    let b := nextRouter f.plane f.at_ f.dst
    if flitBehind s f ∨ !portServed s f then .next s
    else if f.at_ = f.dst then .next (deliverFlit f (servePort f s))
    else
      match seamAhead f with
      | none => .next (if crcOk then moveFlit f b (servePort f s) else failFlit f (servePort f s))
      | some l0 =>
        if seamShut s l0 then .next s
        else
          let l := usedSeam s l0
          let s := crossSeam l crcOk (servePort f s)
          let s := if crcOk then moveFlit f b s else failFlit f s
          .next (if seamDue s l then seamTrip l wire.val s else s)

/-- SEAM_ERROR_THRESHOLD. -/
def execSeamErrorThreshold (link : BitVec 8) (wire : Fin 568) (s : State) : Host.Outcome State Fault Refusal :=
  if seamDue s link.toNat then .next (seamTrip link.toNat wire.val s) else .next s

/-- SEAM_SWITCH: the drained wire is replaced by the next free spare, and the Seedbank records it. -/
def execSeamSwitch (link : BitVec 8) (s : State) : Host.Outcome State Fault Refusal :=
  let l := link.toNat
  let d := getSeam s l
  match d.drain, freeSpare d with
  | some wire, some k =>
    let s := modSeam l (fun d => { d with drain := none, spares := d.spares + 2 ^ k }) s
    .next (raise .canopy 0 1 (.args l wire) (mapAdd (mapEntry 5 (l + 2 ^ 8 * wire + 2 ^ 18 * k)) s))
  | _, _ => .next s

end Sys2Proof.Machine
end

