-- ==== Sys2Proof/Machine/MemCtl.lean ====
section
/-! DEFINITION. The memory controllers: requests, reads, patrol, refresh, repair, failure (R220 to R234). -/

namespace Sys2Proof.Machine

/-! ## Requests (R220, R224) -/

/-- A request comes to its controller: BANK_BUSY, a tag, or, for a write, its acceptance. Requests that hold tags stand in the order of
their acceptance. A hint takes its tag though another request still travels: the lowest priority (R220) tells apart what comes to the controller
at once (DESIGN CHOICE, log 177). -/
def requestMc (x : Xfer) (s : State) : State :=
  let mc := mcOf x.place
  if x.kind = .hint ∧ hintRefused s x.place then dropXfer x s
  else if bankFull s x.place then answerBusy x.place (setXfer { x with st := .busy } s)
  else
    match freeTag s mc with
    | none => s
    | some n => if x.kind = .write then acceptWrite x (dropXfer x s) else addXfer { x with st := .tag n } (dropXfer x s)

/-- The oldest request of a descriptor that stands as asked. -/
def oldestRequest (s : State) (nib seq : Nat) (st : XSt) : Option Xfer :=
  s.canopy.xfers.find? (fun x => x.nib == nib && x.seq == seq && x.st == st && (x.kind == .read || x.kind == .write || x.kind == .hint))

/-- MC_REQUEST. -/
def execMcRequest (nib : Fin 1024) (desc : Nat) (s : State) : Host.Outcome State Fault Refusal :=
  match oldestRequest s nib.val desc .travel with
  | some x => .next (requestMc x s)
  | none => .next s

/-- BANK_BUSY_RETRY: the engine sends a refused request again. -/
def execBankBusyRetry (nib : Fin 1024) (desc : Nat) (s : State) : Host.Outcome State Fault Refusal :=
  match oldestRequest s nib.val desc .busy with
  | some x => .next (requestMc x s)
  | none => .next s

/-! ## Reads (R221 to R223, R226 to R229) -/

/-- A new error of a codeword beside those it has: poison and an uncorrectable error stay until a write (R228, R229), and a second bit makes
a correctable one uncorrectable. -/
def addErr (t : Tab CwErr) (k : Nat) (e : CwErr) : Tab CwErr := match tabFind? t k, e with
  | some .poison, _ | some .double, .single | some .double, .double => t
  | some .single, .single => tabInsert t k .double
  | _, _ => tabInsert t k e

/-- Errors that have come about in a controller's stack and lines. -/
def addErrs (mc : Nat) (errs : List CwHit) (s : State) : State :=
  forEach (errs.filter (fun e => mcOf (16 * e.cw.toNat) == mc)) (fun e s =>
    let row := e.cw.toNat / 32 * 512
    if e.line then
      putLines row ((setLines s row).map (fun l =>
        if l.row = row / 512 then { l with errs := addErr l.errs (e.cw.toNat % 32) e.kind } else l)) s
    else { s with hbm := { s.hbm with bad := addErr s.hbm.bad e.cw.toNat e.kind } }) s

/-- The read of a transfer that holds a tag may be served: it has been, or its line is there, or it is next in a bank that no repair
holds. -/
def readDue (aged : Bool) (s : State) (x : Xfer) : Bool :=
  x.early.isSome || ((inCache s x.place || servedNext aged s x) && !bankHeld s (mcOf x.place) (bankAt x.place))

/-- What leaves the controller for one requester: the row, or a failure. -/
def deliverRead (x : Xfer) (answer : Option Row) (s : State) : State :=
  match x.kind, answer with
  | .hint, _ => dropXfer x s
  | _, none =>
    let s := modNib x.nib (failDesc x.seq) (dropXfer x s)
    match ctxOfNib s x.nib with
    | some c => replayRow c x.place s
    | none => s
  | _, some b =>
    let s := match ctxOfNib s x.nib with
      | some c => moveBytes c 0xA0 512 s
      | none => s
    let y : Xfer := { x with st := .flying, data := b, early := none }
    -- the reply's plane follows the destination row, as R25 gives a row addressed to an Inkwell (log 114)
    let dest := match (getNib s x.nib).desc? x.seq with
      | some d => d.lrow + x.row
      | none => 0
    sendFlits y (planeOf s dest) (edgeStop x.place) (nibStop x.nib) (setXfer y s)

/-- Transfers whose row has been read and is still to be sent. -/
def servedReads (s : State) (row : Nat) : List Xfer :=
  s.canopy.xfers.filter (fun x => x.place / 512 == row / 512 && x.early.isSome)

/-- The read that a tag stands for: one whose row has left the controller already, else the one that holds it. -/
def readOfTag (s : State) (mc tag : Nat) : Option Xfer :=
  match s.canopy.xfers.find? (fun x => x.st == .left tag && mcOf x.place == mc) with
  | some x => some x
  | none => s.canopy.xfers.find? (fun x => x.st == .tag tag && mcOf x.place == mc)

/-- MC_READ: the read that holds a tag completes, and with it every other that waits for its row (R222). -/
def execMcRead (mc : Fin 8) (tag : Fin 4096) (aged : Bool) (errs : List CwHit) (s : State) : Host.Outcome State Fault Refusal :=
  let s := addErrs mc.val errs s
  match readOfTag s mc.val tag.val with
  | none => .next s
  | some x =>
    if !readDue aged s x then .next s
    else
      let s := if x.early.isSome then s else serveReads x.place s
      .next (forEach (servedReads s x.place) (fun y s => match findXfer s y.nib y.seq y.row, y.early with
        | some _, some answer => deliverRead y answer s
        | _, _ => s) s)

/-! ## Patrol and refresh (R221, R230, R231) -/

/-- Rows of a controller (R230). -/
def mcRows : Nat := 156237824

/-- A controller works: its stack is trained and the map applied. -/
def mcLive (s : State) (mc : Nat) : Bool := s.boot.mapReady && (getMc s mc).trained

/-- A request waits at a controller (R230): one that has come to it, or a read that holds a tag and has not been served. -/
def mcWaiting (s : State) (mc : Nat) : Bool :=
  s.canopy.xfers.any (fun x => mcOf x.place == mc && (waitsFor x.place x ||
    x.st == .travel && (x.kind == .read || x.kind == .write || x.kind == .hint)))

/-- PATROL_READ yields to every request; else the next row is read, corrected, and poisoned where it cannot be corrected; a DRAM row found clean
forgets its count. -/
def execPatrolRead (mc : Fin 8) (errs : List CwHit) (s : State) : Host.Outcome State Fault Refusal :=
  let mc := mc.val
  if !mcLive s mc ∨ getF s (regAt .memctl mc 0x44) 11 0 = 0 ∨ mcWaiting s mc then .next s
  else
    let p := (getMc s mc).patrol
    let dpa := dpaOf mc (512 * p)
    let s := addErrs mc errs s
    let clean : Bool := (stackErrs s dpa).isEmpty
    let s := awaitRepair dpa s
    let bad := stackBad s dpa
    let s := checkRow dpa true (openPage dpa s)
    let s := if bad = [] then s else poisonRow dpa s
    .next (modMc mc (fun m =>
      let all := clean && !(p % 2 == 1 && m.passBad)
      { m with
          patrol := (p + 1) % mcRows, passBad := !clean,
          ceRow := if p % 2 = 1 ∧ all then tabErase m.ceRow (p / 2) else m.ceRow }) s)

/-- REFRESH: a bank's refresh; its open page closes (PRESUMED, log 115), and the stack's temperature decides the rate. -/
def execRefresh (mc : Fin 8) (bank : Fin 1024) (stackC : Nat) (s : State) : Host.Outcome State Fault Refusal :=
  if mcLive s mc.val then
    .next (setStackTemp mc.val stackC
      (modMc mc.val (fun m => { m with pages := tabErase m.pages (64 * (bank.val % 16) + bank.val / 16) }) s))
  else .next s

/-! ## Repair and failure (R231, R234) -/

/-- Field bits of a KIND 9 or 10 entry for a DRAM row. -/
def dramField (mc key : Nat) : Nat := mc + 2 ^ 3 * (key % 64) + 2 ^ 9 * (key / 64 % 16) + 2 ^ 13 * (key / 1024)

/-- A bank's soft repair resource is in use: a row of it has been repaired softly, be it remapped since (one for each bank, and a repair that
failed leaves it free; log 116). -/
def softUsed (m : Mc) (bank : Nat) : Bool := tabGet false m.softBanks bank

/-- A free slot of a controller's remap pool: the lowest that no entry of the map uses (R231; DESIGN CHOICE, log 158). -/
def freeRemap (s : State) (mc : Nat) : Option Nat :=
  let used := (entriesOf s 10).filterMap (fun f => if bits f 2 0 = mc then some (bits f 41 30) else none)
  (List.range 4096).find? (fun k => !used.contains k)

/-- PPR_DONE: the first repair of the controller ends, as a soft repair, as a remap, or with the pool full. A row that was repaired or remapped
before is repaired like any other, and a remap takes a further slot and map entry (DESIGN CHOICE, log 176). -/
def execPprDone (mc : Fin 8) (held : Bool) (s : State) : Host.Outcome State Fault Refusal :=
  let mc := mc.val
  let m := getMc s mc
  match m.repairs with
  | [] => .next s
  | r :: rest =>
    let note : Note := .args (if r.ue then 2 else 1) (dpaOf mc (1024 * r.key))
    let s := modMc mc (fun m => { m with repairs := rest, ceRow := tabErase m.ceRow r.key }) s
    if held ∧ !softUsed m (bankOf r.key) then
      let s := modMc mc (fun m => { m with
        soft := m.soft + 1, repaired := tabSet 0 m.repaired r.key 1, softBanks := tabSet false m.softBanks (bankOf r.key) true }) (copyDram mc r.key s)
      .next (raise .memctl mc 2 note (mapAdd (mapEntry 9 (dramField mc r.key)) s))
    else
      match freeRemap s mc with
      | some k =>
        let s := modMc mc (fun m => { m with slots := m.slots + 1, repaired := tabSet 0 m.repaired r.key 2 }) (copyDram mc r.key s)
        .next (raise .memctl mc 2 note (mapAdd (mapEntry 10 (dramField mc r.key + 2 ^ 30 * k)) s))
      | none => .next (raise .memctl mc 3 note s)

/-- STACK_FAIL. -/
def execStackFail (mc : Fin 8) (s : State) : Host.Outcome State Fault Refusal :=
  if mcLive s mc.val then
    .next (stopDevice 0x21 (raise .memctl mc.val 5 (.args 0 0) (modMc mc.val (fun m => { m with trained := false }) s)))
  else .next s

end Sys2Proof.Machine
end

