-- ==== Sys2Proof/Machine/UpdateLayer.lean ====
section
/-! DEFINITION. An update layer on the Scribes (R238, R243, R257 to R261): its phases in order, its groups, its completion, and their
commands. -/

namespace Sys2Proof.Machine

/-! ## Skip (R244) -/

/-- An update layer skips its step and completes with STEP_SKIPPED. -/
def skipLayer (c step : Nat) (b : List Byte) (s : State) : State :=
  match skipStep c step b s with
  | (some e, s) => updError c 0xFFFF e s
  | (none, s) => completeLayer c 2 s

/-! ## Phase 4: tensors (R239, R252, R258) -/

/-- Put a tensor into a context's update work. -/
def setTensor (c i : Nat) (t : UpdTensor) (s : State) : State :=
  modCtx c (fun x => { x with upd := x.upd.map (fun w => { w with tensors := w.tensors.set i t }) }) s

/-- Write a finished tensor's status and report it. -/
def finishTensor (c i step : Nat) (t : UpdTensor) (list : Nat) (s : State) : Option VErr × State :=
  match scrWrite c (list + 128 * i + 0x60) (t.status step) s with
  | (some e, s) => (some e, s)
  | (none, s) =>
    let s := if t.reported then s else reportTensor c i step t s
    (none, setTensor c i { t with finished := true, reported := true } s)

/-- Finish every tensor whose groups are all done. -/
def finishTensors (c step list : Nat) : List (UpdTensor × Nat) → State → Option VErr × State
  | [], s => (none, s)
  | (t, i) :: rest, s =>
    if t.finished || t.done.length != t.work then finishTensors c step list rest s
    else match finishTensor c i step t list s with
      | (some e, s) => (some e, s)
      | (none, s) => finishTensors c step list rest s

/-- Phase 4 goes on: statuses of finished tensors; when all are finished, the commit is due, or the context faults with
UPD_DATA_LOSS (R258). -/
def settleApply (c : Nat) (s : State) : State :=
  match (getCtx s c).upd, (getCtx s c).record with
  | some w, some r =>
    match finishTensors c r.step.toNat r.updList w.tensors.zipIdx s with
    | (some e, s) => updError c 0xFFFF e s
    | (none, s) =>
      match (getCtx s c).upd with
      | none => s
      | some w =>
        if w.tensors.all (fun t => t.finished) then
          if w.tensors.any (fun t => t.lostSum != 0) then ctxFault c 0x0304 s
          else modCtx c (fun x => { x with upd := some { w with phase := 5 } }) s
        else s
  | _, _ => s

/-! ## Phase 3: norms (R246) -/

/-- Phase 3 ends when no norm is due: a non-finite norm votes bit 3 and skips, else phase 4 begins (R243, R246). -/
def settleNorms (c : Nat) (s : State) : State :=
  match (getCtx s c).upd, (getCtx s c).record with
  | some w, some r =>
    if w.phase ≠ 3 ∨ w.tensors.any (fun t => t.normDue) then s
    else
      let step := r.step.toNat
      if w.tensors.any (fun t => t.withNorm.isNone) then
        skipLayer c step (Ucb.setVote w.ucb step (Ucb.voteOf w.ucb step ||| 8)) s
      else
        let ts := w.tensors.filterMap (fun t => t.withNorm)
        settleApply c (modCtx c (fun x => { x with upd := some { w with phase := 4, tensors := ts } }) s)
  | _, _ => s

/-! ## The group in progress (R259, R262) -/

/-- The first group of a tensor that Scribe `m` still has to do in a phase. -/
def tensorWork (s : State) (c m phase : Nat) (t : UpdTensor) : Option Nat :=
  (List.range t.work).findSome? (fun e =>
    if (if phase = 3 then !t.normDue || t.normed.contains e else t.done.any (fun g => g.idx == e)) then none
    else match (listedGroup c t.d e s).1 with
      | .error _ => none
      | .ok j => match (groupOwner c t.d j s).1 with
        | .error _ => none
        | .ok k => if k = m then some j else none)

/-- What Scribe `m` is at in a context's update layer: phase, descriptor, group. A Scribe takes its groups in order of descriptor and group
(DEDUCED, log 139). -/
def updWork (s : State) (c m : Nat) : Option (Nat × Nat × Nat) :=
  let x := getCtx s c
  match x.upd with
  | none => none
  | some w =>
    if x.st = .running ∧ x.phase = .running ∧ (w.phase = 3 ∨ w.phase = 4) then
      w.tensors.zipIdx.findSome? (fun p => (tensorWork s c m w.phase p.1).map (fun j => (w.phase, p.2, j)))
    else none

/-- What Scribe `m` is at for the circle: the first group of a bucket in REDUCING that this member owns (R293, R297), in phase 3 for its norm
or in phase 4. -/
def circleWork (s : State) (m : Nat) : Option (Nat × Nat × Nat) :=
  match s.lig.circle, s.lig.open_ with
  | some ci, some w =>
    (w.buckets.filter (fun b => b.st == .reducing)).findSome? (fun b =>
      let (lo, hi) := ownedBy ci.n b.groups ci.rank
      (List.range (hi - lo)).findSome? (fun k =>
        let (i, j) := groupPlace w (b.first + lo + k)
        match stepTensor w i with
        | none => none
        | some t => match (groupOwner w.ctx t.d j s).1 with
          | .error _ => none
          | .ok o => if o = m then some (if t.d.clips then 3 else 4, i, j) else none))
  | _, _ => none

/-- What a Scribe is at: context, phase, descriptor, group. Of several contexts the lowest is shown (DESIGN CHOICE, log 139). -/
def scribeAt (s : State) (m : Nat) : Option (Nat × Nat × Nat × Nat) :=
  match (ctxIds s).findSome? (fun c => (updWork s c m).map (fun x => (c, x))) with
  | some x => some x
  | none => match s.lig.open_ with
    | some w => (circleWork s m).map (fun x => (w.ctx, x))
    | none => none

/-- The first context whose update layer is in phase 5: its commit is due. -/
def committing (s : State) : Option Nat := (ctxIds s).find? (fun c =>
  (getCtx s c).st == .running && (getCtx s c).phase == .running && (match (getCtx s c).upd with
    | some w => w.phase == 5
    | none => false))

/-- What a Scribe's status shows: the group it is at, else phase 5, in which no group is left (log 139). -/
def scribeShown (s : State) (m : Nat) : Option (Nat × Nat × Nat × Nat) := match scribeAt s m with
  | some x => some x
  | none => (committing s).map (fun c => (c, 5, 0, 0))

/-! ## Phases 1 and 2 -/

/-- Phases 1 and 2 of an update layer. -/
def openUpdate (c : Nat) (r : Record) (s : State) : State :=
  let step := r.step.toNat
  if !ucbOk s c then refuseUpdate c 2 0xFFFF step s
  else
    match openUcb c s with
    | (none, s) => s
    | (some b, s) =>
      if ucbBad b step then refuseUpdate c 1 0xFFFF step (ucbRefused c b s)
      else if !vaOk r.updList 128 then refuseUpdate c 2 0xFFFF step (ucbRefused c b s)
      else
        match loadDescs c r.updList r.updCount 0 s with
        | (.error (i, .refuse why), s) => refuseUpdate c why i step (ucbRefused c b s)
        | (.error (i, .err e), s) => updError c i e s
        | (.ok ds, s) =>
          if Ucb.voteOf b step ≠ 0 then skipLayer c step b s
          else
            let w : UpdWork := { phase := 3, lsExp := Ucb.lsExp b, tensors := ds.map (newTensor step), ucb := b }
            settleNorms c (modCtx c (fun x => { x with upd := some w }) s)

/-! ## Groups -/

/-- Record that a group is done. -/
def doneGroup (c i : Nat) (t : UpdTensor) (g : UpdGroup) (s : State) : State :=
  setTensor c i { t with done := t.done ++ [g] } (countGroup g s)

/-- Phase 4 for one group; `mc` is the Scribe that owns it. -/
def applyGroup (c mc i e j step : Nat) (ls : Int) (t : UpdTensor) (s : State) : State :=
  let d := t.d
  match readWork c d e j s with
  | (.error (.page va r), s) => pageFault c va r s
  | (.error (.data dpa), s) => settleApply c (doneGroup c i t ⟨e, 0, 0, true, false⟩ (lossEvent c i dpa s))
  | (.ok w, s) =>
    if d.isLazy && decide (step < w.stamp) then settleApply c (doneGroup c i t ⟨e, 0, 0, false, true⟩ s)
    else
      let idle := if d.isLazy && decide (w.stamp < step) then some (idlePower d (step - w.stamp)) else none
      let o := computeGroup d (corrOf d step) idle ls t.factor (d.inGroup j) w.grads w.data
      let (rows, s) := imageRows c d j w.data s
      let s := keepImage mc ⟨false, c, i, e, rows, if d.isLazy then some (w.stampDpa, BitVec.ofNat 64 w.stamp) else none⟩ s
      match writeAll c (groupWrites (fp8Sat s) d j w.data o ++
          (if d.isLazy then [(d.stampVa + 8 * j, bytesOf 8 (step + 1))] else [])) s with
      | (some (.page va r), s) => pageFault c va r s
      | (_, s) => settleApply c (doneGroup c i t ⟨e, d.inGroup j - o.unchanged, o.unchanged, false, false⟩ s)

/-- Phase 3 for one group (R246, R258). -/
def normGroup (c i e j : Nat) (ls : Int) (t : UpdTensor) (s : State) : State :=
  match readGrads c t.d e (t.d.inGroup j) s with
  | (.error x, s) => updError c i x s
  | (.ok gr, s) =>
    let a := gr.foldl (fun a g => match g with
      | some G => normTerm t.d.clipAnchor ls a G
      | none => a) (⟨t.normSum, t.normNf⟩ : NormSum)
    settleNorms c (setTensor c i { t with normSum := a.sum, normNf := a.nf, normed := t.normed ++ [e] } s)

/-! ## Commands -/

/-- SCR_STALL: the watchdog of one Scribe, once until it finishes a group (R262). -/
def execScrStall (mc : Fin 8) (s : State) : Host.Outcome State Fault Refusal :=
  let x := getScribe s mc.val
  match scribeAt s mc.val with
  | none => .next s
  | some (c, _, desc, _) =>
    if getF s (regAt .scribe 0 0x40) 11 0 ≠ 0 ∧ x.stalled ≠ some c then
      let step := match (getCtx s c).upd, s.lig.open_ with
        | none, some w => w.step
        | _, _ => stepOfCtx s c
      .next (raise .scribe 0 7 (.of c (desc % 2 ^ 16) step) (setScribe mc.val { x with stalled := some c } s))
    else .next s

/-- SCRIBE_GROUP_DONE: Scribe `mc` finishes group `group` (list entry, for a lazy tensor) of descriptor `desc`, in the norm or
the apply phase. -/
def execScribeGroupDone (mc : Fin 8) (ctx : Fin 256) (desc group : Nat) (s : State) : Host.Outcome State Fault Refusal :=
  let c := ctx.val
  let x := getCtx s c
  match x.upd, x.record with
  | some w, some r =>
    match w.tensors[desc]? with
    | none => .next s
    | some t =>
      let due := x.st == .running && x.phase == .running && decide (group < t.work) &&
        ((w.phase == 3 && t.normDue && !t.normed.contains group) ||
         (w.phase == 4 && !t.done.any (fun g => g.idx == group)))
      if !due then .next s
      else
        match listedGroup c t.d group s with
        -- a list row that cannot be read loses its group in phase 4 (R258)
        | (.error (.data dpa), s) => .next (if w.phase = 3 then updError c desc (.data dpa) s
            else settleApply c (doneGroup c desc t ⟨group, 0, 0, true, false⟩ (lossEvent c desc dpa s)))
        | (.error e, s) => .next (updError c desc e s)
        | (.ok j, s) =>
          match groupOwner c t.d j s with
          | (.error (.page va why), s) => .next (pageFault c va why s)
          | (.error (.data _), s) => .next s
          | (.ok m, s) =>
            if m ≠ mc.val then .next s
            else
              let s := modScribe m (fun y => { y with stalled := none }) s
              .next (if w.phase = 3 then normGroup c desc group j w.lsExp t s
                else applyGroup c m desc group j r.step.toNat w.lsExp t s)
  | _, _ => .next s

/-- UPDATE_COMMIT: phase 5 (R243, R244). -/
def execUpdateCommit (ctx : Fin 256) (s : State) : Host.Outcome State Fault Refusal :=
  let c := ctx.val
  let x := getCtx s c
  match x.upd, x.record with
  | some w, some r =>
    if x.st = .running ∧ x.phase = .running ∧ w.phase = 5 then
      match scrWrite c (ucbVa s c) (Ucb.commit w.ucb r.step.toNat) s with
      | (some e, s) => .next (updError c 0xFFFF e s)
      | (none, s) => .next (completeLayer c 1 (bump (regAt .scribe 0 0x50) 31 16 1 s))
    else .next s
  | _, _ => .next s

end Sys2Proof.Machine
end

