-- ==== Sys2Proof/Machine/RegRead.lean ====
section
/-! DEFINITION. What every register and window reads as, and the read itself with its latch and clearing (R7 to R11, R428 to R436;
each page's table). -/

namespace Sys2Proof.Machine

/-! ## Places (R428, R430, R433) -/

/-- The single pages of the catalogue, in order of their bases. -/
def singlePages : List Page :=
  [.boot, .security, .pcie, .understory, .clock, .supply, .seedbank, .ranger, .sheet, .canopy, .numeric, .matrix, .inkwell, .dma,
    .vector, .quill, .thin, .litter, .spatter, .mmu, .scribe, .links, .ligature]

/-- The page and instance at an offset of PF BAR0. -/
def pageAt (a : Nat) : Option (Page × Nat) :=
  let k := a / 0x1000
  if k < 23 then singlePages[k]?.map (fun p => (p, 0))
  else if 0x20 ≤ k ∧ k < 0x28 then some (.memctl, k - 0x20)
  else if 0x30 ≤ k ∧ k < 0x40 then some (.port, k - 0x30)
  else if 0x41 ≤ k ∧ k < 0x50 then some (.vfunc, k - 0x40)
  else if 0x100 ≤ k ∧ k < 0x200 then some (.ctx, k - 0x100)
  else none

/-- The masks of a register. -/
def regInfo (p : Page) (off : Nat) : Option RegInfo := (pageRegs p).find? (fun r => r.off == off)

def vfOn (s : State) (fn : Nat) : Bool := fn == 0 || bit s.boot.vfEn fn

/-- Where an offset of a function's BAR0 lies in the model's register space: PF BAR0, or the MSI-X table and pending bits of a VF at
0x1000_0000 × v. -/
def place (s : State) (fn off : Nat) : Option Nat :=
  if fn = 0 then some off
  else if !bit s.boot.vfEn fn then none
  else if off < 0x10_0000 then (if ctxFunc s (off / 0x1000) = fn then some (0x10_0000 + off) else none)
  else if off < 0x10_1000 then some (pageBase .vfunc + 0x1000 * fn + (off - 0x10_0000))
  else if off < 0x10_1400 ∨ (0x10_1800 ≤ off ∧ off < 0x10_1808) then some (0x1000_0000 * fn + off)
  else none

/-! ## Read-only values -/

def word32 (v : Nat) : Nat := v % 2 ^ 32
def flag (b : Bool) (i : Nat) : Nat := if b then 2 ^ i else 0
/-- Word k of a list of bytes. -/
def wordOf (b : List Byte) (k : Nat) : Nat := ofBytes ((b.drop (4 * k)).take 4)
/-- Low or high word of a 64-bit value: `hi` for the high one. -/
def half (hi : Bool) (v : Nat) : Nat := if hi then v / 2 ^ 32 % 2 ^ 32 else v % 2 ^ 32
/-- One bit for each grove of a half sheet. -/
def groveBits (hi : Bool) (f : Nat → Bool) : Nat :=
  (List.range 32).foldl (fun m i => m + flag (f (if hi then 32 + i else i)) i) 0
/-- A value that depends on timing (R61; log 9). -/
def timed (s : State) (k : Nat) : Nat := (Config.timing (s.free + k)).toNat
/-- A value the manual does not state, for a selector that names no unit. -/
def unstated (s : State) (w : Nat) : Nat := (Config.freeWord s.free).toNat % 2 ^ w

/-- BOOT (R395). -/
def bootValue (s : State) (off : Nat) : Nat :=
  let b := s.boot
  if off = 0x40 then
    bootCode b.st + flag b.mapReady 2 + flag b.selfBuilt 3 + flag b.imgBusy 4 + flag b.mapBusy 5 +
      (List.range 4).foldl (fun m k => m + flag (vget none b.images k).isSome (6 + k)) 0
  else if off = 0x48 then b.fault % 256 + 256 * (b.detail % 256)
  else if off = 0x4C then b.faultAddr % 2 ^ 28
  else if off = 0x50 then b.imgKind + flag b.imgValid 3 + 16 * b.imgResult
  else if off = 0x6C then
    (List.range 4).foldl (fun m k => m + flag (keyOf s k).isSome k) 0 + flag b.keyReject 4
  else wordOf b.digestDev ((off - 0xA0) / 4)

/-- SECURITY (R397). -/
def securityValue (s : State) (off : Nat) : Nat :=
  if off = 0x44 then flag s.boot.attNonce.isSome 0 + flag s.boot.attValid 1
  else if off < 0x70 then half (off = 0x6C) s.fuses.serial.toNat
  else if off < 0x90 then wordOf (identDigest s) ((off - 0x70) / 4)
  else wordOf (mapDigest s) ((off - 0x90) / 4)

/-- PCIE (R399). -/
def pcieValue (s : State) (off : Nat) : Nat :=
  if off = 0x40 then s.boot.rate + 8 * s.boot.width + flag s.boot.flit 8
  else if off = 0x48 then s.boot.vfEn
  else getR s (regAt .pcie 0 off)

/-- UNDERSTORY (R366). -/
def understoryValue (s : State) (off : Nat) : Nat :=
  let awake (g : Nat) : Bool := let w := (getGrove s g).pw; w == .awake || w == .waking
  let asleep (g : Nat) : Bool := (getGrove s g).pw == .retention
  if off ≤ 0x44 then half (off = 0x44) (now s)
  else if off ≤ 0x54 then groveBits (off = 0x54) awake
  else if off ≤ 0x5C then groveBits (off = 0x5C) asleep
  else flag s.boot.supv 0 + flag (s.supply.dip || s.supply.tripHeld) 1

/-- Code of a grove's state (R368). -/
def groveCode : GrovePower → Nat
  | .awake => 0 | .entering => 1 | .retention => 2 | .gated => 3 | .waking => 4 | .retired => 5

/-- CLOCK (R368). What the supervisor reports of a grove's state and of the oscillator reads 0, its reset value, until a supervisor runs
(log 144). -/
def clockValue (s : State) (off : Nat) : Nat :=
  let g := getF s (regAt .clock 0 0x44) 5 0
  let x := getGrove s g
  if off = 0x48 then
    aclk s g + 16 * x.step + 2 ^ 8 * x.therm + flag s.supply.dip 12 + 2 ^ 13 * (x.pll % 2) + flag x.pllBad0 14 + flag x.pllBad1 15 +
      (if s.boot.supv then 2 ^ 16 * groveCode x.pw else 0)
  else if off = 0x4C then min 1023 x.lock
  else flag s.boot.fclk 0 + flag s.boot.mclk 1 + flag s.boot.pclk 2 + flag (s.power.released && s.boot.supv) 3

/-- The hottest latest reading and its sensor. -/
def hottest (s : State) : Nat × Nat :=
  (List.range 72).foldl (fun (m : Nat × Nat) k => let t := vget 0 s.supply.temps k; if m.1 < t then (t, k) else m) (0, 0)

def eightBits (f : Nat → Bool) : Nat := (List.range 8).foldl (fun m i => m + flag (f i) i) 0

/-- SUPPLY (R370). -/
def supplyValue (s : State) (off : Nat) : Nat :=
  if off = 0x48 then
    eightBits (fun i => (getRail s i).below) + 2 ^ 8 * eightBits (fun i => (getRail s i).integNow) + flag s.supply.dip 16 +
      flag s.supply.recover 17
  else if off = 0x5C then
    let k := getF s (regAt .supply 0 0x58) 6 0
    if k < 72 then min 255 (vget 0 s.supply.temps k) + 2 ^ 8 * min 255 (vget 0 s.supply.highs k) else unstated s 16
  else if off = 0x60 then min 255 (hottest s).1 + 2 ^ 8 * (hottest s).2
  else if 0xC0 ≤ off then
    let r := getRail s ((off - 0xC0) / 4)
    if r.mv = 0 ∧ r.low = 4095 then 0 else r.mv % 4096 + 2 ^ 12 * (r.low % 4096)
  else getR s (regAt .supply 0 off)

/-- Logical nib bound to a physical one, if it serves one (R16, R20). -/
def boundNib (s : State) (p : Nat) : Option Nat :=
  let g := p / 17
  let slot := p % 17
  match (getGrove s g).spareAt with
  | none => if slot < 16 then some (16 * g + slot) else none
  | some k => if slot = 16 then some (16 * g + k) else if slot = k then none else some (16 * g + slot)

/-- SB_NIB_STATUS of a physical nib (R426). -/
def sbNibStatus (s : State) (p : Nat) : Nat :=
  let q := getPNib s p
  let bound := boundNib s p
  let code : Nat :=
    if (getGrove s (p / 17)).pw = .retired then 5
    else if q.retired then 4
    else if q.retiring then 3
    else if bound.isSome then 0
    else if q.failed then 6
    else if q.sweptOk then 1 else 2
  code + 8 * bound.getD 0 + 2 ^ 13 * min 127 q.margin + 2 ^ 20 * min 127 (rowsGiven s p).length +
    flag (q.sweptOk || (getGrove s (p / 17)).swept != 0) 27

/-- SEEDBANK (R426). The Blotter's queue is empty between commands. -/
def seedbankValue (s : State) (off : Nat) : Nat :=
  let b := s.seedbank
  if off = 0x44 then b.errReason + 8 * (b.errIndex % 2 ^ 17)
  else if off = 0x48 then b.gen
  else if off = 0x4C then b.entries.length
  else if off = 0x50 then
    let gs := List.range 64
    (gs.filter (fun g => (getGrove s g).spareAt.isSome)).length + 2 ^ 7 * (gs.filter (fun g => (getGrove s g).pw == .retired)).length +
      2 ^ 14 * (entriesOf s 4).length
  else if off = 0x58 then
    let p := getF s (regAt .seedbank 0 0x54) 10 0
    if p < 1088 then sbNibStatus s p else unstated s 28
  else if off = 0x5C then b.lastSweep + flag b.lastOk 6 + flag b.sweeping.isSome 7 + 2 ^ 8 * min (2 ^ 24 - 1) b.sweeps
  else if off ≤ 0x6C then half (off = 0x6C) b.avRun
  else if off ≤ 0x74 then half (off = 0x74) b.avLost
  else if off = 0x7C then s.blotter.next.toNat
  else 0

/-- RANGER (R340). -/
def rangerValue (s : State) (off : Nat) : Nat :=
  let r := s.ranger
  let slot (i : Nat) : Option Nat := vget none r.slots i
  if off = 0x4C then wrap 32 r.tokens
  else if off = 0x50 then word32 (committedOf s)
  else if off = 0x54 then min 4095 r.powerW + flag r.overEnv 12 + flag r.overPeak 13 + flag r.stopped 14
  else if off ≤ 0x64 then
    let k := (off - 0x58) / 4
    (List.range 4).foldl (fun m i => m + 2 ^ (8 * i) * (slot (4 * k + i)).getD 0) 0
  else if off = 0x68 then (List.range 16).foldl (fun m i => m + flag (slot i).isSome i) 0
  else if off = 0x6C then
    let down (g : Nat) : Bool := let w := (getGrove s g).pw; w == .retention || w == .gated
    (freeGroves s).length + 2 ^ 7 * ((List.range 64).filter down).length
  else getR s (regAt .ranger 0 off)

/-- SHEET (R35). A grove retired with its spare bound still reads as spared (DESIGN CHOICE, log 129). -/
def sheetValue (s : State) (off : Nat) : Nat :=
  if off = 0x40 then 0xF
  else if off = 0x44 then 16 + 2 ^ 8 * 16 + 2 ^ 16 + 2 ^ 24 * 2
  else if off ≤ 0x4C then groveBits (off = 0x4C) (groveAvail s)
  else if off ≤ 0x54 then groveBits (off = 0x54) (fun g => s.boot.mapReady && (getGrove s g).spareAt.isSome)
  else availCount s

/-- CANOPY (R36). -/
def canopyValue (s : State) (off : Nat) : Nat :=
  if off = 0x48 then
    let x := getSeam s (getF s (regAt .canopy 0 0x44) 7 0)
    spareWires x + flag x.failed 4 + 2 ^ 8 * min (2 ^ 24 - 1) x.crcs
  else
    let xs := s.canopy.seams
    (xs.filter (fun e => e.2.failed)).length + 2 ^ 9 * xs.foldl (fun n e => n + spareWires e.2) 0 + flag (xs.any (fun e => e.2.drain.isSome)) 21

/-- Whether the state of a nib's registers can be read (R436). -/
def nibAwake (s : State) (nib : Nat) : Bool := (getGrove s (nib / 16)).pw == .awake
def nibRetired (s : State) (nib : Nat) : Bool := (getGrove s (nib / 16)).pw == .retired

/-- A field that reads zero while the grove is not AWAKE. -/
def whenAwake (s : State) (nib v : Nat) : Nat := if nibAwake s nib then v else 0
/-- A counter since power-up: zero only for a retired grove. -/
def sincePower (s : State) (nib v : Nat) : Nat := if nibRetired s nib then 0 else v

/-- MATRIX (R97). -/
def matrixValue (s : State) (off : Nat) : Nat :=
  let nib := getF s (regAt .matrix 0 0x48) 9 0
  let n := getNib s nib
  let held := (List.range 4).foldl (fun m a => m + flag (vget none n.held a).isSome a) 0
  if off = 0x4C then whenAwake s nib (n.mq.length + flag (n.gather != 0) 5 + 2 ^ 6 * mxWait n + 2 ^ 9 * held)
  else if off ≤ 0x54 then sincePower s nib (half (off = 0x54) n.count.mmas)
  else if off ≤ 0x5C then whenAwake s nib (timed s ((off - 0x58) / 4))
  else if off ≤ 0x64 then whenAwake s nib (timed s ((off - 0x60) / 4))
  else if off = 0x68 then whenAwake s nib (min (2 ^ 32 - 1) n.count.gathered)
  else whenAwake s nib n.count.mxIll

/-- INKWELL (R128). -/
def inkwellValue (s : State) (off : Nat) : Nat :=
  let nib := getF s (regAt .inkwell 0 0x48) 9 0
  let n := getNib s nib
  let valid (lo hi : Nat) : Nat :=
    let listed := n.rows.filter (fun e => decide (lo ≤ e.1) && decide (e.1 < hi))
    if n.zeroed then (hi - lo) - (listed.filter (fun e => e.2.isNone)).length else (listed.filter (fun e => e.2.isSome)).length
  if off = 0x4C then whenAwake s nib (valid 0 4096 + 2 ^ 13 * valid 4096 4608)
  else if off = 0x50 then
    let last := match n.count.lastDet with
      | some (reader, row) => 2 ^ 16 * row + 2 ^ 29 * reader + 2 ^ 31
      | none => 0
    sincePower s nib n.count.detects + whenAwake s nib last
  else whenAwake s nib (timed s ((off - 0x54) / 4))

/-- DMA (R130). -/
def dmaValue (s : State) (off : Nat) : Nat :=
  let sel := getR s (regAt .dma 0 0x4C)
  let nib := bits sel 9 0
  let n := getNib s nib
  let live (hi : Bool) : Nat :=
    (List.range 32).foldl (fun m i =>
      let t := tagOf n (if hi then 32 + i else i)
      m + flag (t.1 != t.2) i) 0
  if off = 0x50 then
    let wait := match n.descs.find? (fun d => !d.done) with
      | some d => descWait s nib d
      | none => 0
    whenAwake s nib (n.inFlight + 2 ^ 6 * tagsUsed s nib + 2 ^ 13 * wait)
  else if off ≤ 0x58 then whenAwake s nib (live (off = 0x58))
  else if off ≤ 0x60 then sincePower s nib (half (off = 0x60) n.count.dmaIn)
  else if off ≤ 0x68 then sincePower s nib (half (off = 0x68) n.count.dmaOut)
  else if off = 0x6C then whenAwake s nib (n.count.dReason + 16 * n.count.dTag)
  else whenAwake s nib (tabGet 0 n.signals (bits sel 13 10) % 2 ^ 16)

/-- VECTOR (R165). -/
def vectorValue (s : State) (off : Nat) : Nat :=
  let nib := getF s (regAt .vector 0 0x48) 9 0
  let n := getNib s nib
  if off = 0x4C then
    whenAwake s nib (n.vq.length + 2 ^ 5 * n.ftq.length + flag n.fn0.isSome 9 + flag n.fn1.isSome 10 + 2 ^ 11 * vxWait n +
      2 ^ 14 * tileFlags n)
  else if off = 0x60 then whenAwake s nib n.count.vecIll
  else whenAwake s nib (timed s ((off - 0x50) / 4))

/-- What a running core's next instruction stands at: a full queue, or store order (R144). -/
def quillHeld (n : Nib) : Nat :=
  let w := n.fetch
  if qOp w = 0x10 then (if 16 ≤ n.mq.length then 1 else if mxqHeld n w then 7 else 0)
  else if qOp w = 0x11 ∧ vxqHeld n then 2
  else if qOp w = 0x12 ∧ dmaHeld n then 3
  else 0

/-- Bits 18:14 of QUILL_NIB_STATE: run state and what the core waits on. -/
def quillState (n : Nib) : Nat :=
  match n.quill.run with
  | .idle => 0
  | .faulted => 3
  | .waiting k _ _ => 2 + 4 * k
  | .running => let k := quillHeld n; if k = 0 then 1 else 2 + 4 * k

/-- QUILL (R167). -/
def quillValue (s : State) (off : Nat) : Nat :=
  let nib := getF s (regAt .quill 0 0x48) 9 0
  let n := getNib s nib
  if off = 0x4C then whenAwake s nib (n.quill.pc % 2 ^ 14 + 2 ^ 14 * quillState n)
  else if off = 0x50 then whenAwake s nib (n.quill.strand % 2 ^ 24)
  else if off = 0x54 then whenAwake s nib (n.quill.ended % 2 ^ 25)
  else if off = 0x58 then whenAwake s nib (n.count.qReason + 8 * (n.count.qPc % 2 ^ 14))
  else sincePower s nib (half (off = 0x60) n.count.instrs)

/-- THIN (R212): no sparse MMA is in progress between commands, and THIN_NIB_STATUS, its path bit too, reads 0 (DESIGN CHOICE, log 174). -/
def thinValue (s : State) (off : Nat) : Nat :=
  let nib := getF s (regAt .thin 0 0x60) 9 0
  let n := getNib s nib
  if off ≤ 0x5C then getR s (regAt .thin 0 off)
  else if off = 0x64 then 0
  else if off = 0x70 then whenAwake s nib n.count.thinIll
  else sincePower s nib (half (off = 0x6C) n.count.vectors)

/-- SCRIBE (R262). -/
def scribeValue (s : State) (off : Nat) : Nat :=
  let m := getF s (regAt .scribe 0 0x5C) 2 0
  let x := getScribe s m
  if off = 0x60 then
    match scribeShown s m with
    | none => 0
    | some (c, phase, _, _) => 1 + 2 * phase + 16 * c
  else if off = 0x64 then
    match scribeShown s m with
    | none => 0
    | some (_, _, _, j) => word32 j
  else if off = 0x68 then min 4096 (x.pre.foldl (fun n p => n + p.rows.length) 0) + 2 ^ 16 * min (2 ^ 16 - 1) x.rollbacks
  else getR s (regAt .scribe 0 off)

/-- Code of a port's state (R283). -/
def portCode : PortSt → Nat
  | .off => 0 | .detect => 1 | .negotiate => 2 | .equalize => 3 | .identify => 4 | .ready => 5 | .active => 6 | .retrain => 7

/-- PORTS_UP (R282). -/
def portsUp (s : State) : Nat :=
  (List.range 16).foldl (fun m p =>
    let st := (getPort s p).st
    m + flag (st == .ready || st == .active || st == .retrain) p + flag (st == .active) (16 + p)) 0

/-- LIGATURE (R309). -/
def ligatureValue (s : State) (off : Nat) : Nat :=
  let l := s.lig
  let size := match l.circle with
    | some c => c.members.length
    | none => 0
  let rank := match l.circle with
    | some c => c.rank
    | none => 0
  if off = 0x50 then size % 2 ^ 13 + flag l.open_.isSome 13 + flag l.lastBs8 14 + 2 ^ 16 * rank
  else if off ≤ 0x58 then half (off = 0x58) l.lastStep
  else if off = 0x5C then min (2 ^ 16 - 1) l.formed + 2 ^ 16 * min (2 ^ 16 - 1) l.ownedCount
  else if off = 0x60 then l.outcome + flag l.diverged 2 + 8 * l.reason + 2 ^ 8 * l.detOrd + 2 ^ 20 * l.invalid
  else if off ≤ 0x70 then half (off = 0x70) l.fwd
  else min (2 ^ 16 - 1) l.held.length

/-- MEMCTL (R233): status and counters read zero until MAP_READY (R436). -/
def memctlValue (s : State) (mc off : Nat) : Nat :=
  let m := getMc s mc
  if !s.boot.mapReady then 0
  else if off = 0x48 then
    let ts := mcTags s mc
    let most := ts.foldl (fun n t => max n (bankTags s mc t.2)) 0
    ts.length + 2 ^ 16 * most
  else if off = 0x70 then min (2 ^ 16 - 1) m.soft + 2 ^ 16 * m.slots
  else if off = 0x74 then m.wayGone.length
  else if off = 0x7C then flag m.trained 0 + flag m.doubled 1 + 2 ^ 8 * m.tempC
  else getR s (regAt .memctl mc off)

/-- PORT (R283). -/
def portValue (s : State) (p off : Nat) : Nat :=
  let x := getPort s p
  if off = 0x48 then
    portCode x.st + 2 ^ 3 * x.rate + 2 ^ 5 * Nat.log2 x.width + flag x.reversed 7 + flag x.loopback 8 + flag x.clash 9 + 2 ^ 10 * x.lastDown
  else if off = 0x4C then x.tx.active + 2 ^ 9 * x.tx.notGood x.rate
  else if off = 0x50 then reorder x.reversed x.rx.active + 2 ^ 9 * reorder x.reversed (x.rx.notGood x.rate) + 2 ^ 18 * x.inverted
  else if off = 0x54 then x.peer.ordinal + 2 ^ 12 * x.peer.port + flag x.peer.valid 16
  else if off ≤ 0x5C then half (off = 0x5C) x.peer.serial
  else if off ≤ 0x7C then wordOf x.peer.digest ((off - 0x60) / 4)
  else if off = 0x84 then
    let k := getF s (regAt .port p 0x80) 3 0
    if k ≤ 8 then min (2 ^ 32 - 1) (tabGet 0 x.laneErr k) else unstated s 32
  else getR s (regAt .port p off)

/-- An account of engine time by its offset on the CTX page: ACC_MX, ACC_VEC, ACC_SCRIBE, ACC_RC_TIME (R342). -/
def timeAccount (t : EngineTime) (off : Nat) : Nat :=
  if off < 0x90 then t.mx else if off < 0x98 then t.vec else if off < 0xA0 then t.scribe else t.rc

/-- CTX (R342). -/
def ctxValue (s : State) (c off : Nat) : Nat :=
  let x := getCtx s c
  if off = 0x70 then
    ctxStCode x.st + flag x.slot.isSome 3 + 16 * x.slot.getD 0 + 2 ^ 8 * x.plot.length + 2 ^ 15 * effPrio s c +
      flag (isUrgent s c || (x.st == .running && x.urgent)) 23 + flag x.saved.isSome 24 + flag (x.slot.isSome && isBlocked x) 25
  else if off = 0x74 then x.lastCode % 2 ^ 16 + 2 ^ 16 * min 15 x.replays
  else if off ≤ 0x7C then half (off = 0x7C) x.curRec
  else if (0x88 ≤ off ∧ off < 0xA0) ∨ off = 0xC8 ∨ off = 0xCC then
    half (off % 8 = 4) (timeAccount (tabGet EngineTime.zero s.times c) off)
  else getR s (regAt .ctx c off)

/-- What the device holds in a register's RO bits. -/
def roValue (s : State) (p : Page) (j off : Nat) : Nat :=
  match p with
  | .boot => bootValue s off
  | .security => securityValue s off
  | .pcie => pcieValue s off
  | .understory => understoryValue s off
  | .clock => clockValue s off
  | .supply => supplyValue s off
  | .seedbank => seedbankValue s off
  | .ranger => rangerValue s off
  | .sheet => sheetValue s off
  | .canopy => canopyValue s off
  | .numeric => 0xFF
  | .matrix => matrixValue s off
  | .inkwell => inkwellValue s off
  | .dma => dmaValue s off
  | .vector => vectorValue s off
  | .quill => quillValue s off
  | .thin => thinValue s off
  | .litter => getR s (regAt .litter 0 off)
  | .spatter => getR s (regAt .spatter 0 off)
  | .mmu => if off = 0x44 then flag s.mmu.inv.isSome 0 else getR s (regAt .mmu 0 off)
  | .scribe => scribeValue s off
  | .links => portsUp s
  | .ligature => ligatureValue s off
  | .memctl => memctlValue s j off
  | .port => portValue s j off
  | .vfunc => 0
  | .ctx => ctxValue s j off

/-- RC bits: counted where the event comes about. -/
def rcValue (s : State) (p : Page) (j off : Nat) : Nat :=
  if p = .memctl ∧ !s.boot.mapReady then 0
  else getR s (regAt p j off)

/-- STATUS (R431). -/
def statusValue (s : State) (p : Page) (j : Nat) : Nat :=
  flag (p == .spatter && s.mmu.spatter.isSome) 0 + flag (pend s p j) 31

/-- ENABLE of PORT_CTRL stands for the port; in RUN, PWR_CFG reads as the values in force (R323). -/
def rwValue (s : State) (p : Page) (j off : Nat) : Nat :=
  if p = .ranger ∧ off = 0x40 ∧ s.boot.st = .run then s.ranger.envW + 2 ^ 12 * s.ranger.capMj else
  if p = .port ∧ off = 0x44 then flag (getPort s j).enable 0 else getR s (regAt p j off)

/-- A register of a page (R9, R10, R431): reserved bits and offsets read zero (R11). -/
def pageValue (s : State) (p : Page) (j off : Nat) : Nat :=
  if p = .vfunc ∧ !bit s.boot.vfEn j then 0
  else if off = 0x00 then pageCode p + 2 ^ 8 * j + 2 ^ 16 + 2 ^ 24 * 0x34
  else if off = 0x04 then pageCap p
  else if off = 0x0C then statusValue s p j
  else if off = 0x10 ∨ off = 0x14 then getR s (regAt p j off)
  else
    match regInfo p off with
    | none => 0
    | some r =>
      (rwValue s p j off &&& (r.rw ||| r.rwl ||| r.w1c)) ||| (if r.rc = 0 then 0 else rcValue s p j off &&& r.rc) |||
        (if r.ro = 0 then 0 else roValue s p j off &&& r.ro)

/-! ## Windows (R434, R423) -/

/-- The 32 bytes of a Blotter entry (R422). -/
def entryBytes32 (e : BlotEntry) : List Byte :=
  bytesOf 8 e.stamp.toNat ++ bytesOf 4 e.seq.toNat ++ [e.block, e.event] ++ bytesOf 2 e.inst.toNat ++ [e.ctx, e.flags] ++
  bytesOf 2 e.nib.toNat ++ bytesOf 4 e.arg0.toNat ++ bytesOf 8 e.arg1.toNat

/-- One byte of the map in force, as MAP_STAGE gives it from MAP_READY on (R415). -/
def mapWord (s : State) (off : Nat) : Nat :=
  if off < 64 then wordOf (mapHeader s) (off / 4)
  else
    let e := (s.seedbank.entries[(off - 64) / 8]?).getD 0
    half (off % 8 = 4) e.toNat

/-- A word of a window, MSI-X table or pending bits at an offset of the register space; none where there is no window. -/
def windowValue (s : State) (a : Nat) : Option Nat :=
  let vf := a / 0x1000_0000
  let off := a % 0x1000_0000
  let table (fn o : Nat) : Nat :=
    let w := getR s (if fn = 0 then 0x20_0000 + o else 0x1000_0000 * fn + 0x10_1000 + o)
    if o % 16 = 12 then 1 - w % 2 else w
  if vf ≠ 0 then
    (if off < 0x10_1400 then some (table vf (off - 0x10_1000)) else some (half (off % 8 = 4) (getMsix s vf).pba))
  else if off < 0x20_0000 then none
  else if off < 0x20_0400 then some (table 0 (off - 0x20_0000))
  else if 0x20_0800 ≤ off ∧ off < 0x20_0808 then some (half (off % 8 = 4) (getMsix s 0).pba)
  else if keyStage ≤ off ∧ off < keyStage + 0x1000 then some (getR s off)
  else if 0x21_1000 ≤ off ∧ off < 0x21_2000 then some (wordOf s.fuses.identKey ((off - 0x21_1000) / 4))
  else if 0x21_2000 ≤ off ∧ off < 0x21_3000 then some (wordOf s.boot.report ((off - 0x21_2000) / 4))
  else if 0x22_0000 ≤ off ∧ off < 0x24_0000 then
    some (wordOf (entryBytes32 (tabGet BlotEntry.empty s.blotter.ring ((off - 0x22_0000) / 32))) (off % 32 / 4))
  else if imgStage ≤ off ∧ off < imgStage + 0x10_0000 then some (getR s off)
  else if mapStage ≤ off ∧ off < mapStage + 0x10_0000 then
    some (if s.boot.mapReady then mapWord s (off - mapStage) else getR s off)
  else none

/-! ## The read (R7, R8, R10, R429) -/

/-- The word at a place of the register space; reserved places read zero. -/
def wordAt (s : State) (a : Nat) : Nat :=
  match windowValue s a with
  | some v => word32 v
  | none => match pageAt a with
    | some (p, j) => word32 (pageValue s p j (a % 0x1000))
    | none => 0

/-- A low word of a pair that the device updates. -/
def isRoLow (a : Nat) : Bool :=
  match pageAt a with
  | some (p, _) => (pairLows p).contains (a % 0x1000)
  | none => false

/-- A low word of a pair that the host writes. -/
def isRwLow (a : Nat) : Bool :=
  match pageAt a with
  | some (.ctx, _) => [0x48, 0x50, 0x58, 0x60, 0x68].contains (a % 0x1000)
  | some (.vfunc, _) => [0x40, 0x48, 0x50, 0x58].contains (a % 0x1000)
  | some (.ligature, _) => a % 0x1000 == 0x48
  | some (.spatter, _) => a % 0x1000 == 0x40
  | _ => false

/-- Value under the function's latch: a high word that the latch holds reads as latched. -/
def latchedWord (s : State) (fn a : Nat) : Nat :=
  match tabFind? s.latches fn with
  | some (lo, hi) => if lo + 4 = a then hi.toNat else wordAt s a
  | none => wordAt s a

/-- The latch after a read: the low word of a read-only pair latches its high word, any other low word ends the latch. -/
def latchAfter (s : State) (fn a : Nat) : Tab (Nat × Word32) :=
  if isRoLow a then tabInsert s.latches fn (a, BitVec.ofNat 32 (wordAt s (a + 4)))
  else if isRwLow a then tabErase s.latches fn
  else s.latches

/-- RC bits clear, ending with what the hardware adds in the same cycle. -/
def clearRc (a inc : Nat) (s : State) : State :=
  match pageAt a with
  | none => s
  | some (p, _) =>
    match regInfo p (a % 0x1000) with
    | none => s
    | some r => if r.rc = 0 then s else setR a ((getR s a &&& (0xFFFF_FFFF ^^^ r.rc)) ||| (inc &&& r.rc)) s

/-- A read of 32 aligned bits through a function; a read that is not aligned returns all ones. -/
def readReg (fn off inc : Nat) (s : State) : State :=
  if off % 4 ≠ 0 then emit (.bar0 fn off 0xFFFF_FFFF) s
  else
    match place s fn off with
    | none => emit (.bar0 fn off (if vfOn s fn then 0 else 0xFFFF_FFFF)) s
    | some a =>
      let v := latchedWord s fn a
      let s := emit (.bar0 fn off (BitVec.ofNat 32 v)) { s with latches := latchAfter s fn a }
      takeFree (takeFree (clearRc a inc s))

end Sys2Proof.Machine
end

