-- ==== Sys2Proof/Machine/HostMem.lean ====
section
/-! DEFINITION. BAR2 accesses to HBM through the windows, and what they wake (R223, R318, R376, R419, R454). -/

namespace Sys2Proof.Machine

/-- What a window answers for a piece of an access. -/
inductive Bar2 where
  /-- the device physical address -/
  | hbm (dpa : Nat)
  /-- refused: a BAR2_FAULT -/
  | refused
  /-- no window of the function lies there (log 53) -/
  | none
  deriving DecidableEq, Repr

/-- Whether a range touches a page that is debug-locked against the physical function (R419). -/
def debugLocked (s : State) (dpa n : Nat) : Bool :=
  [dpa / 2 ^ 21, (dpa + n - 1) / 2 ^ 21].any (fun p => match tabFind? s.hbm.locks p with
    | some c => ctxFunc s c != 0
    | none => false)

/-- PF window w, at BAR2 offset 4 GiB × w. -/
def pfWindow (s : State) (off n : Nat) : Bar2 :=
  let w := getR s (regAt .pcie 0 (0x80 + 4 * (off / 2 ^ 32)))
  let dpa := 2 ^ 21 * bits w 18 0 + off % 2 ^ 32
  if !bit w 31 || decide (dpaEnd < dpa + n) || !s.boot.mapReady || debugLocked s dpa n then .refused else .hbm dpa

/-- VF window v, at VF BAR2 offset 1 GiB × v: translated through the page tables of its context. Every field of its 64-bit register takes
effect with the high word (R8). -/
def vfWindow (fn off : Nat) (write : Bool) (s : State) : Bar2 × State :=
  if 2 ^ 32 ≤ off ∨ !bit s.boot.vfEn fn then (.none, s)
  else
    let a := regAt .vfunc fn (0x40 + 8 * (off / 2 ^ 30))
    let w := cfgPair s a
    let c := bits w 55 48
    let va := bits w 47 21 * 2 ^ 21 + off % 2 ^ 30
    if !bit w 0 || !ctxEn s c || ctxFunc s c != fn || !s.boot.mapReady || decide (2 ^ 48 ≤ va) then (.refused, s)
    else
      match translate c va write s with
      | (.inl dpa, s) => (.hbm dpa, s)
      | (.inr _, s) => (.refused, s)

/-- The window of an access of n bytes inside one 4 KiB block. -/
def bar2Window (fn off n : Nat) (write : Bool) (s : State) : Bar2 × State :=
  if fn = 0 then (pfWindow s off n, s) else vfWindow fn off write s

/-- BAR2_FAULT (R376): counted, BAR2_FAULT_LAST, its event. -/
def bar2Fault (fn off : Nat) (write : Bool) (s : State) : State :=
  let s := countEvent .pcie (regAt .pcie 0 0x50) 31 0 s
  let s := setR (regAt .pcie 0 0x54) (fn + (if write then 16 else 0) + 2 ^ 5 * (off / 2 ^ 10)) s
  raiseOpen .pcie 0 1 none s

/-- Read one piece. -/
def bar2ReadPiece (fn off n : Nat) (s : State) : State :=
  let ones : List Byte := List.replicate n 0xFF
  match bar2Window fn off n false s with
  | (.none, s) => emit (.bar2 fn off ones false) s
  | (.refused, s) => emit (.bar2 fn off ones false) (bar2Fault fn off false s)
  | (.hbm dpa, s) =>
    match memRead dpa n s with
    | (some b, s) => emit (.bar2 fn off b false) s
    | (none, s) => emit (.bar2 fn off ones true) s

/-- Where a context's watched NEXT lies in HBM (R318). -/
def watchDpa (s : State) (c : Nat) : Option Nat :=
  match (getCtx s c).watch with
  | none => none
  | some va => match (translate c va false s).1 with
    | .inl dpa => some dpa
    | .inr _ => none

/-- A host write of [dpa, dpa + n) has landed: a watch whose 8 bytes it covers wakes its context. -/
def wakeWatches (dpa n : Nat) (s : State) : State :=
  forEach (s.ctxs.map (fun e => e.1)) (fun c s =>
    match watchDpa s c with
    | some a =>
      if dpa ≤ a ∧ a + 8 ≤ dpa + n then
        modCtx c (fun x => { x with woken := true, runnable := x.runnable || x.slot.isNone }) s
      else s
    | none => s) s

/-- Write one piece. -/
def bar2WritePiece (fn off : Nat) (data : List Byte) (s : State) : State :=
  match bar2Window fn off data.length true s with
  | (.none, s) => s
  | (.refused, s) => bar2Fault fn off true s
  | (.hbm dpa, s) => wakeWatches dpa data.length (memWrite dpa data s)

/-- BAR2_READ: an access is carried out in blocks that do not cross 4 KiB, as PCIe requests do not (log 53). -/
def execBar2Read (fn : Fin 16) (off : BitVec 36) (len : Nat) (s : State) : Host.Outcome State Fault Refusal :=
  if len = 0 then .fault .illFormed
  else .next (forEach (pieces 4096 off.toNat len) (fun p s =>
    if p.1 < 2 ^ 36 then bar2ReadPiece fn.val p.1 p.2 s else s) s)

def bar2Writes (fn : Nat) : List (Nat × Nat) → List Byte → State → State
  | [], _, s => s
  | (a, n) :: t, data, s =>
    bar2Writes fn t (data.drop n) (if a < 2 ^ 36 then bar2WritePiece fn a (data.take n) s else s)

/-- BAR2_WRITE. -/
def execBar2Write (fn : Fin 16) (off : BitVec 36) (data : List Byte) (s : State) : Host.Outcome State Fault Refusal :=
  if data = [] then .fault .illFormed
  else .next (bar2Writes fn.val (pieces 4096 off.toNat data.length) data s)

end Sys2Proof.Machine
end

