-- ==== Sys2Proof/Machine/HostRegs.lean ====
section
/-! DEFINITION. BAR0 accesses: register and window writes with the commands their bits carry, reads, event bits, interrupts and the
power envelope (R7 to R13, R323, R377, R428 to R441). -/

namespace Sys2Proof.Machine

/-- The machine after a command that a register bit carries. -/
def outState (s : State) : Host.Outcome State Fault Refusal → State
  | .next t => t
  | .fault _ => s
  | .refused _ => s

/-- Carry out a command if its bit is written 1. -/
def onBit (b : Bool) (f : State → Host.Outcome State Fault Refusal) (s : State) : State := if b then outState s (f s) else s

/-! ## Events and interrupts (R10, R377, R432, R441) -/

/-- W1C write of EVENT: bits written 1 clear, those that the hardware sets in the same cycle end set; a rise of PEND sends one
message. -/
def writeEvent (p : Page) (j v set : Nat) (s : State) : State :=
  let a := regAt p j 0x10
  let before := pend s p j
  let s := setR a ((getR s a &&& (0xFFFF_FFFF ^^^ v)) ||| (set &&& pageCap p)) s
  if !before && pend s p j then sendEvent s else s

/-- A write of EVENT_EN: bits whose CAP bit is 0 are reserved. -/
def writeEventEn (p : Page) (j v : Nat) (s : State) : State :=
  let before := pend s p j
  let s := setR (regAt p j 0x14) (v &&& pageCap p) s
  if !before && pend s p j then sendEvent s else s

/-- A write of IRQ_CFG: a change of EVT_EN from 0 to 1 sends one message from every page whose PEND is 1. -/
def writeIrq (v : Nat) (s : State) : State :=
  let a := regAt .pcie 0 0x44
  let before := bit (getR s a) 6
  let s := setR a (v % 2 ^ 7) s
  if !before && bit v 6 then sendPending s else s

/-- Vector Control of a table entry, bit 0: 1 masks; an unmasked vector sends what is pending (log 5). -/
def writeVecControl (fn vec v : Nat) (s : State) : State := flushVec fn vec (setR (vecControl fn vec) (1 - v % 2) s)

/-! ## PWR_CFG (R323, R435) -/

/-- Each field alone: in RUN and STOPPED a value of 0 or above the maximum is ignored. -/
def writePwr (v : Nat) (s : State) : State :=
  let a := regAt .ranger 0 0x40
  match s.boot.st with
  | .held => setR a (v % 2 ^ 25) s
  | .verify => countLocked s
  | _ =>
    let env := bits v 11 0
    let cap := bits v 24 12
    let s := if env = 0 ∨ 1800 < env then s else setF a 11 0 env s
    if cap = 0 ∨ 6000 < cap then s else setF a 24 12 cap s

/-! ## Windows (R434) -/

/-- Staging windows: KEY_STAGE and IMG_STAGE count what they ignore outside their states, MAP_STAGE only ignores it. -/
def writeWindow (a v : Nat) (s : State) : State :=
  let vf := a / 0x1000_0000
  let off := a % 0x1000_0000
  let table (fn o : Nat) : State :=
    if o % 16 = 12 then writeVecControl fn (o / 16) v s
    else setR (if fn = 0 then 0x20_0000 + o else a) (if o % 16 = 0 then v / 4 * 4 else v) s
  let held : Bool := s.boot.st == .held
  if vf ≠ 0 then (if off < 0x10_1400 then table vf (off - 0x10_1000) else s)
  else if 0x20_0000 ≤ off ∧ off < 0x20_0400 then table 0 (off - 0x20_0000)
  else if keyStage ≤ off ∧ off < keyStage + 0x1000 then
    if !held then countLocked s
    else
      let o := off - keyStage
      if o < 1792 then setR off v s else if o = 1792 then setR off (v % 256) s else s
  else if imgStage ≤ off ∧ off < imgStage + 0x10_0000 then
    (if held && !s.boot.imgBusy then setR off v s else countLocked s)
  else if mapStage ≤ off ∧ off < mapStage + 0x10_0000 then
    (if held && !s.boot.mapBusy && !s.boot.mapReady then setR off v s else s)
  else s

/-! ## Registers that carry commands, bit by bit in rising order -/

/-- BOOT_CMD. -/
def writeBootCmd (v : Nat) (s : State) : State :=
  onBit (bit v 4) execImgGo (onBit (bit v 3) execSelfMap (onBit (bit v 2) execMapGo (onBit (bit v 1) execDisarm
    (onBit (bit v 0) execArm s))))

/-- KEY_CMD. -/
def writeKeyCmd (v : Nat) (s : State) : State :=
  let slot : BitVec 2 := BitVec.ofNat 2 v
  onBit (bit v 3) (execKeyClear slot) (onBit (bit v 2) (execKeyLoad slot) s)

/-- KEY_DIS: disabling a slot discards the images accepted under it (R381). -/
def writeKeyDis (v : Nat) (s : State) : State :=
  let a := regAt .boot 0 0x64
  let old := getR s a
  forEach ((List.range 4).filter (fun k => bit v k && !bit old k)) dropImages (setR a (v % 16) s)

/-- PORT_CTRL. -/
def writePortCtrl (p v : Nat) (s : State) : State :=
  let p : Fin 16 := Fin.ofNat 16 p
  onBit (bit v 2) (execPortDownCmd p) (onBit (bit v 1) (execPortRetrainCmd p) (outState s (execPortEnable p (bit v 0) s)))

/-- CTX_CTRL: EN by the physical function or the owner, then KILL, RELEASE, EVICT (R342). -/
def writeCtxCtrl (fn c v : Nat) (s : State) : State :=
  let f : Fin 16 := Fin.ofNat 16 fn
  let k : Fin 256 := Fin.ofNat 256 c
  let s := if bit v 0 then outState s (execCtxEnable f k s) else disableCtx c s
  onBit (bit v 3) (execEvict f k) (onBit (bit v 2) (execRelease f k) (onBit (bit v 1) (execKill f k) s))

/-- CTX page: what is ignored while EN = 1, and what only the physical function writes (R342). -/
def ctxWritable (s : State) (fn c off : Nat) : Bool :=
  if 0x44 ≤ off ∧ off ≤ 0x64 then !ctxEn s c && (fn == 0 || decide (0x50 ≤ off)) else true

/-- LIG_CTX and CCB_VA are held while a step is open (R309). -/
def ligWritable (s : State) (off : Nat) : Bool := !(s.lig.open_.isSome && (off == 0x44 || off == 0x48 || off == 0x4C))

/-- A register without a command: RW and RWL bits take the value, W1C bits written 1 clear, and the high word of a 64-bit value
puts it in effect (R8, R10, R11). -/
def storeReg (a v : Nat) (r : RegInfo) (s : State) : State :=
  let keep := getR s a &&& (r.w1c &&& (0xFFFF_FFFF ^^^ v))
  let rest := getR s a &&& (r.rc ||| r.ro)
  let s := setR a ((v &&& (r.rw ||| r.rwl ||| r.wo)) ||| keep ||| rest) s
  if 4 ≤ a ∧ isRwLow (a - 4) then setPair (effAt (a - 4)) (getPair s (a - 4)) s else s

/-- XING_CFG, in HELD alone: the crossings are in fast-crossing mode or in service mode at once (R355, R439). -/
def writeXing (v : Nat) (s : State) : State :=
  setBoot (fun b => { b with service := !bit v 0 }) (setR (regAt .understory 0 0x4C) (v % 2) s)

/-- A write of a register of a page. -/
def writePage (fn : Nat) (p : Page) (j off v : Nat) (s : State) : State :=
  let a := regAt p j off
  if p = .vfunc ∧ !bit s.boot.vfEn j then s
  else if off = 0x10 then writeEvent p j v 0 s
  else if off = 0x14 then writeEventEn p j v s
  else
    match regInfo p off with
    | none => s
    | some r =>
      if r.rwl ≠ 0 ∧ s.boot.st ≠ .held then countLocked s
      else if r.rw ||| r.rwl ||| r.wo ||| r.w1c = 0 then s
      else
        match p, off with
        | .boot, 0x44 => writeBootCmd v s
        | .boot, 0x64 => writeKeyDis v s
        | .boot, 0x68 => writeKeyCmd v s
        | .security, 0x40 => onBit (bit v 0) execAttGo s
        | .pcie, 0x44 => writeIrq v s
        | .understory, 0x4C => writeXing v s
        | .ranger, 0x40 => writePwr v s
        | .spatter, 0x58 => onBit (bit v 0) execSptGo s
        | .mmu, 0x40 => onBit (bit v 8) (execPtInv (Fin.ofNat 256 v)) s
        | .port, 0x44 => writePortCtrl j v s
        | .ctx, 0x40 => writeCtxCtrl fn j v s
        | .ctx, 0x6C => outState s (execHeadVaWrite (Fin.ofNat 16 fn) (Fin.ofNat 256 j) (BitVec.ofNat 32 v) s)
        | .ctx, _ => if ctxWritable s fn j off then storeReg a v r s else s
        | .ligature, _ => if ligWritable s off then storeReg a v r s else s
        | _, _ => storeReg a v r s

/-- A write of 32 aligned bits through a function (R7, R428 to R430). -/
def writeReg (fn off v : Nat) (s : State) : State :=
  if off % 4 ≠ 0 then s
  else
    match place s fn off with
    | none => s
    | some a =>
      match pageAt a with
      | some (p, j) => writePage fn p j (a % 0x1000) v s
      | none => writeWindow a v s

/-! ## The commands -/

/-- REGISTER_WRITE. -/
def execRegisterWrite (fn : Fin 16) (off : BitVec 28) (val : Word32) (s : State) : Host.Outcome State Fault Refusal :=
  .next (writeReg fn.val off.toNat val.toNat s)

/-- NARROW_ACCESS: a write has no effect, a read returns all ones. -/
def execNarrowAccess (fn : Fin 16) (off : BitVec 28) (size : Nat) (write : Bool) (s : State) : Host.Outcome State Fault Refusal :=
  if !narrowOk off.toNat size then .fault .illFormed
  else .next (if write then s else emit (.bar0 fn.val off.toNat 0xFFFF_FFFF) s)

/-- LOW_WORD_READ: an aligned read; a low word of a read-only pair latches its high word, RC bits clear. -/
def execLowWordRead (fn : Fin 16) (off : BitVec 28) (s : State) : Host.Outcome State Fault Refusal :=
  .next (readReg fn.val off.toNat 0 s)

/-- COUNTER_READ: the value is read and its RC bits clear; what the hardware adds in that cycle stays. -/
def execCounterRead (fn : Fin 16) (off : BitVec 28) (inc : Word32) (s : State) : Host.Outcome State Fault Refusal :=
  .next (readReg fn.val off.toNat inc.toNat s)

/-- EVENT_CLEAR: a write of W1C bits, in the cycle in which the hardware sets `set`. -/
def execEventClear (off : BitVec 28) (val set : Word32) (s : State) : Host.Outcome State Fault Refusal :=
  let a := off.toNat
  match pageAt a with
  | none => .next s
  | some (p, j) =>
    if a % 0x1000 = 0x10 then .next (writeEvent p j val.toNat set.toNat s)
    else
      match regInfo p (a % 0x1000) with
      | none => .next s
      | some r =>
        if r.w1c = 0 then .next s
        else .next (setR a ((getR s a &&& (0xFFFF_FFFF ^^^ (val.toNat &&& r.w1c))) ||| (set.toNat &&& r.w1c)) s)

/-- EVENT_EN_WRITE: an enable written for a bit already set raises PEND and sends one message. -/
def execEventEnWrite (off : BitVec 28) (val : Word32) (s : State) : Host.Outcome State Fault Refusal :=
  match pageAt off.toNat with
  | none => .next s
  | some (p, j) => if off.toNat % 0x1000 = 0x14 then .next (writeEventEn p j val.toNat s) else .next s

/-- EVT_EN_SET: EVT_EN written 1 with EVT_VECTOR. -/
def execEvtEnSet (vec : BitVec 6) (s : State) : Host.Outcome State Fault Refusal := .next (writeIrq (2 ^ 6 + vec.toNat) s)

/-- MSIX_UNMASK: what is pending at the vector, or at every vector of a function that its Command and MSI-X Control words then let send, is sent
once. The table size in MSI-X Control is read-only. -/
def execMsixUnmask (fn : Fin 16) (how : Unmask) (s : State) : Host.Outcome State Fault Refusal :=
  if !vfOn s fn.val then .next s
  else
    match how with
    | .entry vec => .next (writeVecControl fn.val vec.val 0 s)
    | .control command control =>
      let m := getMsix s fn.val
      let s := setMsix fn.val { m with command := command, control := (control &&& 0xC000) ||| (m.control &&& 0x3FFF) } s
      .next (forEach (List.range 64) (flushVec fn.val) s)

/-- PWR_CFG_WRITE. -/
def execPwrCfgWrite (val : Word32) (s : State) : Host.Outcome State Fault Refusal := .next (writePwr val.toNat s)

end Sys2Proof.Machine
end

