-- ==== Sys2Proof/Machine/SeedbankOps.lean ====
section
/-! DEFINITION. The commands of the Seedbank and replay (R404 to R412, R421). -/

namespace Sys2Proof.Machine

/-- What a REPLAYED entry says (R406, R422, R425): the cause, 8 for an update layer, whose Scribes have rolled back; the nib that showed the
error; in ARG1 STEP and, in its high word, the row: an Inkwell row's index, or the DPA of an HBM row over 512 (log 117). -/
def replayNote (s : State) (c cause : Nat) : Note :=
  let x := getCtx s c
  ⟨some c, x.blameNib, if x.upd.isSome then 8 else cause, stepOfCtx s c + 2 ^ 32 * x.blameRow⟩

/-- REPLAYED and its counters (R405, R425, R426). -/
def noteReplay (c cause : Nat) (s : State) : State :=
  let s := modCtx c (fun x => { x with replays := x.replays + 1 }) s
  let s := bump (regAt .seedbank 0 0x60) 31 0 1 (bump (regAt .ctx c 0xE8) 15 0 1 s)
  raise .seedbank 0 0 (replayNote s c cause) s

/-- The plot without its retired groves, when no free grove can take their places (R321). -/
def shrinkPlot (c : Nat) (s : State) : State :=
  let live := liveGroves s c
  let gone := (heldBy s c).filter (fun g => !live.contains g)
  modCtx c (fun x => { x with plot := live }) (forEach gone dropGrove s)

/-- Steps 3 and 4 of R404: pending retirements, then the restart; a plot that has become too small waits for another dispatch. -/
def restartLayer (c : Nat) (r : Record) (stuck : Nat → Nat → Bool) (s : State) : State :=
  let s := forEach (liveGroves s c) (spareGrove (some stuck)) s
  if awaitsReplacement s c then s
  else
    let cause := (getCtx s c).cause
    let s := shrinkPlot c (noteReplay c cause s)
    let x := getCtx s c
    let again (v : Saved) : Saved := { v with restart := true, cause := 0 }
    -- an update layer goes on where its Scribes have rolled back to (R257)
    let going := x.upd.isSome
    let x : Ctx := { setBlame (.ofCause 0) x with drawn := 0, started := going, saved := x.saved.map again }
    if !r.update ∧ x.plot.length < r.plotMin ∧ x.saved.isNone then
      setCtx c { x with st := .ready, phase := .none, urgent := false, wait := 0 } s
    else if going then takeFree (setCtx c { x with phase := .running, since := now s } s)
    else setCtx c { x with phase := .starting } s

/-- REPLAY: the plot has quiesced; after a supply dip its response has ended, and a layer with REPLAY = 0 faults instead (R361). -/
def execReplay (ctx : Fin 256) (stuck : List (Fin 1088 × Fin 4608)) (s : State) : Host.Outcome State Fault Refusal :=
  let x := getCtx s ctx.val
  let due : Bool := x.phase == .replaying || (x.phase == .suspect && !s.supply.dip)
  match due, x.record with
  | true, some r =>
    if x.phase = .suspect ∧ !r.replay then .next (barReplay ctx.val x.cause s)
    else .next (restartLayer ctx.val r (fun p row => stuck.any (fun e => e.1.val == p && e.2.val == row)) s)
  | _, _ => .next s

/-- MARGIN_LOW: a nib in service below MARGIN_PCT for 16 awake ticks becomes retiring (R408). -/
def execMarginLow (nib : Fin 1088) (s : State) : Host.Outcome State Fault Refusal :=
  let p := nib.val
  let q := getPNib s p
  if getF s (regAt .seedbank 0 0x40) 11 5 ≠ 0 ∧ 16 ≤ q.lowTicks ∧ pnibServes s p ∧ !q.retiring then
    let step := match (getGrove s (p / 17)).owner with
      | some c => stepOfCtx s c
      | none => 0
    .next (nibRetiring p (raise .seedbank 0 5 (.args p step) s))
  else .next s

/-- NIB_TRANSPLANT: at a boundary outside a replay, what is pending on the nib's grove. -/
def execNibTransplant (nib : Fin 1024) (s : State) : Host.Outcome State Fault Refusal :=
  let g := nib.val / 16
  if autoSpare s ∧ atBoundary s g ∧ (getGrove s g).pw ≠ .retired ∧ !s.supply.dip then
    .next (transplantNib nib.val (forEach (List.range 17) (fun k s => retireRows (17 * g + k) none s) s))
  else .next s

/-- Copy one nib to the same stop of the replacement; the counters since power-up stay with each logical nib. -/
def copyNib (old new : Nat) (s : State) : State :=
  let n := (dropBadRows (getNib s old)).1
  modNib new (fun m => { n with count := m.count, tlb := [] }) s

/-- GROVE_REPLACE: a free grove takes a retired one's place in its plot (R321, R411). It is woken and scrubbed first. -/
def execGroveReplace (old new : Fin 64) (s : State) : Host.Outcome State Fault Refusal :=
  let x := getGrove s old.val
  let y := getGrove s new.val
  match x.owner with
  | none => .next s
  | some c =>
    let k := getCtx s c
    let waits : Bool := k.phase == .none || k.phase == .replaying || k.phase == .suspect
    if x.pw ≠ .retired ∨ !k.plot.contains old.val ∨ !waits ∨ !groveAvail s new.val ∨ y.owner.isSome ∨ (heirOf s new.val).isSome ∨
        s.supply.dip then .next s
    else if s.seedbank.sweeping = some new.val then .next (stopSweep new.val s)
    else if y.pw ≠ .awake then .next (wakeGrove new.val s)
    else
      let s := scrubGrove new.val s
      let s := forEach (List.range 16) (fun i s => copyNib (16 * old.val + i) (16 * new.val + i) s) s
      let s := countingSteps (modGrove new.val (fun z => { z with owner := some c, idle := 0, step := x.step })) s
      let s := dropGrove old.val s
      let s := modCtx c (fun z => { z with plot := z.plot.map (fun g => if g = old.val then new.val else g) }) s
      .next (loseCycles (some c) 3000 s)

/-! ## Sweeps (R408) -/

/-- The free grove swept longest ago. -/
def sweepChoice (s : State) : Option Nat :=
  let before (a b : Nat) : Bool :=
    decide ((getGrove s a).swept < (getGrove s b).swept) || ((getGrove s a).swept == (getGrove s b).swept && decide (a < b))
  (sortBy before ((List.range 64).filter (groveFree s))).head?

/-- SWEEP: SWEEP_INTERVAL seconds have passed since the last one began. -/
def execSweep (s : State) : Host.Outcome State Fault Refusal :=
  let n := getF s (regAt .seedbank 0 0x40) 23 12
  if s.boot.st = .run ∧ n ≠ 0 ∧ s.seedbank.sweeping.isNone ∧ s.seedbank.sweepAt + n * 50000000 ≤ s.uclk then
    match sweepChoice s with
    | none => .next s
    | some g => .next (wakeGrove g { s with seedbank := { s.seedbank with sweeping := some g, lastSweep := g, sweepAt := s.uclk } })
  else .next s

/-- A sweep finds a redundant row bad: the row that is mapped onto it retires, or it is never given to one (R408). -/
def spareRowBad (p bank r : Nat) (s : State) : State :=
  modPNib p (fun q =>
    match q.remap.find? (fun e => e.1 / 256 == bank && e.2 == r) with
    | some e => { q with rowsDue := tabInsert q.rowsDue e.1 true }
    | none => if q.badSpare.contains (bank, r) then q else { q with badSpare := q.badSpare ++ [(bank, r)] }) s

/-- The unit that a sweep's SWEEP_FAIL names (R422, log 154): the map entry of the first row, else nib, else redundant row found. -/
def sweepEntry (s : State) (rows : List (Fin 1088 × Fin 4608)) (nibs : List (Fin 1088)) (spares : List (Fin 1088 × Fin 18 × Fin 4)) : Nat :=
  match rows, nibs, spares with
  | (p, row) :: _, _, _ => rowEntry p.val row.val ((freeRedundant s p.val (row.val / 256)).getD 0)
  | [], p :: _, _ => mapEntry 1 p.val
  | [], [], (p, bank, r) :: _ => rowEntry p.val (256 * bank.val) r.val
  | [], [], [] => 0

/-- The unit found is in the grove's unbound spare nib. -/
def inSpare (s : State) (g p : Nat) : Bool := p == 17 * g + 16 && !pnibServes s p

/-- Findings of a sweep of grove g: rows retire at once, for the grove is free; nibs become retiring. An unbound spare in which anything fails,
a row or a redundant row too, is marked failed as a whole and never inserted (R409). -/
def sweepFound (g : Nat) (find : SweepFind) (s : State) : State :=
  let rows := find.rows.filter (fun e => e.1.val / 17 == g)
  let nibs := find.nibs.filter (fun p => p.val / 17 == g)
  let spares := find.spares.filter (fun e => e.1.val / 17 == g)
  let unit := sweepEntry s rows nibs spares
  let failed : List Nat := (rows.map (fun e => e.1.val) ++ spares.map (fun e => e.1.val)).filter (inSpare s g)
  let mark (e : Fin 1088 × Fin 4608) (s : State) : State :=
    modPNib e.1.val (fun q => { q with rowsDue := tabInsert q.rowsDue e.2.val true }) s
  let s := forEach (rows.filter (fun e => !inSpare s g e.1.val)) mark s
  let s := forEach (spares.filter (fun e => !inSpare s g e.1.val)) (fun e s => spareRowBad e.1.val e.2.1.val e.2.2.val s) s
  let s := forEach failed nibRetiring s
  let s := forEach (List.range 17) (fun k s => modPNib (17 * g + k) (fun q => { q with sweptOk := true }) s) s
  let s := forEach nibs (fun p s => nibRetiring p.val s) s
  let ok := rows.isEmpty && nibs.isEmpty && spares.isEmpty
  let s := if ok then s else raise .seedbank 0 6 (.args g unit) s
  let s := { s with seedbank := { s.seedbank with
    sweeping := none, lastOk := ok, sweeps := satAdd 24 s.seedbank.sweeps 1 } }
  spareGrove none g (modGrove g (fun x => { x with swept := s.uclk }) s)

/-- SWEEP_END: the sweep of the free grove is over; it ends with a scrub. -/
def execSweepEnd (g : Fin 64) (find : SweepFind) (s : State) : Host.Outcome State Fault Refusal :=
  if s.seedbank.sweeping = some g.val ∧ (getGrove s g.val).pw = .awake then
    let s := sweepFound g.val find s
    .next (if (getGrove s g.val).pw = .retired then s else scrubGrove g.val s)
  else .next s

end Sys2Proof.Machine
end

