-- ==== Sys2Proof/Machine/LayerSeq.lean ====
section
/-! DEFINITION. How a dispatched layer starts, ends, and is saved when its plot is taken (R95, R126, R160 to R163, R171 to R179, R192,
R193, R209, R210, R315, R328, R331, R332, R455). -/

namespace Sys2Proof.Machine

/-- A step of a layer's start: it goes on, or something was raised and the start has ended. -/
abbrev Start := Bool × State

/-- One step after another. -/
def Start.andThen (a : Start) (f : State → Start) : Start := if a.1 then f a.2 else a

/-! ## Saving a plot (R331) -/

/-- Rows that show a detection error when they are read for the save. -/
def badRows (n : Nib) : List Nat :=
  (n.rows.filter (fun p => match p.2 with
    | some c => decide (c.syn ≠ [])
    | none => false)).map (fun p => p.1)

/-- Report them; they are withheld, so they come back invalid. -/
def reportBadRows (c : Nat) (nib : Nat) (s : State) : State :=
  let rs := badRows (getNib s nib)
  modNib nib (fun n => rs.foldl (fun n r => n.setCell r none) n) (forEach rs (fun r s => noteIwDetect c nib r 2 s) s)

/-- A pull on its way to a remote row whose valid bit is clear (R351). -/
def stalePull (s : State) (plot : List Nat) : Option Xfer :=
  s.canopy.xfers.find? (fun x =>
    plot.contains (x.nib / 16) && x.kind == .pull && (x.st == .req || x.st == .travel) && ((getNib s x.place).row x.addr).isNone)

/-- Open gather groups issue, and every row in flight lands; a pull that meets a row with its valid bit clear faults the context. -/
def settlePlot (c : Nat) (s : State) : State :=
  let plot := heldBy s c
  let s := forEach (plotNibs plot) (fun n s => if (getNib s n).gather ≠ 0 then gatherPass n s else s) s
  match stalePull s plot with
  | some x => staleRow c x.place x.addr 3 s
  | none => drainPlot plot s

/-- The plot leaves its groves for a save that HBM holds. -/
def leaveWith (c : Nat) (sv : Saved) (s : State) : State :=
  let x := getCtx s c
  let running := x.st = .running
  -- an attempt that an error ends here is lost up to the end of its quiesce (R421)
  let s := if running && x.started && sv.cause != 0 then loseAttempt c sv.cause s else s
  -- each Scribe's 64 bytes go to the header page (R259, log 142)
  let s := if running && x.upd.isSome then moveBytes c 0xA8 512 (blurHeader c s) else s
  let s := forEach (plotNibs (heldBy s c)) (fun n s => modNib n Nib.stopped s) s
  let s := modCtx c (fun y =>
    { y with
      saved := some sv, phase := .none, started := false, st := if running then .ready else y.st, upd := y.upd.map parkNorms, cause := 0,
      preempted := y.preempted || running }) (freePlot c s)
  let s := if running then bump (regAt .ctx c 0xE8) 31 16 1 s else s
  if x.evict then finishEvict c s else s

/-- The plot leaves its groves, saved. `detect` says that a row read for the save had a detection error: a layer that must be replayed for it
restores its pre-images (R257). -/
def leavePlot (c : Nat) (detect : Bool) (s : State) : State :=
  let x := getCtx s c
  let running := x.st = .running
  let sv : Saved :=
    ⟨x.plot.length, (plotNibs x.plot).map (nibToSave s c), running, running && (detect || x.cause != 0 || !x.started),
     if detect then 7 else x.cause, x.step⟩
  leaveWith c sv (if running && detect && x.cause == 0 then rollback c s else s)

/-- A plot that was to come back and is taken again before it has: HBM holds it still. What happened to its layer before and what has reached
it since stays, the first cause of a replay (R405). -/
def leaveUnbrought (c : Nat) (v : Saved) (s : State) : State :=
  let x := getCtx s c
  leaveWith c { v with
    restart := v.restart || x.cause != 0, cause := if v.restart && v.cause != 0 then v.cause else x.cause, step := x.step } s

/-- A rail has crossed integrity in the dip response in force: a save starts again when it ends (R361). -/
def integrityLost (s : State) : Bool := s.supply.dip && s.supply.rails.toList.any (fun r => r.integ)

/-- PLOT_SAVE_DONE: the drained nibs have written their state; `detect` adds an error that the rows themselves do not show. -/
def execPlotSaveDone (c : Fin 256) (detect : Bool) (s : State) : Host.Outcome State Fault Refusal :=
  let c := c.val
  if (getCtx s c).phase ≠ .saving ∨ integrityLost s then .next s
  else
    match (getCtx s c).saved with
    | some v => .next (leaveUnbrought c v s)
    | none =>
    let s := settlePlot c s
    let x := getCtx s c
    if x.phase ≠ .saving then .next s
    else
      let mine := plotNibs (heldBy s c)
      let found := mine.any (fun n => decide (badRows (getNib s n) ≠ []))
      let s := match mine.findSome? (fun n => ((badRows (getNib s n)).head?).map (fun r => (n, r))) with
        | some (n, r) => modCtx c (fun x => { x with blameNib := some n, blameRow := r }) s
        | none => s
      let s := forEach mine (reportBadRows c) s
      match saveAll c (saveNib c (saveVa s c)) (ranked x.plot) s with
      | (some e, s) =>
        let s := match e with
          | .page va why => ptFault c va why s
          | .data _ => s
        .next (if x.st = .running then ctxFault c 0x0204 s else ctxFaultQuiet c 0x0204 0 s)
      | (none, s) => .next (leavePlot c (detect || found) s)

/-! ## Restoring (R331, R332) -/

/-- A nib of a saved plot comes back; cached translations and the counters are those of the nib it comes to. -/
def restoreNib (v n : Nib) : Nib := { v.unbuffered with count := n.count, tlb := n.tlb }

/-- Inkwell row r comes back from its place in the save slot, where its saved valid bit is set. A slot row that HBM cannot give stays
invalid: the first such row (R331). -/
def restoreRow (c va nib r : Nat) (acc : Option VErr × State) : Option VErr × State :=
  if ((getNib acc.2 nib).row r).isNone then acc
  else
    match vRead c (va + 512 * r) 512 acc.2 with
    | (.ok b, s) => (acc.1, modNib nib (fun n => n.writeRow r (rowOfBytes b)) s)
    | (.error e, s) => (acc.1.or (some e), modNib nib (fun n => n.setCell r none) s)

/-- A saved plot comes back into the nibs of its new one: what is internal as it was saved, the Inkwell rows as HBM holds them. The answer
is the first row that could not be read. -/
def restorePlot (c : Nat) (v : Saved) (s : State) : Option VErr × State :=
  let base := saveVa s c
  ((ranked (getCtx s c).plot).zip v.nibs).foldl (fun (acc : Option VErr × State) p =>
    let s := moveBytes c 0xA0 slotBytes (modNib p.1.2 (restoreNib p.2) acc.2)
    (List.range 4096).foldl (fun acc r => restoreRow c (slotVa base p.1.1) p.1.2 r acc) (acc.1, s)) (none, s)

/-- The first dispatch after HEAD walks the save area, of which SAVE_GROVES = 0 leaves the header page; an unusable page faults the context
with reason 4 (R332). -/
def walkSaveArea (c : Nat) (s : State) : Start :=
  if !(getCtx s c).fresh then (true, s)
  else
    let s := modCtx c (fun x => { x with fresh := false }) s
    match probeSave c s with
    | (none, s) => (true, s)
    | (some e, s) =>
      let s := match e with
        | .page va why => if why ≤ 3 then ptFault c va why s else s
        | .data _ => s
      (false, ctxFault c 0x0204 s)

/-! ## Images (R163, R315, R455) -/

/-- Words of a memory image, zero words unlisted. -/
def wordsOf (b : List Byte) : Tab Word32 :=
  ((elemsOf 4 b).zipIdx.filter (fun p => p.1 != 0)).map (fun p => (p.2, BitVec.ofNat 32 p.1))

/-- What a read at a layer's start fails with. -/
def startError (c : Nat) (e : VErr) (s : State) : State := litError c e s

/-- Instruction memory, and data memory bytes with the anchor table in place. -/
def loadImage (c : Nat) (r : Record) (s : State) : (Option (Tab Word32 × List Byte)) × State :=
  let h := (getCtx s c).image
  match vRead c (r.prog + 0x40) (h[0] + h[1]) s with
  | (.error e, s) => (none, startError c e s)
  | (.ok b, s) =>
    match (if h[3] = 0 then (.ok [], s) else vRead c r.anchor h[3] s) with
    | (.error e, s) => (none, startError c e s)
    | (.ok a, s) =>
      let data := (b.drop h[0]) ++ List.replicate (8192 - h[1]) 0
      let nibs := (plotNibs (getCtx s c).plot).length
      let s := moveBytes c 0xA0 (nibs * (h[0] + h[1] + h[3])) s
      (some (wordsOf (b.take h[0]), if h[3] = 0 then data else data.take h[2] ++ a ++ data.drop (h[2] + h[3])), s)

/-! ## Litter operation (R171 to R177) -/

def litStep (c reason : Nat) (r : Record) (s : State) : Start := (false, litFault c reason none r.step.toNat s)

/-- The segment control block as read. -/
def parseScb (r : Record) (b : List Byte) : LitFrame :=
  { op := r.litOp, start := 0, rows := r.litRows, regionVa := fieldOf b 0 8, size := fieldOf b 8 4, top := fieldOf b 0x20 4,
    depth := fieldOf b 0x24 4, pushSeq := fieldOf b 0x28 4, high := fieldOf b 0x2C 4, lastSeg := fieldOf b 0x30 2,
    lastFault := fieldOf b 0x32 1, frameSeq := 0, seed := BitVec.ofNat 64 (fieldOf b 0x10 8) }

/-- The push sequence number after one: 0 is skipped. -/
def nextPushSeq (q : Nat) : Nat := if (q + 1) % 2 ^ 32 = 0 then 1 else (q + 1) % 2 ^ 32

def setLit (c : Nat) (l : LitFrame) (s : State) : State := modCtx c (fun x => { x with lit := some l }) s

/-- BASE_VA is not 2 MiB aligned or lies outside the address space (R171). -/
def LitFrame.misplaced (l : LitFrame) : Bool := l.regionVa % 2 ^ 21 != 0 || decide (2 ^ 48 ≤ l.regionVa)

/-- A push opens its frame (R173). One that is refused, by reason 7 before its overflow, has not started: LAST_SEG stays (DESIGN CHOICE, logs 145
and 146). -/
def openPush (c : Nat) (r : Record) (l : LitFrame) (s : State) : Start :=
  if l.misplaced || r.recompute then litStep c 7 r s
  else if l.size * 4096 < l.top + l.rows + 1 then litStep c 1 r s
  else
    let q := nextPushSeq l.pushSeq
    let l := { l with start := l.top, pushSeq := q, frameSeq := q, lastSeg := r.litSeg }
    match writeScb c l s with
    | (some e, s) => (false, litError c e s)
    | (none, s) => (true, setLit c l s)

/-- A pop or peek finds its frame (R175). LAST_SEG is recorded first (R171); a fault of that write is dropped. Reason 7 is judged before an empty
stack (DESIGN CHOICE, log 145). -/
def openPop (c : Nat) (r : Record) (l : LitFrame) (s : State) : Start :=
  let l := { l with lastSeg := r.litSeg }
  let s := setLit c l (writeScb c l s).2
  if l.misplaced then litStep c 7 r s
  else if l.depth = 0 then litStep c 2 r s
  else if l.top = 0 then litStep c 7 r s
  else
    match vRead c (l.regionVa + 512 * (l.top - 1)) 512 s with
    | (.error e, s) => (false, litError c e s)
    | (.ok h, s) =>
      if fieldOf h 0 2 ≠ r.litSeg ∨ fieldOf h 8 8 ≠ r.step.toNat ∨ fieldOf h 4 4 ≠ r.litRows ∨
          fieldOf h 20 4 + fieldOf h 4 4 + 1 ≠ l.top then
        litStep c 3 r (noteLitter c 3 none (fieldOf h 0 2) (fieldOf h 8 8) s)
      else (true, setLit c { l with start := fieldOf h 20 4, frameSeq := fieldOf h 16 4 } s)

/-- Every layer but an update layer reads the block for its seed. -/
def openLitter (c : Nat) (r : Record) (s : State) : Start :=
  if !vaOk (scbVa s c) 64 then litStep c 7 r s
  else
    match vRead c (scbVa s c) 64 s with
    | (.error e, s) => (false, litError c e s)
    | (.ok b, s) =>
      let l := parseScb r b
      let s := setLit c l s
      if l.op = 0 then (true, s)
      else if l.op = 1 then openPush c r l s
      else openPop c r l s

/-! ## Thinning table (R192, R193, R206) -/

/-- Two regions overlap. -/
def regionsMeet (a b : Nat) : Bool := decide (regionFirst a ≤ regionLast b) && decide (regionFirst b ≤ regionLast a)

def regionBad (r : Nat) : Bool := decide (regionLast r < regionFirst r) || regionMode r == 3

/-- Some two valid regions overlap. -/
def regionsOverlap : List Nat → Bool
  | [] => false
  | r :: t => t.any (regionsMeet r) || regionsOverlap t

/-- The prediction fields of a table. -/
def predFields (b : List Byte) : PredTable :=
  ⟨fieldOf b 0x10 8, fieldOf b 0x18 8, fieldOf b 0x20 4, fieldOf b 0x24 2, match fieldOf b 0x26 1 with
    | 1 => 1 | 2 => 2 | 3 => 4 | _ => 0⟩

/-- Prediction fields that a record with PRED = 1 must not have. -/
def predBad (r : Record) (p : PredTable) : Bool :=
  p.stride == 0 || p.rows == 0 || decide (p.stride < p.rows) || p.es == 0 || !vaOk p.maskVa 512 || !vaOk p.outVa 512 ||
  (r.grid != 0 && decide (aperture < p.outVa + 512 * (p.stride * (r.grid - 1) + p.rows)))

/-- The table that the image names: its regions and its prediction, or a refusal. A record with PRED = 1 and no sampling interval is refused
whether or not there is a table (R206). -/
def loadThin (c : Nat) (r : Record) (data : List Byte) (s : State) : (Option (List Nat × Option PredTable)) × State :=
  let x := getCtx s c
  let h := x.image[4]
  let refuse (s : State) : State := ctxFault c 0x010F (raise .thin 0 1 (.of c 0 x.curRec) (countEvent .thin (regAt .thin 0 0x50) 31 16 s))
  if r.pred && r.sample == 0 then (none, refuse s)
  else if !bit h 31 then (some ([], none), s)
  else
    let b := data.drop (bits h 12 0)
    let rs := (List.range 4).map (fun k => fieldOf b (4 * k) 4)
    let live := rs.filter regionValid
    let p := predFields b
    if live.any regionBad || regionsOverlap live || (r.pred && predBad r p) then
      (none, refuse s)
    else (some (rs, if r.pred && !x.dense then some p else none), s)

/-! ## Starting strands (R95, R126, R160, R163, R179) -/

/-- A nib at a layer's start. -/
def startNib (c : Nat) (imem dmem : Tab Word32) (thin : List Nat × Option PredTable) (n : Nib) : Nib :=
  let n := dropSlots (fun t => t.1 != c) n.stopped
  { n with quill := { n.quill.clear with imem := imem, dmem := dmem }, regions := thin.1, pred := thin.2 }

/-- The strands of the plot start, nib by nib, while nothing faults. -/
def startStrands (c : Nat) (s : State) : State :=
  forEach (ranked (getCtx s c).plot) (fun p s => if nibRuns s p.2 then goStrand p.2 p.1 s else s) s

/-- The circle operation of a layer's start (R290, R303): the open layer opens its step once in a dispatch. -/
def startCircle (c : Nat) (r : Record) (s : State) : Start :=
  if r.ligOp = 1 ∧ (getCtx s c).opened then (true, s)
  else
    let why := ligReason s c r
    if why ≠ 0 then (false, ligInvalid c why r.step.toNat s)
    else if r.ligOp = 1 then openStep c r (modCtx c (fun x => { x with opened := true }) s)
    else (true, s)

/-- A layer's attempt starts. -/
def startAttempt (c : Nat) (r : Record) (s : State) : State :=
  match loadImage c r s with
  | (none, s) => s
  | (some (imem, data), s) =>
    match openLitter c r s with
    | (false, s) => s
    | (true, s) =>
      match loadThin c r data s with
      | (none, s) => s
      | (some thin, s) =>
        match startCircle c r s with
        | (false, s) => s
        | (true, s) =>
          let dmem := wordsOf data
          let s := forEach (plotNibs (getCtx s c).plot) (fun n s => modNib n (startNib c imem dmem thin) s) s
          startStrands c (modCtx c (fun x => { x with phase := .running }) s)

/-- Step 3 of R404 for a plot that has just come back: what is pending on its groves. What the pattern check of a row finds is open (DESIGN
CHOICE, log 162). -/
def spareBrought (c : Nat) (s : State) : State :=
  let n := s.free
  forEach (liveGroves s c) (spareGrove (some (Config.rowStuck n))) (takeFree s)

/-- The Scribes' 64 bytes each of an update layer that resumes come back (R259, log 142). -/
def scribesBack (c : Nat) (s : State) : State :=
  if (getCtx s c).upd.isSome then reserveWays (moveBytes c 0xA0 512 s) else s

/-- The attempt that an error had reached is discarded (R404 step 2): the next one starts from the record, anchor table and images. -/
def discardSaved (cause : Nat) (x : Ctx) : Ctx :=
  { x with
      phase := .replaying, cause := cause, vote := 0, lit := none, miss := if x.dense then x.miss else 0,
      missFlag := x.dense && x.missFlag }

/-- A layer that stopped where an error had reached it: its restart counts as a replay (R331, R405), after what is pending on its groves.
A plot that loses a grove there is first rebuilt, by REPLAY. Cause 0: no error. -/
def restartSaved (c : Nat) (r : Record) (cause : Nat) (s : State) : Start :=
  if cause = 0 then (true, s)
  else if !r.replay then (false, barReplay c cause s)
  else if (getCtx s c).replays ≥ replayLimit s then
    (false, ctxFault c 0x0301 (raise .seedbank 0 1 (.of c cause r.step.toNat) (bump (regAt .seedbank 0 0x64) 15 0 1 s)))
  else
    let s := spareBrought c (unwait c (modCtx c (discardSaved cause) s))
    if (liveGroves s c).length < (getCtx s c).plot.length then (false, scribesBack c s)
    else (true, modCtx c (fun x => { setBlame (.ofCause 0) x with phase := .starting, drawn := 0 }) (noteReplay c cause s))

/-- A layer that goes on where it stopped: an update layer's Scribes, or a plot saved inside a layer. -/
def resumes (x : Ctx) (v : Option Saved) : Bool := x.upd.isSome || (match v with
  | some v => v.running && !v.restart
  | none => false)

/-- The outcome of a close layer whose step is not open any more, as a completion code; none while it is open (R303, R305). -/
def closeCode (s : State) (c : Nat) (r : Record) : Option Nat :=
  let step := r.step.toNat
  match s.lig.open_ with
  | some _ => none
  | none =>
    match s.lig.dead with
    | some (d, t, code) => some (if d = c ∧ t = step then code else s.lig.outcome)
    | none => some s.lig.outcome

/-- A close layer that waits completes where its step has ended. -/
def endWait (c : Nat) (r : Record) (s : State) : State :=
  match (getCtx s c).ligWait, closeCode s c r with
  | true, some code =>
    -- the step has had its close layer: another close or flush of it is refused (R291)
    let s := modLig (fun l => { l with dead := l.dead.filter (fun d => d.1 != c) }) s
    if code = 0x0401 then ctxFault c code s else finishLayer c code s
  | _, _ => s

/-- What follows once the plot is there. -/
def beginLayer (c : Nat) (r : Record) (v : Option Saved) (s : State) : State :=
  let s := modCtx c (fun x => { x with since := now s }) s
  let s := takeFree s
  let x := getCtx s c
  if resumes x v then
    let s := modCtx c (fun x => { x with phase := .running, started := true }) s
    endWait c r (scribesBack c s)
  else
    let s := modCtx c (fun x => { x with started := true }) s
    if r.update then
      let s := forEach (plotNibs (heldBy s c)) (fun n s => modNib n Nib.stopped s) s
      openUpdate c r (reserveWays (modCtx c (fun x => { x with phase := .running }) s))
    else startAttempt c r s

/-- Every grove of the plot is awake, the context's own, and scrubbed where it owed a scrub. -/
def plotReady (s : State) (c : Nat) : Bool :=
  (getCtx s c).plot.all (fun g =>
    let x := getGrove s g
    x.pw == .awake && x.owner == some c && !x.dirty)

/-- The plot of a layer that starts: a saved one comes back, but for an update layer that was not inside it, which leaves it saved (R314).
A row that HBM cannot give makes a layer inside the plot start again; an unusable page faults it. -/
def bringPlot (c : Nat) (r : Record) (s : State) : Start × Option Saved :=
  let x := getCtx s c
  match x.saved with
  | none => (restartSaved c r x.cause s, none)
  | some v =>
    if r.update && !v.running then
      -- the error was the update layer's, not that of the plot, which stays saved
      let s := modCtx c (fun x => { x with saved := some { v with restart := false, cause := 0 } }) s
      (restartSaved c r (if x.cause ≠ 0 then x.cause else if v.restart then v.cause else 0) s, some v)
    else
      let (err, s) := restorePlot c v s
      let s := modCtx c (fun x => { x with saved := none }) s
      match err with
      | some (.page va why) => ((false, ctxFault c 0x0204 (ptFault c va why s)), some v)
      | some (.data dpa) =>
        let s := if v.running && v.cause == 0 then rollback c s else s
        let v := { v with restart := v.running, cause := if v.running && v.cause == 0 then 3 else v.cause }
        (restartSaved c r (if v.restart then v.cause else 0) (modCtx c (fun x => { x with blameRow := dpa / 512 }) s), some v)
      | none => (restartSaved c r (if v.restart then v.cause else 0) s, some v)

/-- LAYER_START. -/
def execLayerStart (ctx : Fin 256) (s : State) : Host.Outcome State Fault Refusal :=
  let c := ctx.val
  let x := getCtx s c
  match x.record with
  | none => .next s
  | some r =>
    if x.st ≠ .running ∨ x.phase ≠ .starting ∨ !plotReady s c then .next s
    else
      match walkSaveArea c s with
      | (false, s) => .next s
      | (true, s) =>
        match bringPlot c r s with
        | ((false, s), _) => .next s
        | ((true, s), v) => .next (beginLayer c r v s)

/-! ## Ending a layer (R161, R174, R175, R209, R210) -/

/-- A nib has ended its part. -/
def nibEnded (n : Nib) : Bool :=
  n.quill.finished && decide (n.mq = []) && decide (n.vq = []) && n.gather == 0 && decide (n.descs = [])

/-- The miss count of a predicted attempt; none where the layer ran without prediction. -/
def missSum (s : State) (plot : List Nat) : Option Nat :=
  let ns := (plotNibs plot).map (getNib s)
  if ns.any (fun n => n.pred.isSome) then some (min (2 ^ 32 - 1) ((ns.map (fun n => n.actives)).sum)) else none

/-- PRED_LAST_MISS, PRED_LAST_INFO and PRED_MISS of a predicted attempt. -/
def notePrediction (c m : Nat) (rerun : Bool) (s : State) : State :=
  let s := setR (regAt .thin 0 0x5C) (c + (if rerun then 2 ^ 8 else 0)) (setR (regAt .thin 0 0x58) m s)
  let s := modCtx c (fun x => { x with miss := m, missFlag := m != 0 }) s
  if m ≠ 0 then raise .thin 0 2 (.of c 0 (getCtx s c).curRec) s else s

/-- The predicted attempt is discarded and the layer starts again dense; this counts toward no limit. -/
def rerunDense (c : Nat) (s : State) : State :=
  let s := raise .thin 0 3 (.of c 0 (getCtx s c).curRec) (countEvent .thin (regAt .thin 0 0x54) 31 16 s)
  modCtx c (fun x =>
    { x with phase := .starting, started := false, dense := true, rerunDense := true, lit := none, vote := 0 }) (quiesce c s)

/-- The strands have ended: completion, or the wait of a close layer. -/
def closeLayer (c : Nat) (r : Record) (s : State) : State :=
  if r.ligOp ≠ 2 then completeLayer c 1 s
  else endWait c r (ligLayerEnd c r (modCtx c (fun x => { x with ligWait := true }) s))

/-- LAYER_END. -/
def execLayerEnd (ctx : Fin 256) (s : State) : Host.Outcome State Fault Refusal :=
  let c := ctx.val
  let x := getCtx s c
  match x.record with
  | none => .next s
  | some r =>
    let ended := (plotNibs x.plot).all (fun n => nibEnded (getNib s n))
    if x.st ≠ .running ∨ x.phase ≠ .running ∨ r.update ∨ x.ligWait ∨ !ended then .next s
    else
      let s := drainPlot x.plot s
      match missSum s x.plot with
      | some m =>
        let again := r.rerun ≠ 0 ∧ r.rerun ≤ m
        let s := notePrediction c m again s
        if again then .next (rerunDense c s)
        else .next (closeLayer c r s)
      | none => .next (closeLayer c r s)

end Sys2Proof.Machine
end

