-- ==== Sys2Proof/Machine/Mgmt.lean ====
section
/-! DEFINITION. The management bus (R450, R451): the FRU record and the management endpoint's commands. -/

namespace Sys2Proof.Machine

/-- Both addresses answer while VAON is up and the Understory is released. -/
def smbusUp (s : State) : Bool := s.power.vaon && s.power.released

/-- SMB_ALERT# is asserted while a management event bit is set (R443, R451). -/
def smbAlert (s : State) : Bool := s.power.mevent != 0

/-- SMBus's packet error code: the CRC-8 of x⁸ + x² + x + 1 over every byte of the transfer, the highest bit first (R450; PRESUMED, log 54). -/
def pec (bytes : List Byte) : Byte :=
  bytes.foldl (fun c b => (8 : Nat).repeat (fun (d : Byte) => if d.msb then (d <<< 1) ^^^ 7 else d <<< 1) (c ^^^ b)) 0

/-- What a read at a 7-bit address answers: the data and the packet error code over the address to write to, the byte written, the address to
read from and the data. -/
def smbusRead (addr : Nat) (sent : Byte) (data : List Byte) : List Byte :=
  data ++ [pec (bytesOf 1 (2 * addr) ++ [sent] ++ bytesOf 1 (2 * addr + 1) ++ data)]

/-- A block read of the management endpoint: the byte count, the data, the packet error code. -/
def endpoint (code : Byte) (data : List Byte) (s : State) : Host.Outcome State Fault Refusal :=
  let addr := 0x60 + s.power.slotId
  if smbusUp s then .next (emit (.smbus addr (smbusRead addr code (bytesOf 1 data.length ++ data))) s) else .next s

/-- FRU_READ: the 256-byte record from an offset on. -/
def execFruRead (off : Byte) (s : State) : Host.Outcome State Fault Refusal :=
  let addr := 0x50 + s.power.slotId
  if smbusUp s then .next (emit (.smbus addr (smbusRead addr off (s.fuses.fru.drop off.toNat))) s) else .next s

/-- IDENT: serial, IDENT_DIGEST. -/
def execIdent (s : State) : Host.Outcome State Fault Refusal := endpoint 1 (bytesOf 8 s.fuses.serial.toNat ++ identDigest s) s

/-- STATE: BOOT_STATE, BOOT_FAULT, SUPV_STATUS, MOD_EN and PWRGD, a byte each in that order (log 54). -/
def execState (s : State) : Host.Outcome State Fault Refusal :=
  endpoint 2 (bytesOf 4 (bootCode s.boot.st + 2 ^ 8 * (s.boot.fault % 256) + 2 ^ 16 * (understoryValue s 0x6C) +
    flag s.power.modEn 24 + flag s.power.pwrgd 25)) s

/-- INPUT: millivolts, milliamperes, watts of the last tick. -/
def execInput (s : State) : Host.Outcome State Fault Refusal :=
  endpoint 3 (bytesOf 4 s.power.inMv ++ bytesOf 4 s.power.inMa ++ bytesOf 4 s.power.inW) s

/-- The hottest stack temperature and its controller. -/
def hottestStack (s : State) : Nat × Nat :=
  (List.range 8).foldl (fun (m : Nat × Nat) k => let t := (getMc s k).tempC; if m.1 < t then (t, k) else m) (0, 0)

/-- TEMP: a byte each: hottest sensor, its index, hottest stack, its controller. -/
def execTemp (s : State) : Host.Outcome State Fault Refusal :=
  endpoint 4 ((bytesOf 1 (min 255 (hottest s).1)) ++ bytesOf 1 (hottest s).2 ++ bytesOf 1 (hottestStack s).1 ++
    bytesOf 1 (hottestStack s).2) s

/-- RAILS: the present voltages, 16 bits each. -/
def execRails (s : State) : Host.Outcome State Fault Refusal :=
  endpoint 5 ((List.range 8).flatMap (fun i => bytesOf 2 (getRail s i).mv)) s

/-- MEVENT: the event bits and the count of PWR_BRAKE# assertions. -/
def execMevent (s : State) : Host.Outcome State Fault Refusal :=
  endpoint 6 (bytesOf 4 (s.power.mevent + 2 ^ 16 * min (2 ^ 16 - 1) s.power.brakes)) s

/-- The byte of a connector: present, CBL_PWR on, the draw of the last tick in 100 mW, which is none without a cable or its supply (R445,
R451). -/
def cableByte (c : Cable) : Nat :=
  flag c.present 0 + flag c.pwrOn 1 + (if c.present && c.pwrOn then 4 * min 63 c.draw else 0)

/-- CABLES: a byte for each connector. -/
def execCables (s : State) : Host.Outcome State Fault Refusal :=
  endpoint 7 ((List.range 4).flatMap (fun k => bytesOf 1 (cableByte (vget Cable.none s.power.cables k)))) s

/-- Conditions that are still present (R451). -/
def meventNow (s : State) : Nat :=
  flag s.supply.trip 0 + flag (s.boot.st == .stopped) 2 + flag s.power.uvNow 3

/-- The packet error code of a block write of the management endpoint is there and right (R450, log 54). -/
def writeOk (s : State) (code : Byte) (w : MgmtWrite) : Bool :=
  w.pec == some (pec (bytesOf 1 (2 * (0x60 + s.power.slotId)) ++ [code, 4] ++ bytesOf 4 w.val.toNat))

/-- MEVENT_CLR: each 1 clears its bit, a 1 in bit 16 the count; a condition still present sets its bit again at once. A write whose packet error
code is wrong or missing changes nothing. -/
def execMeventClr (val : MgmtWrite) (s : State) : Host.Outcome State Fault Refusal :=
  if !smbusUp s || !writeOk s 0x86 val then .next s
  else
    let v := val.val.toNat
    let kept := s.power.mevent &&& (0x1F ^^^ (v % 32))
    .next { s with power := { s.power with
      mevent := kept ||| meventNow s, brakes := if bit v 16 then 0 else s.power.brakes } }

end Sys2Proof.Machine
end

