-- ==== Sys2Proof/Machine/Thinning.lean ====
section
/-! DEFINITION. Sparse MMAs: decoding a tile, the gathered records, the two paths (R189 to R205). -/

namespace Sys2Proof.Machine

/-! ## The tile (R189, R190, R205) -/

/-- A decoded header. -/
structure SparseHead where
  total : Nat
  cnt   : List Nat
  deriving DecidableEq, Repr

def sparseHead (r : Row) : SparseHead :=
  ⟨min 32768 (rowBits r 15 0), (List.range 16).map (fun m => min 2048 (rowBits r (8 * (4 + 2 * m) + 15) (8 * (4 + 2 * m))))⟩

/-- Bytes of an element of a format without scales. -/
def fmtBytes (f : Nat) : Nat := if f ≤ 2 then 2 else 1

/-- The first stream index of tile row m. -/
def SparseHead.prefix_ (h : SparseHead) (m : Nat) : Nat := (h.cnt.take m).foldl (fun a b => a + b) 0

/-- Stream indexes of tile row m, in order. -/
def SparseHead.entries (h : SparseHead) (m : Nat) : List Nat := (List.range (h.cnt.getD m 0)).map (fun k => h.prefix_ m + k)

/-- Row that holds the run of entry i, and row that holds its value. -/
def runRow (i : Mma) (k : Nat) : Nat := i.aRow + 1 + k / 512
def valueRow (i : Mma) (h : SparseHead) (k : Nat) : Nat := i.aRow + 1 + (h.total + 511) / 512 + fmtBytes i.afmt * k / 512

/-- Stream rows that the unit reads: those of every entry below TOTAL of the MMA's tile rows, also of entries that position 2,048 cuts off, and of
no others; rows within the Inkwell (DESIGN CHOICE, log 152). -/
def streamRows (i : Mma) (h : SparseHead) : List Nat :=
  let ks := ((List.range i.m).flatMap h.entries).filter (fun k => decide (k < h.total))
  ((ks.map (runRow i) ++ ks.map (valueRow i h)).filter (fun r => decide (r ≤ 4095))).eraseDups

/-- Run and value pattern of entry k: both 0 beyond TOTAL, or where either stream row lies beyond row 4,095. -/
def entryAt (i : Mma) (h : SparseHead) (rows : List (Nat × Row)) (k : Nat) : Nat × Nat :=
  let eb := fmtBytes i.afmt
  let b := eb * k % 512
  if k < h.total ∧ runRow i k ≤ 4095 ∧ valueRow i h k ≤ 4095 then
    (rowByte (rowIn rows (runRow i k)) (k % 512), rowBits (rowIn rows (valueRow i h k)) (8 * b + 8 * eb - 1) (8 * b))
  else (0, 0)

/-- Positions and values of a tile row's entries; the first one at 2,048 or beyond ends them. -/
def placeEntries (i : Mma) (h : SparseHead) (rows : List (Nat × Row)) : List Nat → Nat → List (Nat × Nat)
  | [], _ => []
  | k :: t, next =>
    let (run, val) := entryAt i h rows k
    let p := next + run
    if 2048 ≤ p then [] else (p, val) :: placeEntries i h rows t (p + 1)

/-- Every decoded entry, tile row by tile row. -/
def decodeTile (i : Mma) (h : SparseHead) (rows : List (Nat × Row)) : List (List (Nat × Nat)) :=
  (List.range i.m).map (fun m => placeEntries i h rows (h.entries m) 0)

/-! ## The gathered operand (R195) -/

/-- Row and byte of the record of position p. -/
def recordAt (i : Mma) (p : Nat) : Nat × Nat := recordPlace i.wfmt i.wRow (2048 * i.wSrow + p)

/-- Element c of the record at a place. -/
def recordElem (i : Mma) (rows : List (Nat × Row)) (place : Nat × Nat) (c : Nat) : Num :=
  let eb := fmtBytes i.wfmt
  let b := 8 * (place.2 + eb * c)
  elemValue (fmtOfCode i.wfmt) (rowBits (rowIn rows place.1) (b + 8 * eb - 1) b)

/-- One entry's products, added into its accumulator row for an array. -/
def addEntry (i : Mma) (rows : List (Nat × Row)) (a : Nat) (r : AccRow) (e : Nat × Nat) : AccRow :=
  let v := elemValue (fmtOfCode i.afmt) e.2
  let place := recordAt i e.1
  (List.range 16).foldl (fun r n => r.addTerm n (termOfProduct i.anchor v (recordElem i rows place (16 * a + n)))) r

/-! ## Paths (R197 to R200) -/

def densThresh (s : State) : Nat := getF s (regAt .thin 0 0x40) 7 0
def splitLen (s : State) : Nat := getF s (regAt .thin 0 0x40) 19 8

def runsCompacted (s : State) (region total : Nat) : Bool :=
  regionMode region == 1 || (regionMode region == 0 && decide (total < 128 * densThresh s))

/-- Gathered rows that the path reads: those of the entries, or the whole K-block. -/
def gatheredRows (i : Mma) (compacted : Bool) (tile : List (List (Nat × Nat))) : List Nat :=
  if compacted then (tile.flatten.map (fun e => (recordAt i e.1).1)).eraseDups
  else ((List.range 2048).map (fun p => (recordAt i p).1)).eraseDups

/-- A row's entries in parts of SPLIT_LEN (R200); a row without entries has no part. -/
def rowParts (split : Nat) : Nat → List (Nat × Nat) → List (List (Nat × Nat))
  | 0, _ => []
  | fuel + 1, es =>
    if es = [] then []
    else if split = 0 ∨ es.length ≤ split then [es]
    else es.take split :: rowParts split fuel (es.drop split)

/-- The bank that an entry's record lies in: position mod 16 (R195). -/
def entryBank (e : Nat × Nat) : Nat := e.1 % 16

/-- The lookahead of a lane when it offers a vector (R199): it fills from the part until it holds entries in all 16 banks, or 64 of them,
or the part is decoded. The answer is the lookahead and the rest of the part. -/
def fillLookahead : List (Nat × Nat) → List (Nat × Nat) → List (Nat × Nat) × List (Nat × Nat)
  | look, [] => (look, [])
  | look, e :: t =>
    if 64 ≤ look.length ∨ (List.range 16).all (fun b => look.any (fun x => entryBank x == b)) then (look, e :: t)
    else fillLookahead (look ++ [e]) t

/-- The lookahead without each bank's earliest entry: what a vector leaves. -/
def leaveVector : List Nat → List (Nat × Nat) → List (Nat × Nat)
  | _, [] => []
  | taken, e :: t => if taken.contains (entryBank e) then e :: leaveVector taken t else leaveVector (entryBank e :: taken) t

/-- Vectors that a lane sends for a part. What a vector takes does not depend on when it is sent: while a lane waits to send, only entries
after each bank's earliest can come. -/
def partVectors : Nat → List (Nat × Nat) → List (Nat × Nat) → Nat
  | 0, _, _ => 0
  | fuel + 1, look, part =>
    let (look, part) := fillLookahead look part
    if look = [] then 0 else 1 + partVectors fuel (leaveVector [] look) part

/-- Vectors that a tile sends: on the compacted path those of its parts, on the expanded path the 128 of each tile row (R198; DEDUCED,
log 110). Entries from the first position ≥ 2,048 of their row on fill no lookahead place and count no vector (R205; DESIGN CHOICE, log 173). -/
def tileVectors (split : Nat) (i : Mma) (compacted : Bool) (tile : List (List (Nat × Nat))) : Nat :=
  if compacted then
    (tile.flatMap (fun es => rowParts split es.length es)).foldl (fun t part => t + partVectors part.length [] part) 0
  else 128 * i.m

/-- Counters of a tile: its path, the rows split, the vectors sent. -/
def countTile (nib : Nat) (i : Mma) (h : SparseHead) (compacted : Bool) (tile : List (List (Nat × Nat))) (s : State) : State :=
  let s := bump (regAt .thin 0 (if compacted then 0x44 else 0x48)) 31 0 1 s
  let split := if compacted ∧ splitLen s ≠ 0 then ((h.cnt.take i.m).filter (fun c => decide (splitLen s < c))).length else 0
  let s := bump (regAt .thin 0 0x4C) 31 0 split s
  let v := tileVectors (splitLen s) i compacted tile
  modNib nib (fun n => { n with count := { n.count with vectors := n.count.vectors + v } }) s

/-- The effect of a sparse MMA whose rows are read; afterwards no array holds weights and the buffers are empty (R202). -/
def Nib.runSparse (n : Nib) (i : Mma) (tile : List (List (Nat × Nat))) (rows : List (Nat × Row)) : Nib :=
  let n := (arraysOf i.amask).foldl (fun n a =>
    (tile.zipIdx).foldl (fun n p =>
      n.setAcc a (i.acc + p.2) (p.1.foldl (addEntry i rows a) ((n.accRow a (i.acc + p.2)).begin i.anchor i.clr 128))) n) n
  { n.unbuffered with held := Vector.replicate 4 none }

/-- SPARSE_ILLEGAL (R204). -/
def sparseIllegal (nib pc reason : Nat) (s : State) : State :=
  let s := modNib nib (fun n => { n with count := { n.count with thinIll := reason } }) s
  nibFault .thin 0 14 nib pc reason (countEvent .thin (regAt .thin 0 0x50) 15 0 s)

/-- The header is read; streams and records follow. -/
def runTile (nib : Nat) (i : Mma) (region : Nat) (head : Row) (s : State) : State :=
  let n := getNib s nib
  let h := sparseHead head
  let compacted := runsCompacted s region h.total
  let ss := streamRows i h
  match n.readRows ss with
  | .ok sd =>
    let tile := decodeTile i h (ss.zip sd)
    let gs := gatheredRows i compacted tile
    match n.readRows gs with
    | .ok gd => modNib nib (fun n => countMma ((popMx n).runSparse i tile (gs.zip gd))) (countTile nib i h compacted tile s)
    | r => readFailed nib 0 r s
  | r => readFailed nib 0 r s

/-- Issue a sparse MMA, the queue head. Reason 7 of R84 judges row formulas that a sparse MMA does not read by: its rows cannot lie outside the
Inkwell (R196), so it never applies (DESIGN CHOICE, log 151). -/
def issueSparse (nib : Nat) (e : MxEntry) (region : Nat) (s : State) : State :=
  let n := getNib s nib
  let i := Mma.ofWord e.word
  if i.shapeReason ≠ 0 then mxIllegal nib e.pc i.shapeReason s
  else if i.sparseReason ≠ 0 then sparseIllegal nib e.pc i.sparseReason s
  else if i.idle then modNib nib (fun n => countMma (popMx n)) s
  else
    match (if i.clr then none else accCheck (n.mmaRows i) i.anchor 128) with
    | some err => accFault nib e.pc err s
    | none =>
      match n.readRows [i.aRow] with
      | .ok [head] => runTile nib i region head s
      | r => readFailed nib 0 r s

/-- SPARSE_MMA_ISSUE. -/
def execSparseMmaIssue (nib : Fin 1024) (ups : List Upset) (s : State) : Host.Outcome State Fault Refusal :=
  mxRow (fun n w => isSparse n.regions w) (fun nib e s =>
    match regionOf (getNib s nib).regions (Mma.ofWord e.word).aRow with
    | some region => issueSparse nib e region s
    | none => s) nib ups s

end Sys2Proof.Machine
end

