-- ==== Sys2Proof/Machine/Dispatch.lean ====
section
/-! DEFINITION. What each command does to everything but the queue: one arm for each row of the table. -/

namespace Sys2Proof.Machine

def exec (i : Instr) (s : State) : Host.Outcome State Fault Refusal :=
  match i with
  | .registerWrite fn off val => Sys2Proof.Machine.execRegisterWrite fn off val s
  | .narrowAccess fn off size write => Sys2Proof.Machine.execNarrowAccess fn off size write s
  | .lowWordRead fn off => Sys2Proof.Machine.execLowWordRead fn off s
  | .counterRead fn off inc => Sys2Proof.Machine.execCounterRead fn off inc s
  | .eventClear off val set => Sys2Proof.Machine.execEventClear off val set s
  | .eventEnWrite off val => Sys2Proof.Machine.execEventEnWrite off val s
  | .evtEnSet vec => Sys2Proof.Machine.execEvtEnSet vec s
  | .msixUnmask fn how => Sys2Proof.Machine.execMsixUnmask fn how s
  | .arm => Sys2Proof.Machine.execArm s
  | .verifyComplete => Sys2Proof.Machine.execVerifyComplete s
  | .disarm => Sys2Proof.Machine.execDisarm s
  | .disarmDone => Sys2Proof.Machine.execDisarmDone s
  | .mapGo => Sys2Proof.Machine.execMapGo s
  | .mapApplied failed => Sys2Proof.Machine.execMapApplied failed s
  | .selfMap => Sys2Proof.Machine.execSelfMap s
  | .selfMapDone entries failed => Sys2Proof.Machine.execSelfMapDone entries failed s
  | .imgGo => Sys2Proof.Machine.execImgGo s
  | .imageVerified => Sys2Proof.Machine.execImageVerified s
  | .keyLoad slot => Sys2Proof.Machine.execKeyLoad slot s
  | .keyParsed => Sys2Proof.Machine.execKeyParsed s
  | .keyClear slot => Sys2Proof.Machine.execKeyClear slot s
  | .attGo => Sys2Proof.Machine.execAttGo s
  | .attDone => Sys2Proof.Machine.execAttDone s
  | .sptGo => Sys2Proof.Machine.execSptGo s
  | .spatterDone => Sys2Proof.Machine.execSpatterDone s
  | .ptInv ctx => Sys2Proof.Machine.execPtInv ctx s
  | .invDone => Sys2Proof.Machine.execInvDone s
  | .ctxEnable fn ctx => Sys2Proof.Machine.execCtxEnable fn ctx s
  | .kill fn ctx => Sys2Proof.Machine.execKill fn ctx s
  | .killDone ctx => Sys2Proof.Machine.execKillDone ctx s
  | .release fn ctx => Sys2Proof.Machine.execRelease fn ctx s
  | .evict fn ctx => Sys2Proof.Machine.execEvict fn ctx s
  | .headVaWrite fn ctx hi => Sys2Proof.Machine.execHeadVaWrite fn ctx hi s
  | .watchWake ctx => Sys2Proof.Machine.execWatchWake ctx s
  | .pwrCfgWrite val => Sys2Proof.Machine.execPwrCfgWrite val s
  | .portEnable p en => Sys2Proof.Machine.execPortEnable p en s
  | .portRetrainCmd p => Sys2Proof.Machine.execPortRetrainCmd p s
  | .portDownCmd p => Sys2Proof.Machine.execPortDownCmd p s
  | .bar2Read fn off len => Sys2Proof.Machine.execBar2Read fn off len s
  | .bar2Write fn off data => Sys2Proof.Machine.execBar2Write fn off data s
  | .fruRead off => Sys2Proof.Machine.execFruRead off s
  | .ident => Sys2Proof.Machine.execIdent s
  | .state => Sys2Proof.Machine.execState s
  | .input => Sys2Proof.Machine.execInput s
  | .temp => Sys2Proof.Machine.execTemp s
  | .rails => Sys2Proof.Machine.execRails s
  | .mevent => Sys2Proof.Machine.execMevent s
  | .cables => Sys2Proof.Machine.execCables s
  | .meventClr val => Sys2Proof.Machine.execMeventClr val s
  | .powerOn => Sys2Proof.Machine.execPowerOn s
  | .understoryRelease => Sys2Proof.Machine.execUnderstoryRelease s
  | .modEnAssert => Sys2Proof.Machine.execModEnAssert s
  | .pwrgdRelease => Sys2Proof.Machine.execPwrgdRelease s
  | .modEnDeassert => Sys2Proof.Machine.execModEnDeassert s
  | .inputPowerLoss => Sys2Proof.Machine.execInputPowerLoss s
  | .perstDeassert => Sys2Proof.Machine.execPerstDeassert s
  | .configReady => Sys2Proof.Machine.execConfigReady s
  | .linkTrained rate width flit => Sys2Proof.Machine.execLinkTrained rate width flit s
  | .hostReset kind => Sys2Proof.Machine.execHostReset kind s
  | .vfFlr vf => Sys2Proof.Machine.execVfFlr vf s
  | .pwrBrakeAssert => Sys2Proof.Machine.execPwrBrakeAssert s
  | .pwrBrakeRelease => Sys2Proof.Machine.execPwrBrakeRelease s
  | .cblOverload k => Sys2Proof.Machine.execCblOverload k s
  | .railWarning rail mv => Sys2Proof.Machine.execRailWarning rail mv s
  | .railRecover mv => Sys2Proof.Machine.execRailRecover mv s
  | .dipRecoveryEnd below => Sys2Proof.Machine.execDipRecoveryEnd below s
  | .supplySuspect rail mv => Sys2Proof.Machine.execSupplySuspect rail mv s
  | .supplyReset rail => Sys2Proof.Machine.execSupplyReset rail s
  | .vaonReset => Sys2Proof.Machine.execVaonReset s
  | .fabricUnlock pll => Sys2Proof.Machine.execFabricUnlock pll s
  | .deviceStopped => Sys2Proof.Machine.execDeviceStopped s
  | .pllLockTimeout g => Sys2Proof.Machine.execPllLockTimeout g s
  | .pllLockLoss g => Sys2Proof.Machine.execPllLockLoss g s
  | .understoryTick tick => Sys2Proof.Machine.execUnderstoryTick tick s
  | .plotSaveDone ctx detect => Sys2Proof.Machine.execPlotSaveDone ctx detect s
  | .ctxEvict => Sys2Proof.Machine.execCtxEvict s
  | .groveSleep g => Sys2Proof.Machine.execGroveSleep g s
  | .groveSleepDone g => Sys2Proof.Machine.execGroveSleepDone g s
  | .groveWakeDone g lock => Sys2Proof.Machine.execGroveWakeDone g lock s
  | .layerStart ctx => Sys2Proof.Machine.execLayerStart ctx s
  | .layerEnd ctx => Sys2Proof.Machine.execLayerEnd ctx s
  | .groveScrubDone g => Sys2Proof.Machine.execGroveScrubDone g s
  | .replay ctx stuck => Sys2Proof.Machine.execReplay ctx stuck s
  | .marginLow nib => Sys2Proof.Machine.execMarginLow nib s
  | .nibTransplant nib => Sys2Proof.Machine.execNibTransplant nib s
  | .groveReplace old new => Sys2Proof.Machine.execGroveReplace old new s
  | .sweep => Sys2Proof.Machine.execSweep s
  | .sweepEnd g find => Sys2Proof.Machine.execSweepEnd g find s
  | .aluAdd nib => Sys2Proof.Machine.execAluAdd nib s
  | .aluSub nib => Sys2Proof.Machine.execAluSub nib s
  | .aluAnd nib => Sys2Proof.Machine.execAluAnd nib s
  | .aluOr nib => Sys2Proof.Machine.execAluOr nib s
  | .aluXor nib => Sys2Proof.Machine.execAluXor nib s
  | .aluSll nib => Sys2Proof.Machine.execAluSll nib s
  | .aluSrl nib => Sys2Proof.Machine.execAluSrl nib s
  | .aluSra nib => Sys2Proof.Machine.execAluSra nib s
  | .aluMul nib => Sys2Proof.Machine.execAluMul nib s
  | .aluSlt nib => Sys2Proof.Machine.execAluSlt nib s
  | .aluSltu nib => Sys2Proof.Machine.execAluSltu nib s
  | .aluFlt nib => Sys2Proof.Machine.execAluFlt nib s
  | .aluFeq nib => Sys2Proof.Machine.execAluFeq nib s
  | .aluFadd nib => Sys2Proof.Machine.execAluFadd nib s
  | .aluFmul nib => Sys2Proof.Machine.execAluFmul nib s
  | .addi nib => Sys2Proof.Machine.execAddi nib s
  | .lui nib => Sys2Proof.Machine.execLui nib s
  | .lw nib => Sys2Proof.Machine.execLw nib s
  | .sw nib => Sys2Proof.Machine.execSw nib s
  | .beq nib => Sys2Proof.Machine.execBeq nib s
  | .bne nib => Sys2Proof.Machine.execBne nib s
  | .blt nib => Sys2Proof.Machine.execBlt nib s
  | .bge nib => Sys2Proof.Machine.execBge nib s
  | .jal nib => Sys2Proof.Machine.execJal nib s
  | .jalr nib => Sys2Proof.Machine.execJalr nib s
  | .mxq nib => Sys2Proof.Machine.execMxq nib s
  | .vxq nib => Sys2Proof.Machine.execVxq nib s
  | .dma nib => Sys2Proof.Machine.execDma nib s
  | .wsig nib => Sys2Proof.Machine.execWsig nib s
  | .wsigDone nib => Sys2Proof.Machine.execWsigDone nib s
  | .wtag nib => Sys2Proof.Machine.execWtag nib s
  | .wtagDone nib => Sys2Proof.Machine.execWtagDone nib s
  | .rsum nib => Sys2Proof.Machine.execRsum nib s
  | .rsumDone nib => Sys2Proof.Machine.execRsumDone nib s
  | .csrr nib => Sys2Proof.Machine.execCsrr nib s
  | .csrw nib => Sys2Proof.Machine.execCsrw nib s
  | .vwait nib => Sys2Proof.Machine.execVwait nib s
  | .vwaitDone nib => Sys2Proof.Machine.execVwaitDone nib s
  | .strandEnd nib => Sys2Proof.Machine.execStrandEnd nib s
  | .issueStall nib => Sys2Proof.Machine.execIssueStall nib s
  | .quillWait nib => Sys2Proof.Machine.execQuillWait nib s
  | .vecStall nib => Sys2Proof.Machine.execVecStall nib s
  | .dmaStall nib desc => Sys2Proof.Machine.execDmaStall nib desc s
  | .scrStall mc => Sys2Proof.Machine.execScrStall mc s
  | .mmaIssue nib ups => Sys2Proof.Machine.execMmaIssue nib ups s
  | .gatherPass nib timedOut ups => Sys2Proof.Machine.execGatherPass nib timedOut ups s
  | .sparseMmaIssue nib ups => Sys2Proof.Machine.execSparseMmaIssue nib ups s
  | .readoutIssue nib => Sys2Proof.Machine.execReadoutIssue nib s
  | .accclrIssue nib => Sys2Proof.Machine.execAccclrIssue nib s
  | .vadd nib => Sys2Proof.Machine.execVadd nib s
  | .vsub nib => Sys2Proof.Machine.execVsub nib s
  | .vmul nib => Sys2Proof.Machine.execVmul nib s
  | .vfma nib => Sys2Proof.Machine.execVfma nib s
  | .vmax nib => Sys2Proof.Machine.execVmax nib s
  | .vmin nib => Sys2Proof.Machine.execVmin nib s
  | .vabs nib => Sys2Proof.Machine.execVabs nib s
  | .vneg nib => Sys2Proof.Machine.execVneg nib s
  | .vrcp nib => Sys2Proof.Machine.execVrcp nib s
  | .vsqrt nib => Sys2Proof.Machine.execVsqrt nib s
  | .vrsqrt nib => Sys2Proof.Machine.execVrsqrt nib s
  | .vexp2 nib => Sys2Proof.Machine.execVexp2 nib s
  | .vlog2 nib => Sys2Proof.Machine.execVlog2 nib s
  | .vcmplt nib => Sys2Proof.Machine.execVcmplt nib s
  | .vsel nib => Sys2Proof.Machine.execVsel nib s
  | .vfn nib => Sys2Proof.Machine.execVfn nib s
  | .vmov nib => Sys2Proof.Machine.execVmov nib s
  | .vrng nib => Sys2Proof.Machine.execVrng nib s
  | .vld nib ups => Sys2Proof.Machine.execVld nib ups s
  | .vst nib ups => Sys2Proof.Machine.execVst nib ups s
  | .vpop nib => Sys2Proof.Machine.execVpop nib s
  | .vredr nib => Sys2Proof.Machine.execVredr nib s
  | .vredc nib => Sys2Proof.Machine.execVredc nib s
  | .vsum nib => Sys2Proof.Machine.execVsum nib s
  | .vtload nib ups => Sys2Proof.Machine.execVtload nib ups s
  | .descHbmRead nib desc => Sys2Proof.Machine.execDescHbmRead nib desc s
  | .descHbmWrite nib desc ups => Sys2Proof.Machine.execDescHbmWrite nib desc ups s
  | .descLocalCopy nib desc ups => Sys2Proof.Machine.execDescLocalCopy nib desc ups s
  | .push nib desc ups => Sys2Proof.Machine.execPush nib desc ups s
  | .pull nib desc => Sys2Proof.Machine.execPull nib desc s
  | .ptWalk nib desc => Sys2Proof.Machine.execPtWalk nib desc s
  | .dmaRowLand nib desc row => Sys2Proof.Machine.execDmaRowLand nib desc row s
  | .descriptorComplete nib desc => Sys2Proof.Machine.execDescriptorComplete nib desc s
  | .remotePushArrive nib desc row => Sys2Proof.Machine.execRemotePushArrive nib desc row s
  | .pullServe nib desc row ups => Sys2Proof.Machine.execPullServe nib desc row ups s
  | .flitArrive flit crcOk wire => Sys2Proof.Machine.execFlitArrive flit crcOk wire s
  | .seamErrorThreshold link wire => Sys2Proof.Machine.execSeamErrorThreshold link wire s
  | .seamSwitch link => Sys2Proof.Machine.execSeamSwitch link s
  | .mcRequest nib desc => Sys2Proof.Machine.execMcRequest nib desc s
  | .bankBusyRetry nib desc => Sys2Proof.Machine.execBankBusyRetry nib desc s
  | .mcRead mc tag aged errs => Sys2Proof.Machine.execMcRead mc tag aged errs s
  | .patrolRead mc errs => Sys2Proof.Machine.execPatrolRead mc errs s
  | .refresh mc bank stackC => Sys2Proof.Machine.execRefresh mc bank stackC s
  | .pprDone mc held => Sys2Proof.Machine.execPprDone mc held s
  | .stackFail mc => Sys2Proof.Machine.execStackFail mc s
  | .scribeGroupDone mc ctx desc group => Sys2Proof.Machine.execScribeGroupDone mc ctx desc group s
  | .updateCommit ctx => Sys2Proof.Machine.execUpdateCommit ctx s
  | .bucketAgreeing => Sys2Proof.Machine.execBucketAgreeing s
  | .stepClose => Sys2Proof.Machine.execStepClose s
  | .scale p => Sys2Proof.Machine.execScale p s
  | .agreed p => Sys2Proof.Machine.execAgreed p s
  | .partialPkt p => Sys2Proof.Machine.execPartialPkt p s
  | .param p => Sys2Proof.Machine.execParam p s
  | .close p => Sys2Proof.Machine.execClose p s
  | .verdict p => Sys2Proof.Machine.execVerdict p s
  | .abort p => Sys2Proof.Machine.execAbort p s
  | .stepTimeout => Sys2Proof.Machine.execStepTimeout s
  | .signalDetect p => Sys2Proof.Machine.execSignalDetect p s
  | .trainingFrame p frames peer => Sys2Proof.Machine.execTrainingFrame p frames peer s
  | .negotiateTimeout p => Sys2Proof.Machine.execNegotiateTimeout p s
  | .equalizeCandidateEnd p rxErrs txErrs => Sys2Proof.Machine.execEqualizeCandidateEnd p rxErrs txErrs s
  | .identityBlock p => Sys2Proof.Machine.execIdentityBlock p s
  | .identifyTimeout p => Sys2Proof.Machine.execIdentifyTimeout p s
  | .idHoldEnd p => Sys2Proof.Machine.execIdHoldEnd p s
  | .lossOfSignal p => Sys2Proof.Machine.execLossOfSignal p s
  | .codewordReceive p cw => Sys2Proof.Machine.execCodewordReceive p cw s
  | .retrainTimeout p => Sys2Proof.Machine.execRetrainTimeout p s
  | .laneErrorThreshold p lane => Sys2Proof.Machine.execLaneErrorThreshold p lane s
  | .spareReq p lane => Sys2Proof.Machine.execSpareReq p lane s
  | .spareAck p lane sq => Sys2Proof.Machine.execSpareAck p lane sq s
  | .inputUv mv => Sys2Proof.Machine.execInputUv mv s
  | .vfEnable mask => Sys2Proof.Machine.execVfEnable mask s

end Sys2Proof.Machine
end

