-- ==== Sys2Proof/Safety.lean ====
section
/-! DEFINITION. What counts as a safe run. -/

namespace Sys2Proof.Machine

/-- The step answers a next state: neither a fault nor a refusal. -/
def Completes (s : State) : Prop := ∃ t, step s = .next t

/-- Memory is in its canonical form. -/
def MemoryOk (s : State) : Prop := Memory.wf s.hbm = true

end Sys2Proof.Machine
end

