-- ==== Sys2Proof/Certificates/Slice0/Obligations.lean ====
section
/-! DEFINITION. The statements for the provers, with the few predicates they share. -/

namespace Sys2Proof.Spec

open Sys2Proof.Machine

/-! ## Shared predicates -/

/-- A command answers this next state. -/
def Answers (c : Instr) (s t : State) : Prop := exec c s = .next t

/-- PF BAR0 offset of a register, as a command's operand. -/
def pf (a : Nat) : BitVec 28 := BitVec.ofNat 28 a

/-- The state with other register words. -/
def withRegs (r : Tab Word32) (s : State) : State := { s with regs := r }

/-- A register word written. -/
def wrote (a v : Nat) (s : State) : State := withRegs (tabSet 0 s.regs a (BitVec.ofNat 32 v)) s

/-- The boot state replaced. -/
def booted (b : Boot) (s : State) : State := { s with boot := b }

/-- `s` with the words, MSI-X state, messages, log, open-value count and crossing accumulators of `t`: nothing else of `s` is changed. -/
def reported (t s : State) : State :=
  { s with regs := t.regs, msix := t.msix, outs := t.outs, blotter := t.blotter, free := t.free, inTick := t.inTick, xings := t.xings }

/-- Every register word but the one at `a` is as before, where the table of words is in canonical form. -/
def wordsKept (s t : State) (a : Nat) : Prop := tabWf (0 : Word32) s.regs = true → ∀ b, b ≠ a → getR t b = getR s b

/-- An EVENT bit of a page instance is set. -/
def eventSet (t : State) (p : Page) (j e : Nat) : Prop := bit (getR t (regAt p j 0x10)) e = true

/-- Only what the nib with this number holds changes. -/
def onNib (nib : Nat) (n : Nib) (s : State) : State := { s with nibs := tabSet Nib.cold s.nibs nib n }

end Sys2Proof.Spec

open Sys2Proof Sys2Proof.Machine Sys2Proof.Spec

/-! ## The block -/

/-- A step takes the command at the front of the queue, whole, and runs it on the machine with the queue's rest; on an empty queue the
block idles (the model's choice, log 17). -/
def Obligations.StepRunsFrontCommand : Prop :=
  ∀ (s : State), (∀ c rest, s.pending = c :: rest → step s = exec c { s with pending := rest }) ∧ (s.pending = [] → step s = .next s)

/-- Every well-formed command answers a next state in every state: no refusal, no fault. A term that names no access of its row's kind (an
aligned full-width access given to NARROW_ACCESS, an empty BAR2 access) stops with illFormed, the model's choice (log 1). An aligned access to
BAR0 of another width above 32 bits than 64 is answered as a narrow one, the model's choice (log 127). -/
def Obligations.WellFormedCommandsComplete : Prop :=
  ∀ (c : Instr) (s : State), (WellFormed c = true → ∃ t, Answers c s t) ∧ (WellFormed c = false → exec c s = .fault .illFormed) ∧
    (∀ fn (off : BitVec 28) size, 4 < size → size ≠ 8 → off.toNat % size = 0 → Answers (.narrowAccess fn off size true) s s ∧
      Answers (.narrowAccess fn off size false) s (emit (.bar0 fn.val off.toNat 0xFFFF_FFFF) s))

/-- From every state whose memory is in canonical form, every step that answers a next state leaves it so. -/
def Obligations.MemoryFormIsInvariant : Prop :=
  ∀ (s t : State), MemoryOk s → step s = .next t → MemoryOk t

/-- The state after reset: memory lists nothing and is in canonical form, the queue is empty, the device is HELD with BOOT_FAULT 0, the
repair map is not applied, every register word is zero and UCLK_COUNT is 0. -/
def Obligations.ResetState : Prop :=
  MemoryOk State.reset ∧ State.reset.pending = [] ∧ State.reset.hbm.cells = [] ∧ State.reset.boot.st = .held ∧
  State.reset.boot.fault = 0 ∧ State.reset.boot.mapReady = false ∧ (∀ a, getR State.reset a = 0) ∧ State.reset.uclk = 0 ∧
  (∀ c, (getCtx State.reset c).st = .free) ∧ (∀ p, p < 16 → (getPort State.reset p).st = .off) ∧
  (∀ g, g < 64 → (getGrove State.reset g).pw = .gated) ∧ State.reset.blotter.next = 0

/-- No command changes the queue or what is fused into the module: the serial number, the root key of slot 0, the identity key and the
FRU record. -/
def Obligations.QueueAndFusesAreKept : Prop :=
  ∀ (c : Instr) (s t : State), Answers c s t → t.pending = s.pending ∧ t.fuses = s.fuses

/-! ## Register access -/

/-- The host's accesses in BAR0. One narrower than 32 bits, or unaligned: a write has no effect, a read returns 0xFFFF_FFFF. An aligned read of
32 bits returns one word of 32 bits, and an aligned write of 32 bits is carried out. -/
def Obligations.NarrowAccess : Prop :=
  ∀ (fn : Fin 16) (off : BitVec 28) (s : State),
    (∀ size, 0 < size → (size < 4 ∨ off.toNat % size ≠ 0) →
      Answers (.narrowAccess fn off size true) s s ∧
      Answers (.narrowAccess fn off size false) s (emit (.bar0 fn.val off.toNat 0xFFFF_FFFF) s)) ∧
    (off.toNat % 4 = 0 → (∃ t, ∃ v : Word32, Answers (.lowWordRead fn off) s t ∧ t.outs = .bar0 fn.val off.toNat v :: s.outs) ∧
      ∀ v : Word32, ∃ t, Answers (.registerWrite fn off v) s t)

/-- A register that carries no command: a write of the physical function stores its RW and RWL bits, RWL bits in HELD only, and changes
no other word and nothing else. The pages whose writes are conditional (CTX, VFUNC, LIGATURE), SPATTER's pairs and XING_CFG are not in it. -/
def Sys2Proof.Spec.plainReg (p : Page) (off : Nat) : Bool :=
  !(p == .ctx || p == .vfunc || p == .ligature || p == .spatter || p == .security && off == 0x40 || p == .mmu ||
    p == .boot && (off == 0x44 || off == 0x64 || off == 0x68) || p == .pcie && off == 0x44 || p == .ranger && off == 0x40 ||
    p == .port && off == 0x44 || p == .understory && off == 0x4C)

/-- A write by the physical function of a register that carries no command stores its RW and RWL bits and changes no other word and nothing
else. In HELD a write of XING_CFG also puts the crossings in the mode that FAST_XING names. A virtual function writes its own page at VF BAR0
offset 0x10_0000 the same way, a window's pair coming into effect with its high word; it reaches no other function's context, and nothing beyond
its tables. -/
def Obligations.RegisterWriteStores : Prop :=
  ∀ (s : State) (v : Word32),
    (∀ (p : Page) (j off : Nat) (r : RegInfo), pageAt (regAt p j off) = some (p, j) → off < 0x1000 →
      off % 4 = 0 → 0x40 ≤ off → Spec.plainReg p off = true → regInfo p off = some r → r.w1c = 0 → r.rc = 0 → r.ro = 0 →
      r.rw ||| r.rwl ≠ 0 → r.wo = 0 → (r.rwl = 0 ∨ s.boot.st = .held) →
      Answers (.registerWrite 0 (pf (regAt p j off)) v) s (wrote (regAt p j off) (v.toNat &&& (r.rw ||| r.rwl)) s)) ∧
    (s.boot.st = .held → Answers (.registerWrite 0 (pf (regAt .understory 0 0x4C)) v) s
      (booted { s.boot with service := !v.getLsbD 0 } (wrote (regAt .understory 0 0x4C) (v.toNat % 2) s))) ∧
    (∀ fn : Fin 16, fn.val ≠ 0 → bit s.boot.vfEn fn.val = true →
      (∀ k, k < 4 →
        Answers (.registerWrite fn (pf (0x10_0000 + 0x40 + 8 * k)) v) s
          (wrote (regAt .vfunc fn.val (0x40 + 8 * k)) (v.toNat &&& 0xFFE0_0001) s) ∧
        ∃ t, Answers (.registerWrite fn (pf (0x10_0000 + 0x44 + 8 * k)) v) s t ∧ t = withRegs t.regs s ∧
          (tabWf (0 : Word32) s.regs = true → cfgPair t (regAt .vfunc fn.val (0x40 + 8 * k)) =
            getR s (regAt .vfunc fn.val (0x40 + 8 * k)) + 2 ^ 32 * (v.toNat &&& 0xFF_FFFF))) ∧
      (∀ off : BitVec 28, 0x10_1400 ≤ off.toNat ∨ (off.toNat < 0x10_0000 ∧ ctxFunc s (off.toNat / 0x1000) ≠ fn.val) →
        Answers (.registerWrite fn off v) s s))

/-- Offsets of a page that hold no register read as zero and a write to one changes nothing; bits of a register outside its fields read
as zero. -/
def Obligations.ReservedReadsZero : Prop :=
  ∀ (s : State) (p : Page) (j off : Nat),
    (∀ v : Word32, pageAt (regAt p j off) = some (p, j) → p ≠ .vfunc → off < 0x1000 → off % 4 = 0 → 0x18 ≤ off → regInfo p off = none →
      wordAt s (regAt p j off) = 0 ∧ Answers (.registerWrite 0 (pf (regAt p j off)) v) s s) ∧
    (∀ r : RegInfo, 0x18 ≤ off → regInfo p off = some r →
      pageValue s p j off &&& (0xFFFF_FFFF ^^^ (r.rw ||| r.rwl ||| r.w1c ||| r.rc ||| r.ro)) = 0)

/-- Reading the low word of a pair that the device updates returns it and latches the high word: whatever happens next, a read of the
high word by the physical function returns the latched value until it reads a low word. -/
def Obligations.LowWordLatchesHigh : Prop :=
  ∀ (s : State) (a : Nat), a + 4 < 2 ^ 28 → a % 4 = 0 → isRoLow a = true →
    ∃ t, Answers (.lowWordRead 0 (pf a)) s t ∧ t.outs = .bar0 0 a (BitVec.ofNat 32 (latchedWord s 0 a)) :: s.outs ∧
      tabFind? t.latches 0 = some (a, BitVec.ofNat 32 (wordAt s (a + 4))) ∧ t.hbm = s.hbm ∧ t.nibs = s.nibs ∧
      ∀ u : State, u.latches = t.latches →
        ∃ u', Answers (.lowWordRead 0 (pf (a + 4))) u u' ∧ u'.outs = .bar0 0 (a + 4) (BitVec.ofNat 32 (wordAt s (a + 4))) :: u.outs

/-- A read-and-clear counter returns its value and ends holding what the hardware adds in the same cycle; no other word changes. -/
def Obligations.CounterReadClears : Prop :=
  ∀ (s : State) (p : Page) (j off : Nat) (r : RegInfo) (inc : Word32), pageAt (regAt p j off) = some (p, j) → off < 0x1000 →
    off % 4 = 0 → regInfo p off = some r → r.rc ≠ 0 → tabWf (0 : Word32) s.regs = true →
    ∃ t, Answers (.counterRead 0 (pf (regAt p j off)) inc) s t ∧
      t.outs = .bar0 0 (regAt p j off) (BitVec.ofNat 32 (latchedWord s 0 (regAt p j off))) :: s.outs ∧
      getR t (regAt p j off) = (getR s (regAt p j off) &&& (0xFFFF_FFFF ^^^ r.rc)) ||| (inc.toNat &&& r.rc) ∧
      (∀ b, b ≠ regAt p j off → getR t b = getR s b) ∧ t.hbm = s.hbm ∧ t.nibs = s.nibs ∧ t.ctxs = s.ctxs ∧ t.boot = s.boot

/-- Writing 1 to an EVENT bit clears it unless the hardware sets it in the same cycle; every other word stays. -/
def Obligations.EventClear : Prop :=
  ∀ (s : State) (p : Page) (j : Nat) (v set : Word32), pageAt (regAt p j 0x10) = some (p, j) → tabWf (0 : Word32) s.regs = true →
    ∃ t, Answers (.eventClear (pf (regAt p j 0x10)) v set) s t ∧
      getR t (regAt p j 0x10) = (getR s (regAt p j 0x10) &&& (0xFFFF_FFFF ^^^ v.toNat)) ||| (set.toNat &&& pageCap p) ∧
      (∀ b, b ≠ regAt p j 0x10 → getR t b = getR s b) ∧ t.hbm = s.hbm ∧ t.boot = s.boot ∧ t.blotter = s.blotter

/-- The PF vector of page events is live: RUN or STOPPED, EVT_EN 1, neither its table entry nor the function masked. -/
def Sys2Proof.Spec.eventsLive (s : State) (vec : Nat) : Prop :=
  irqLive s = true ∧ getF s (regAt .pcie 0 0x44) 6 6 = 1 ∧ getF s (regAt .pcie 0 0x44) 5 0 = vec ∧ vecMasked s 0 vec = false

/-- Messages. An enable written for a bit that is already set: PEND rises and one message leaves, or, its vector being masked, becomes pending;
while PEND stays as it was, none does. EVT_EN going from 0 to 1 in RUN or STOPPED sends one message for every page whose PEND is 1. Each function,
a virtual one in its own table, masks a vector by its Vector Control, and by unmasking it, or by a write of its Command and MSI-X Control words
that lets it send, sends the message that was pending, once, and clears its pending bit. The layout of a table entry and of the two words is
PRESUMED (log 5). -/
def Obligations.EventMessages : Prop :=
  ∀ (s : State), tabWf (0 : Word32) s.regs = true →
    (∀ (p : Page) (j vec : Nat) (v : Word32), pageAt (regAt p j 0x14) = some (p, j) → Spec.eventsLive s vec →
      ∃ t, Answers (.eventEnWrite (pf (regAt p j 0x14)) v) s t ∧ getR t (regAt p j 0x14) = v.toNat &&& pageCap p ∧
        (pend s p j = false → getR s (regAt p j 0x10) &&& (v.toNat &&& pageCap p) ≠ 0 → t.outs = .msix 0 vec :: s.outs) ∧
        (pend s p j = true → t.outs = s.outs) ∧ t.hbm = s.hbm ∧ t.boot = s.boot) ∧
    (∀ (p : Page) (j vec : Nat) (v : Word32), pageAt (regAt p j 0x14) = some (p, j) → irqLive s = true →
      getF s (regAt .pcie 0 0x44) 6 6 = 1 → getF s (regAt .pcie 0 0x44) 5 0 = vec → vecMasked s 0 vec = true →
      pend s p j = false → getR s (regAt p j 0x10) &&& (v.toNat &&& pageCap p) ≠ 0 → tabWf Msix.cold s.msix = true →
      ∃ t, Answers (.eventEnWrite (pf (regAt p j 0x14)) v) s t ∧ t.outs = s.outs ∧ bit (getMsix t 0).pba vec = true ∧
        (getMsix t 0).masked = (getMsix s 0).masked) ∧
    (∀ (fn : Fin 16) (vec : Fin 64) (v : Word32), vfOn s fn.val = true → v.getLsbD 0 = true →
      Answers (.registerWrite fn (pf (vecControl fn.val vec.val)) v) s (wrote (vecControl fn.val vec.val) 0 s) ∧
      vecMasked (wrote (vecControl fn.val vec.val) 0 s) fn.val vec.val = true) ∧
    (∀ vec : BitVec 6, irqLive s = true → bit (getR s (regAt .pcie 0 0x44)) 6 = false → vecMasked s 0 vec.toNat = false →
      ∃ t, Answers (.evtEnSet vec) s t ∧ getR t (regAt .pcie 0 0x44) = 64 + vec.toNat ∧
        t.outs = List.replicate (eventPages.filter (fun e => pend s e.1 e.2)).length (.msix 0 vec.toNat) ++ s.outs ∧
        t.hbm = s.hbm ∧ t.boot = s.boot) ∧
    (∀ (fn : Fin 16) (c : Instr) (vec : Fin 64) (v : Word32), vfOn s fn.val = true → v.getLsbD 0 = false →
      c ∈ [.msixUnmask fn (.entry vec), .registerWrite fn (pf (vecControl fn.val vec.val)) v] → irqLive s = true →
      (getMsix s fn.val).masked = false → bit (getMsix s fn.val).pba vec.val = true → tabWf Msix.cold s.msix = true →
      ∃ t, Answers c s t ∧ t.outs = .msix fn.val vec.val :: s.outs ∧
        (getMsix t fn.val).pba = putBits (getMsix s fn.val).pba vec.val vec.val 0 ∧ vecMasked t fn.val vec.val = false ∧
        t.hbm = s.hbm) ∧
    (∀ fn : Fin 16, vfOn s fn.val = true → irqLive s = true → tabWf Msix.cold s.msix = true →
      ∀ command control : BitVec 16, ∃ t, Answers (.msixUnmask fn (.control command control)) s t ∧ t.hbm = s.hbm ∧
        (getMsix t fn.val).command = command ∧
        (getMsix t fn.val).control.extractLsb' 14 2 = control.extractLsb' 14 2 ∧
        (getMsix t fn.val).control.extractLsb' 0 14 = (getMsix s fn.val).control.extractLsb' 0 14 ∧
        (command.getLsbD 2 = true → control.getLsbD 15 = true → control.getLsbD 14 = false → (getMsix t fn.val).masked = false ∧
          ∀ vec, vec < 64 → bit (getMsix s fn.val).pba vec = true → bit (getR s (vecControl fn.val vec)) 0 = true →
            .msix fn.val vec ∈ t.outs ∧ bit (getMsix t fn.val).pba vec = false) ∧
        ((command.getLsbD 2 = false ∨ control.getLsbD 15 = false ∨ control.getLsbD 14 = true) → (getMsix t fn.val).masked = true ∧
          t.outs = s.outs ∧ (getMsix t fn.val).pba = (getMsix s fn.val).pba))

/-- PWR_CFG in RUN or STOPPED: each field alone, a value of 0 or above its maximum keeps the value in force; in RUN a read gives the values in
force. In HELD it holds what is written; in VERIFY the write is ignored and counted. -/
def Obligations.PwrCfgWrite : Prop :=
  ∀ (s : State) (v : Word32),
    ((s.boot.st = .run ∨ s.boot.st = .stopped) → tabWf (0 : Word32) s.regs = true →
      ∃ t, Answers (.pwrCfgWrite v) s t ∧
        getF t (regAt .ranger 0 0x40) 11 0 =
          (if 1 ≤ bits v.toNat 11 0 ∧ bits v.toNat 11 0 ≤ 1800 then bits v.toNat 11 0 else getF s (regAt .ranger 0 0x40) 11 0) ∧
        getF t (regAt .ranger 0 0x40) 24 12 =
          (if 1 ≤ bits v.toNat 24 12 ∧ bits v.toNat 24 12 ≤ 6000 then bits v.toNat 24 12 else getF s (regAt .ranger 0 0x40) 24 12) ∧
        (∀ b, b ≠ regAt .ranger 0 0x40 → getR t b = getR s b) ∧ t = withRegs t.regs s) ∧
    (s.boot.st = .run → s.ranger.envW < 2 ^ 12 → s.ranger.capMj < 2 ^ 13 →
      wordAt s (regAt .ranger 0 0x40) = s.ranger.envW + 2 ^ 12 * s.ranger.capMj) ∧
    (s.boot.st = .held → Answers (.pwrCfgWrite v) s (wrote (regAt .ranger 0 0x40) (v.toNat % 2 ^ 25) s)) ∧
    (s.boot.st = .verify → Answers (.pwrCfgWrite v) s (bump (regAt .boot 0 0x70) 31 0 1 s))

/-! ## Boot, keys, images, repair map, attestation -/

/-- ARM in HELD with no image and no map busy, the fabric, memory and PCIe PLLs locked, enters VERIFY; an ARM outside HELD or while an image or
map is busy leaves the state, is counted and recorded as code 0x0B; outside HELD a write to a register with RWL fields is ignored and
counted. That BOOT_FAULT, its detail and its address are 0 after an accepted ARM, and the last two after one that is not, is the model's
choice (log 101), and so is that an accepted ARM needs the PLLs locked (log 121). -/
def Obligations.ArmLocksOrIsRecorded : Prop :=
  ∀ (s : State),
    (s.boot.st = .held ∧ s.boot.imgBusy = false ∧ s.boot.mapBusy = false ∧ clocksLocked s = true →
      Answers .arm s (booted { s.boot with st := .verify, fault := 0, detail := 0, faultAddr := 0 } s)) ∧
    (s.boot.st ≠ .held ∨ s.boot.imgBusy = true ∨ s.boot.mapBusy = true →
      Answers .arm s (booted { s.boot with fault := 0x0B, detail := 0, faultAddr := 0 } (bump (regAt .boot 0 0x70) 31 0 1 s))) ∧
    (∀ (p : Page) (j off : Nat) (r : RegInfo) (v : Word32), s.boot.st ≠ .held → pageAt (regAt p j off) = some (p, j) →
      off < 0x1000 → off % 4 = 0 → 0x40 ≤ off → regInfo p off = some r → r.rwl ≠ 0 →
      Answers (.registerWrite 0 (pf (regAt p j off)) v) s (bump (regAt .boot 0 0x70) 31 0 1 s))

/-- VERIFY's checks in order, the first failure giving the code: a missing image, one below its version, no map in force, a field that is
zero or invalid, a sensor too hot, a rail not above its warning threshold. Its outcome. A check fails: HELD with its code and ARM_REFUSED,
every register word but that event as it was, nothing else changed but what is reported. All pass and the device's digest is not the host's: HELD
with code 0x07 and ARM_REFUSED, the words as before, nothing else but the digest. All pass and it is, no kill or release waiting: RUN in service
mode with the digest accepted, the Ranger's counters and the context counters clear, the bucket full, ports with a rate in DETECT, the bytes of
memory and the contexts as they were. That check 1 of R389 goes kind by kind, a kind below its MIN_VERSION giving code 2 though a later kind is
missing, is the model's reading (log 181). That the bucket is full on entry to RUN is the model's choice (log 155), and so are the detail of code
0x0C, sensors before rails (log 71), and that the accepted digest is that of the last ARM which led to RUN (log 22). -/
def Obligations.VerifyOutcome : Prop :=
  ∀ (s : State), s.boot.st = .verify →
    (∀ code detail addr, verifyChecks s = (code, detail, addr) → code ≠ 0 →
      ∃ t, Answers .verifyComplete s t ∧ Spec.eventSet t .boot 0 0 ∧ Spec.wordsKept s t (regAt .boot 0 0x10) ∧
        t = Spec.reported t (booted { s.boot with st := .held, fault := code, detail := detail, faultAddr := addr } s)) ∧
    (∀ d, verifyChecks s = (0, 0, 0) → d = (shake256 (streamBytes s)).take 32 →
      (d ≠ hostDigest s → ∃ t, Answers .verifyComplete s t ∧ Spec.eventSet t .boot 0 0 ∧ Spec.wordsKept s t (regAt .boot 0 0x10) ∧
        t = Spec.reported t (booted { s.boot with st := .held, fault := 7, detail := 0, faultAddr := 0, digestDev := d } s)) ∧
      (d = hostDigest s → tabWf (0 : Word32) s.regs = true → (∀ c, (getCtx s c).killDue = none ∧ (getCtx s c).releaseDue = false) →
        ∃ t, Answers .verifyComplete s t ∧ t.boot.st = .run ∧ t.boot.service = true ∧ t.boot.digestDev = d ∧
          t.boot.accepted = some d ∧ Spec.eventSet t .boot 0 1 ∧
          (∀ p, p < 16 → (getPort t p).st = if maxRate s p ≠ 0 then .detect else (getPort s p).st) ∧
          t.ranger.tokens = (min (getF s (regAt .ranger 0 0x40) 24 12) (getF s (regAt .ranger 0 0x40) 11 0 * 10 / 3) : Nat) ∧
          (∀ off ∈ [0x70, 0x74, 0x78, 0x7C, 0x80], getR t (regAt .ranger 0 off) = 0) ∧
          (∀ c k, c < 256 → k < 28 → getR t (regAt .ctx c (0x80 + 4 * k)) = 0) ∧ t.times = [] ∧
          (∀ a, t.hbm.byte a = s.hbm.byte a) ∧ t.ctxs = s.ctxs)) ∧
    (∀ k, k < 4 → (∀ m, m < k → ∃ i, vget none s.boot.images m = some i ∧ minVersion s (m + 1) ≤ i.version) →
      (vget none s.boot.images k = none → verifyChecks s = (1, k + 1, 0)) ∧
      (∀ i, vget none s.boot.images k = some i → i.version < minVersion s (k + 1) → verifyChecks s = (2, k + 1, 0))) ∧
    ((∀ m, m < 4 → ∃ i, vget none s.boot.images m = some i ∧ minVersion s (m + 1) ≤ i.version) →
      (s.boot.mapReady = false → verifyChecks s = (6, untrained s, 0)) ∧
      (∀ before n after, s.boot.mapReady = true → needs s = before ++ n :: after →
        (∀ m ∈ before, m.zero (getR s m.off) = false ∧ m.bad (getR s m.off) = false) →
        (n.zero (getR s n.off) = true → verifyChecks s = (8, 0, n.off)) ∧
        (n.zero (getR s n.off) = false → n.bad (getR s n.off) = true → verifyChecks s = (9, 0, n.off))) ∧
      (∀ k, k < 72 → s.boot.mapReady = true → (∀ m ∈ needs s, m.zero (getR s m.off) = false ∧ m.bad (getR s m.off) = false) →
        holdC s ≤ vget 0 s.supply.temps k → (∀ m, m < k → vget 0 s.supply.temps m < holdC s) → verifyChecks s = (0x0C, k, 0)) ∧
      (∀ i, i < 8 → s.boot.mapReady = true → (∀ m ∈ needs s, m.zero (getR s m.off) = false ∧ m.bad (getR s m.off) = false) →
        (∀ m, m < 72 → vget 0 s.supply.temps m < holdC s) → (getRail s i).mv ≤ warnMv s i →
        (∀ m, m < i → warnMv s m < (getRail s m).mv) → verifyChecks s = (0x0C, i, 0)))

/-- DISARM in RUN or STOPPED puts every port in OFF and starts the teardown; in VERIFY it is counted alone. DISARM_DONE ends it: HELD,
every context FREE, every grove that is not retired GATED, code 0x13, or the code 0x20 to 0x23 of the stop before. -/
def Obligations.DisarmTearsDown : Prop :=
  ∀ (s : State),
    (s.boot.st = .verify → Answers .disarm s (bump (regAt .boot 0 0x70) 31 0 1 s)) ∧
    ((s.boot.st = .run ∨ s.boot.st = .stopped) → s.boot.disarming = false →
      ∃ t, Answers .disarm s t ∧ t.boot.disarming = true ∧ (∀ p, p < 16 → (getPort t p).st = .off)) ∧
    (s.boot.disarming = true →
      ∃ t, Answers .disarmDone s t ∧ t.boot.st = .held ∧ t.boot.disarming = false ∧
        t.boot.fault = (if s.boot.st = .stopped ∧ 0x20 ≤ s.boot.fault ∧ s.boot.fault ≤ 0x23 then s.boot.fault else 0x13) ∧
        t.boot.images = s.boot.images ∧ t.boot.keys = s.boot.keys ∧ t.boot.mapReady = s.boot.mapReady ∧ t.ctxs = [] ∧
        (∀ g, g < 64 → (getGrove t g).pw = if (getGrove s g).pw = .retired then .retired else .gated) ∧
        (∀ p, p < 16 → (getPort t p).st = .off))

/-- Keys: LOAD starts a parse in HELD; at its end the slot holds the key or KEY_REJECT is set and it is empty; CLEAR empties a slot; both
discard the images accepted under the slot and no other. That the bytes parsed are those in the window at the parse's end is the model's choice
(log 73). -/
def Obligations.KeySlots : Prop :=
  ∀ (s : State),
    (∀ slot : BitVec 2, s.boot.st = .held → slot ≠ 0 → s.boot.keyParse = none →
      Answers (.keyLoad slot) s (booted { s.boot with keyParse := some slot.toNat } s)) ∧
    (∀ k, k < 4 → s.boot.keyParse = some k →
      ∃ b, Answers .keyParsed s (booted b s) ∧ b.keyParse = none ∧ b.st = s.boot.st ∧
        (Config.keyParses (winRead s keyStage 0 1793) = true →
          vget none b.keys k = some (winRead s keyStage 0 1793) ∧ b.keyReject = false) ∧
        (Config.keyParses (winRead s keyStage 0 1793) = false → vget none b.keys k = none ∧ b.keyReject = true) ∧
        (∀ j, j ≠ k → vget none b.keys j = vget none s.boot.keys j) ∧
        (∀ m i, vget none b.images m = some i ↔ vget none s.boot.images m = some i ∧ i.keySlot ≠ k)) ∧
    (∀ slot : BitVec 2, s.boot.st = .held → slot ≠ 0 →
      ∃ b, Answers (.keyClear slot) s (booted b s) ∧ vget none b.keys slot.toNat = none ∧
        (∀ j, j ≠ slot.toNat → vget none b.keys j = vget none s.boot.keys j) ∧
        (∀ m i, vget none b.images m = some i ↔ vget none s.boot.images m = some i ∧ i.keySlot ≠ slot.toNat))

/-- Images: IMG_GO in HELD makes IMG_BUSY 1. At the end a failed check leaves the images, records its result and raises IMG_REJECTED;
an image that passes is installed with its digest in place of the one of its kind. The checks: format, key, signature, version. That an image which
names a key slot above 3 has no key in its slot, result 2, is the model's reading (log 21). -/
def Obligations.ImageInstall : Prop :=
  ∀ (s : State),
    (s.boot.st = .held → s.boot.imgBusy = false → Answers .imgGo s (booted { s.boot with imgBusy := true } s)) ∧
    (s.boot.imgBusy = true → imageResult s ≠ 0 →
      ∃ t, Answers .imageVerified s t ∧ t.boot.imgResult = imageResult s ∧ t.boot.imgBusy = false ∧ t.boot.images = s.boot.images ∧
        Spec.eventSet t .boot 0 2 ∧ t = Spec.reported t (booted t.boot s)) ∧
    (s.boot.imgBusy = true → imageResult s = 0 →
      ∃ b, Answers .imageVerified s (booted b s) ∧ b.imgResult = 0 ∧ b.imgBusy = false ∧ 1 ≤ winField s imgStage 4 1 ∧
        winField s imgStage 4 1 ≤ 4 ∧
        vget none b.images (winField s imgStage 4 1 - 1) =
          some ⟨winField s imgStage 8 4, winField s imgStage 5 1,
            (shake256 (winRead s imgStage 0 (0x40 + winField s imgStage 0x0C 4))).take 32,
            winRead s imgStage 0x40 (winField s imgStage 0x0C 4)⟩ ∧
        (∀ m, m + 1 ≠ winField s imgStage 4 1 → vget none b.images m = vget none s.boot.images m) ∧
        (winField s imgStage 4 1 = 1 → b.supv = true ∧ (s.boot.supv = true → b.mapReady = false ∧ b.mapBusy = false))) ∧
    (winField s imgStage 0 4 ≠ 0x4946_4D4E → imageResult s = 1) ∧
    (payloadLimit (winField s imgStage 4 1) < winField s imgStage 0x0C 4 → imageResult s = 1) ∧
    (∀ slot len, slot = winField s imgStage 5 1 → len = winField s imgStage 0x0C 4 → imageResult s ≠ 1 →
      (keyOf s slot = none ∨ keyDisabled s slot = true → imageResult s = 2) ∧
      (∀ key, keyOf s slot = some key → keyDisabled s slot = false →
        (Config.falconVerify key (winRead s imgStage 0 (0x40 + len))
          (winRead s imgStage (0x42 + len) (winField s imgStage (0x40 + len) 2)) = false → imageResult s = 3) ∧
        (Config.falconVerify key (winRead s imgStage 0 (0x40 + len))
          (winRead s imgStage (0x42 + len) (winField s imgStage (0x40 + len) 2)) = true →
          imageResult s = if winField s imgStage 8 4 < minVersion s (winField s imgStage 4 1) then 4 else 0)))

/-- The repair map. MAP_GO and SELF_MAP act in HELD with the supervisor running and no map busy or in force: a map that fails the check is recorded
and changes nothing, a header field that is wrong with entry index 0x1_FFFF; a map that passes makes MAP_BUSY 1, and PPR_HARD_EN counts as it stands
then. When it takes effect, stacks train but the failing one, MAP_READY unless one fails, groves of KIND 3 entries are retired and nibs of KIND 1
entries too. A self-built map leaves memory zero and every nib swept. -/
def Obligations.RepairMap : Prop :=
  ∀ (s : State) (failed : Option (Fin 8)),
    (mapFree s = true →
      (∃ sb, sb = { s.seedbank with errReason := (checkMap s).1, errIndex := (checkMap s).2 } ∧
        ((checkMap s).1 = 0 → Answers .mapGo s (booted { s.boot with mapBusy := true, hardEn := hardEnables s } { s with seedbank := sb })) ∧
        ((checkMap s).1 ≠ 0 → Answers .mapGo s { s with seedbank := sb })) ∧
      Answers .selfMap s (booted { s.boot with mapBusy := true, selfBusy := true } s) ∧
      (winField s mapStage 0 4 ≠ 0x5052_4D4E ∨ winField s mapStage 4 2 ≠ 1 ∨ 131064 < winField s mapStage 0x10 4 →
        checkMap s = (1, 0x1_FFFF)) ∧
      (winField s mapStage 0 4 = 0x5052_4D4E → winField s mapStage 4 2 = 1 → winField s mapStage 0x10 4 ≤ 131064 →
        winField s mapStage 8 8 ≠ s.fuses.serial.toNat → checkMap s = (2, 0x1_FFFF))) ∧
    (s.boot.mapBusy = true → s.boot.selfBusy = false →
      ∃ t, Answers (.mapApplied failed) s t ∧ t.boot.mapBusy = false ∧ t.boot.mapReady = failed.isNone ∧ t.hbm = s.hbm ∧
        (∀ m, m < 8 → (getMc t m).trained = (failed.map (fun f => f.val) != some m)) ∧
        (∀ g, g < 64 → mapEntry 3 g ∈ stagedEntries s → (getGrove t g).pw = .retired) ∧
        (∀ p, p < 1088 → mapEntry 1 p ∈ stagedEntries s → (getPNib t p).retired = true)) ∧
    (∀ entries : List Word64, s.boot.selfBusy = true → (checkList (entries.map (fun e => e.toNat))).1 = 0 →
      (∀ e ∈ entries, entryKind e.toNat ≠ 7) → entries.length ≤ 131064 →
      ∃ t, Answers (.selfMapDone entries failed) s t ∧ t.boot.mapBusy = false ∧ t.boot.selfBusy = false ∧
        t.boot.mapReady = failed.isNone ∧ t.boot.selfBuilt = failed.isNone ∧ t.hbm = ⟨[], [], [], []⟩ ∧
        (∀ p, p < 1088 → (getPNib t p).sweptOk = true))

/-- Attestation: ATT_GO captures the nonce, and is ignored while BUSY; ATT_DONE clears BUSY, fills the report, which begins
with version 1 and holds the serial number and the nonce at 0x20, and raises the event; nothing else changes but what is reported. -/
def Obligations.Attestation : Prop :=
  ∀ (s : State),
    (s.boot.attNonce = none → Answers .attGo s (booted { s.boot with
      attNonce := some ((List.range 8).flatMap (fun k => bytesOf 4 (getR s (regAt .security 0 (0x48 + 4 * k))))) } s)) ∧
    (s.boot.attNonce ≠ none → Answers .attGo s s) ∧
    (∀ nonce, s.boot.attNonce = some nonce →
      ∃ t report, Answers .attDone s t ∧
        t = Spec.reported t (booted { s.boot with attNonce := none, attValid := true, report := report } s) ∧
        report.take (reportBody s nonce).length = reportBody s nonce ∧ report.take 4 = bytesOf 4 1 ∧
        (report.drop 8).take 8 = bytesOf 8 s.fuses.serial.toNat ∧ (report.drop 0x20).take nonce.length = nonce ∧
        Spec.eventSet t .security 0 0)

/-- The Spatter generator by registers. Its page begins with the common header, whose STATUS bit 0 is BUSY. A write of 1 to SPT_GO evaluates
the counter and key as they stand, and is ignored while BUSY is 1; SPATTER_DONE gives the four words in SPT_OUT0 to SPT_OUT3 and clears BUSY,
and other registers stay. A key or counter register holds what is written to it, and an evaluation in progress is not affected. -/
def Obligations.SpatterByRegisters : Prop :=
  ∀ (s : State),
    (∀ off ∈ [0x00, 0x04, 0x08, 0x0C, 0x10, 0x14], (regInfo .spatter off).isSome) ∧
    bit (wordAt s (regAt .spatter 0 0x0C)) 0 = s.mmu.spatter.isSome ∧
    exec (.registerWrite 0 (pf (regAt .spatter 0 0x58)) 1) s = exec .sptGo s ∧
    Answers (.registerWrite 0 (pf (regAt .spatter 0 0x58)) 0) s s ∧
    (∀ off ∈ [0x40, 0x44, 0x48, 0x4C, 0x50, 0x54], ∀ v : Word32, tabWf (0 : Word32) s.regs = true →
      ∃ r, Answers (.registerWrite 0 (pf (regAt .spatter 0 off)) v) s (withRegs r s) ∧
        getR (withRegs r s) (regAt .spatter 0 off) = v.toNat ∧ wordAt (withRegs r s) (regAt .spatter 0 off) = v.toNat) ∧
    (s.mmu.spatter = none →
      Answers .sptGo s { s with mmu := { s.mmu with
        spatter := some ((philox10 (getR s (regAt .spatter 0 0x48)) (getR s (regAt .spatter 0 0x4C)) (getR s (regAt .spatter 0 0x50))
          (getR s (regAt .spatter 0 0x54)) (getR s (regAt .spatter 0 0x40)) (getR s (regAt .spatter 0 0x44))).map (BitVec.ofNat 32)) } }) ∧
    (s.mmu.spatter ≠ none → Answers .sptGo s s) ∧
    (∀ w0 w1 w2 w3, s.mmu.spatter = some [w0, w1, w2, w3] → tabWf (0 : Word32) s.regs = true →
      ∃ t, Answers .spatterDone s t ∧ t = { s with regs := t.regs, mmu := { s.mmu with spatter := none } } ∧
        getR t (regAt .spatter 0 0x5C) = w0.toNat ∧ getR t (regAt .spatter 0 0x60) = w1.toNat ∧
        getR t (regAt .spatter 0 0x64) = w2.toNat ∧ getR t (regAt .spatter 0 0x68) = w3.toNat ∧
        ∀ a, (a < regAt .spatter 0 0x5C ∨ regAt .spatter 0 0x68 < a) → getR t a = getR s a)

/-- PT_INV drops every cached translation of the context in every nib and no other, and holds INV_BUSY until INV_DONE; while busy it is
ignored. -/
def Obligations.TranslationInvalidate : Prop :=
  ∀ (s : State) (ctx : Fin 256),
    (s.mmu.inv = none → tabWf Nib.cold s.nibs = true →
      ∃ ns, Answers (.ptInv ctx) s { s with nibs := ns, mmu := { s.mmu with inv := some ctx.val } } ∧
        ∀ n, tabGet Nib.cold ns n =
          { getNib s n with tlb := (getNib s n).tlb.filter (fun e => decide (e.1 / 2 ^ 27 ≠ ctx.val)) }) ∧
    (s.mmu.inv ≠ none → Answers (.ptInv ctx) s s) ∧
    Answers .invDone s { s with mmu := { s.mmu with inv := none } }

/-! ## Contexts -/

/-- EN = 1, written by the physical function or the context's own, makes a FREE context PARKED and clears its accounting registers; by
another function it has no effect. Nothing else changes. -/
def Obligations.ContextEnable : Prop :=
  ∀ (s : State) (fn : Fin 16) (ctx : Fin 256),
    ((getCtx s ctx.val).st = .free → (fn.val = 0 ∨ ctxFunc s ctx.val = fn.val) → tabWf (0 : Word32) s.regs = true →
      ∃ t, Answers (.ctxEnable fn ctx) s t ∧ t = { s with regs := t.regs, ctxs := t.ctxs, times := t.times } ∧
        (∀ d, tabGet EngineTime.zero t.times d = if d = ctx.val then EngineTime.zero else tabGet EngineTime.zero s.times d) ∧
        getCtx t ctx.val = { Ctx.free with st := .parked } ∧ (∀ d, d ≠ ctx.val → getCtx t d = getCtx s d) ∧ ctxEn t ctx.val = true ∧
        (∀ k, k < 28 → getR t (regAt .ctx ctx.val (0x80 + 4 * k)) = 0) ∧
        (∀ a, a ≠ regAt .ctx ctx.val 0x40 → (a < regAt .ctx ctx.val 0x80 ∨ regAt .ctx ctx.val 0xF0 ≤ a) → getR t a = getR s a)) ∧
    (fn.val ≠ 0 → ctxFunc s ctx.val ≠ fn.val → Answers (.ctxEnable fn ctx) s s)

/-- HEAD_VA's high word. In a state other than PARKED the write adds one Blotter entry and changes nothing else. In PARKED, no kill waiting,
it names the record: 0 leaves the context PARKED, without a slot or outside RUN it is runnable, and a resident one is READY or FAULTED once
the record is read.
A woken PARKED context reads NEXT again and a dispatch pass follows: NEXT still zero leaves it PARKED with its watch armed. -/
def Obligations.HeadStartsWorkList : Prop :=
  ∀ (s : State) (fn : Fin 16) (ctx : Fin 256) (hi : Word32) (va : Nat) (x : Ctx), ctxFunc s ctx.val = fn.val →
    va = getR s (regAt .ctx ctx.val 0x68) + 2 ^ 32 * hi.toNat → x = getCtx s ctx.val →
    (x.st ≠ .parked → ∃ b, Answers (.headVaWrite fn ctx hi) s { s with blotter := b, free := s.free + 1, inTick := sinceTick s } ∧
      b.next = nextSeq s.blotter.next ∧
      ∃ e, tabFind? b.ring (s.blotter.next.toNat % 4096) = some e ∧ e.arg1 = BitVec.ofNat 64 va ∧ e.ctx = BitVec.ofNat 8 ctx.val) ∧
    (x.st = .parked → x.killDue = none → va = 0 → Answers (.headVaWrite fn ctx hi) s
      (setCtx ctx.val { x with seq := 0, fresh := true, watch := none, woken := false, curRec := 0, runnable := false } s)) ∧
    (x.st = .parked → x.killDue = none → va ≠ 0 → (s.boot.st ≠ .run ∨ x.slot = none ∧ freeSlot s = none) → Answers (.headVaWrite fn ctx hi) s
      (setCtx ctx.val { x with seq := 0, fresh := true, watch := none, woken := false, curRec := va, runnable := true } s)) ∧
    (x.st = .parked → x.killDue = none → va ≠ 0 → s.boot.st = .run → (x.slot.isSome = true ∨ (freeSlot s).isSome = true) →
      ∃ t, Answers (.headVaWrite fn ctx hi) s t ∧ (getCtx t ctx.val).curRec = va ∧ (getCtx t ctx.val).slot.isSome = true ∧
        ((getCtx t ctx.val).st = .ready ∨ (getCtx t ctx.val).st = .faulted)) ∧
    (x.st = .parked → x.woken = true → x.slot.isSome = true → x.phase = .none →
      ∃ u, Answers (.watchWake ctx) s (pass false u) ∧
        ∀ b v, vRead ctx.val x.curRec 8 s = (.ok b, v) →
          (ofBytes b = 0 → u = setCtx ctx.val { x with record := none, watch := some x.curRec, woken := false, runnable := false } v) ∧
          (ofBytes b ≠ 0 → (getCtx u ctx.val).curRec = ofBytes b ∧ (getCtx u ctx.val).watch = none ∧
            ((getCtx u ctx.val).st = .ready ∨ (getCtx u ctx.val).st = .faulted)))

/-- EVICT, by the context's own function or the physical one, marks a resident context. The eviction itself, once every resident has been
blocked for SWAP_GRACE ticks, takes among the residents that may leave one that no other precedes (lowest priority, then longest blocked):
its plot is saved first, or it leaves its slot at once. -/
def Obligations.EvictionOrder : Prop :=
  ∀ (s : State),
    (∀ (fn : Fin 16) (ctx : Fin 256), (fn.val = 0 ∨ ctxFunc s ctx.val = fn.val) → (getCtx s ctx.val).slot.isSome = true →
      Answers (.evict fn ctx) s (setCtx ctx.val { getCtx s ctx.val with evict := true } s)) ∧
    (getF s (regAt .ranger 0 0x44) 27 16 ≠ 0 → getF s (regAt .ranger 0 0x44) 27 16 ≤ s.ranger.graceTicks → freeSlot s = none →
      (∀ c ∈ residents s, isBlocked (getCtx s c) = true ∧ getF s (regAt .ranger 0 0x44) 27 16 ≤ (getCtx s c).blocked) →
      runnables s ≠ [] → (∃ c ∈ residents s, mayEvict s c = true ∧ (getCtx s c).phase ≠ .saving) →
      ∃ c ∈ residents s, mayEvict s c = true ∧ (getCtx s c).phase ≠ .saving ∧
        (∀ d ∈ residents s, mayEvict s d = true → (getCtx s d).phase ≠ .saving → evictFirst s d c = false) ∧
        ∃ t, Answers .ctxEvict s t ∧
          ((getCtx s c).plot ≠ [] → t = setCtx c { getCtx s c with evict := true, phase := .saving } s) ∧
          ((getCtx s c).plot = [] → (getCtx t c).slot = none ∧ Spec.eventSet t .ranger 0 5))

/-- KILL by the context's own function in RUN: KILLING and resident, with its record, watch and saved plot gone, where it has a slot or one is free,
else waiting for a slot as a runnable context does (the model's choice, log 45); the groves of a plot that is not retained owe a scrub. Outside RUN
the kill waits for the Ranger. KILL_DONE: PARKED with no plot and its groves free, or RETAINED with its plot; the event is raised, and every page
that the context maps as scrub-on-release is zero. That a grove passes to the context whose placement holds it already is the model's choice (log
104). -/
def Obligations.KillScrubs : Prop :=
  ∀ (s : State) (fn : Fin 16) (ctx : Fin 256) (x : Ctx), x = getCtx s ctx.val →
    (ctxFunc s ctx.val = fn.val →
      (x.st = .parked ∨ x.st = .ready ∨ x.st = .running ∨ x.st = .faulted) →
      (s.boot.st = .run → x.killDue = none → ∃ t, Answers (.kill fn ctx) s t ∧ (getCtx t ctx.val).record = none ∧
        (getCtx t ctx.val).watch = none ∧ (getCtx t ctx.val).saved = none ∧ (getCtx t ctx.val).phase = .none ∧
        ((x.slot.isSome = true ∨ (freeSlot s).isSome = true) →
          (getCtx t ctx.val).st = .killing ∧ (getCtx t ctx.val).slot.isSome = true) ∧
        (x.slot = none → freeSlot s = none → (getCtx t ctx.val).killDue = some false ∧ (getCtx t ctx.val).runnable = true) ∧
        ((∀ r, x.record = some r → r.retain = false) → ∀ g, g < 64 → g ∈ x.plot → (getGrove s g).owner = some ctx.val →
          (getGrove s g).pw = .awake → (getGrove t g).dirty = true)) ∧
      (s.boot.st ≠ .run → Answers (.kill fn ctx) s (setCtx ctx.val { x with killDue := some false } s))) ∧
    (s.boot.st = .run → x.st = .killing →
      (x.retain = false → (∀ g ∈ x.plot, (getGrove s g).owner = some ctx.val → (getGrove s g).dirty = false) →
        ∃ t, Answers (.killDone ctx) s t ∧ (getCtx t ctx.val).st = .parked ∧ (getCtx t ctx.val).plot = [] ∧
          Spec.eventSet t .ranger 0 6 ∧
          (∀ g, g < 64 → g ∈ x.plot → (getGrove s g).owner = some ctx.val → (getGrove t g).owner = heirOf s g) ∧
          (∀ p ∈ (scrubPages ctx.val s).1, ∀ a, p ≤ a → a < p + 2 ^ 21 → t.hbm.byte a = 0)) ∧
      (x.retain = true →
        ∃ t, Answers (.killDone ctx) s t ∧ (getCtx t ctx.val).st = .retained ∧ (getCtx t ctx.val).plot = x.plot ∧
          Spec.eventSet t .ranger 0 6))

/-- RELEASE of a RETAINED context, by its own function or the physical one, in RUN: PARKED without a plot, no page locked for it, the image
areas zero, its awake groves free of it and owing a scrub. Outside RUN it waits for the Ranger. -/
def Obligations.ReleaseScrubs : Prop :=
  ∀ (s : State) (fn : Fin 16) (ctx : Fin 256) (x : Ctx), x = getCtx s ctx.val → (fn.val = 0 ∨ ctxFunc s ctx.val = fn.val) →
    x.st = .retained → (s.boot.st ≠ .run → Answers (.release fn ctx) s (setCtx ctx.val { x with releaseDue := true } s)) ∧
    (s.boot.st = .run → ∃ t, Answers (.release fn ctx) s t ∧ (getCtx t ctx.val).st = .parked ∧ (getCtx t ctx.val).plot = [] ∧
      (∀ p ∈ t.hbm.locks, p.2 ≠ ctx.val) ∧
      (∀ p ∈ (imagePieces ctx.val (imagedGroves s ctx.val) s).1, ∀ a, p.1 ≤ a → a < p.1 + p.2 → t.hbm.byte a = 0) ∧
      (∀ g, g < 64 → g ∈ x.plot → (getGrove s g).owner = some ctx.val → (getGrove s g).pw = .awake →
        (getGrove t g).owner = none ∧ (getGrove t g).dirty = true))

/-- PLOT_SAVE_DONE: the plot is saved with its nibs by rank and left; a running layer goes back to READY, pre-empted, and restarts from its start
when it resumes if a row showed an error, an error had reached it, or its attempt had not begun; its clock step persists. A save area that cannot
be written faults the context. A plot that was saved before and has not come back is left as HBM holds it, with the first cause of a replay
kept. That what the save slot's internal areas stand for is kept as data beside them is the model's choice (log 28), and so is that rows with an
error are saved without their valid bits (log 98). -/
def Obligations.PlotSave : Prop :=
  ∀ (s u b v w : State) (ctx : Fin 256) (detect found : Bool) (x : Ctx) (e : Option VErr) (mine : List Nat),
    (getCtx s ctx.val).phase = .saving → integrityLost s = false →
    (∀ o, (getCtx s ctx.val).saved = some o → (getCtx s ctx.val).evict = false →
      ∃ t sv, Answers (.plotSaveDone ctx detect) s t ∧ (getCtx t ctx.val).plot = [] ∧ (getCtx t ctx.val).phase = .none ∧
        (getCtx t ctx.val).saved = some sv ∧ sv.groves = o.groves ∧ sv.nibs = o.nibs ∧ sv.running = o.running ∧
        sv.step = (getCtx s ctx.val).step ∧ (sv.restart = true ↔ o.restart = true ∨ (getCtx s ctx.val).cause ≠ 0) ∧
        sv.cause = (if o.restart = true ∧ o.cause ≠ 0 then o.cause else (getCtx s ctx.val).cause)) ∧
    ((getCtx s ctx.val).saved = none → u = settlePlot ctx.val s → x = getCtx u ctx.val → x.phase = .saving →
    mine = plotNibs (heldBy u ctx.val) → found = mine.any (fun n => decide (badRows (getNib u n) ≠ [])) →
    b = (match mine.findSome? (fun n => ((badRows (getNib u n)).head?).map (fun r => (n, r))) with
      | some (n, r) => setCtx ctx.val { x with blameNib := some n, blameRow := r } u
      | none => u) →
    v = forEach mine (reportBadRows ctx.val) b →
    saveAll ctx.val (saveNib ctx.val (saveVa v ctx.val)) (ranked x.plot) v = (e, w) →
    ∃ t, Answers (.plotSaveDone ctx detect) s t ∧
      (e = none → (getCtx t ctx.val).plot = [] ∧ (getCtx t ctx.val).phase = .none ∧
        (∃ sv, (getCtx t ctx.val).saved = some sv ∧ sv.groves = x.plot.length ∧ sv.nibs = (plotNibs x.plot).map (nibToSave w ctx.val) ∧
          sv.running = decide (x.st = .running) ∧ sv.step = x.step ∧ sv.cause = (if detect || found then 7 else x.cause) ∧
          (sv.restart = true ↔ x.st = .running ∧ (detect = true ∨ found = true ∨ x.cause ≠ 0 ∨ x.started = false))) ∧
        (x.st = .running → (getCtx t ctx.val).st = .ready ∧ (getCtx t ctx.val).preempted = true)) ∧
      (e ≠ none → (getCtx t ctx.val).st = .faulted))

/-! ## BAR2 -/

/-- A BAR2 access inside one 4 KiB block. The physical function's window w lies at 4 GiB × w: enabled, inside HBM, the map in force and no
debug lock against it, it answers base + offset; else it refuses. A read returns the bytes, all ones and poisoned where a codeword
is lost, all ones where the window refuses. A write puts its bytes there and nowhere else, and wakes the watches that it covers, whose addresses
are translated at the write (the model's choice, log 47). -/
def Obligations.Bar2Windows : Prop :=
  ∀ (s : State) (fn : Fin 16) (off : BitVec 36),
    (∀ n write w, 0 < n → off.toNat % 4096 + n ≤ 4096 → w = getR s (regAt .pcie 0 (0x80 + 4 * (off.toNat / 2 ^ 32))) →
      bar2Window 0 off.toNat n write s =
        (if bit w 31 = true ∧ 2 ^ 21 * bits w 18 0 + off.toNat % 2 ^ 32 + n ≤ dpaEnd ∧ s.boot.mapReady = true ∧
            debugLocked s (2 ^ 21 * bits w 18 0 + off.toNat % 2 ^ 32) n = false then
          .hbm (2 ^ 21 * bits w 18 0 + off.toNat % 2 ^ 32) else .refused, s)) ∧
    (∀ n, 0 < n → off.toNat % 4096 + n ≤ 4096 →
      (∀ dpa u r v, bar2Window fn.val off.toNat n false s = (.hbm dpa, u) → memRead dpa n u = (r, v) →
        Answers (.bar2Read fn off n) s (emit (match r with
          | some b => .bar2 fn.val off.toNat b false
          | none => .bar2 fn.val off.toNat (List.replicate n 0xFF) true) v) ∧
        v.hbm.cells = s.hbm.cells ∧ v.hbm.fills = s.hbm.fills) ∧
      (∀ u, bar2Window fn.val off.toNat n false s = (.refused, u) →
        ∃ t, Answers (.bar2Read fn off n) s t ∧ t.outs.head? = some (.bar2 fn.val off.toNat (List.replicate n 0xFF) false) ∧
          t.hbm = u.hbm ∧ Spec.eventSet t .pcie 0 1)) ∧
    (∀ data : List Byte, data ≠ [] → off.toNat % 4096 + data.length ≤ 4096 →
      (∀ dpa u, bar2Window fn.val off.toNat data.length true s = (.hbm dpa, u) → MemoryOk s →
        ∃ t, Answers (.bar2Write fn off data) s t ∧ (∀ i, i < data.length → t.hbm.byte (dpa + i) = data.getD i 0) ∧
          (∀ a, (a < dpa ∨ dpa + data.length ≤ a) → t.hbm.byte a = s.hbm.byte a) ∧
          (∀ c a, watchDpa (memWrite dpa data u) c = some a → dpa ≤ a → a + 8 ≤ dpa + data.length → (getCtx t c).woken = true) ∧
          t.nibs = s.nibs ∧ t.boot = s.boot) ∧
      (∀ u, bar2Window fn.val off.toNat data.length true s = (.refused, u) →
        ∃ t, Answers (.bar2Write fn off data) s t ∧ t.hbm = u.hbm ∧ Spec.eventSet t .pcie 0 1))

/-! ## The management bus -/

/-- The answer of the management endpoint to a block read: the byte count and the data, with the packet error code. -/
def Sys2Proof.Spec.blockAnswer (s : State) (code : Byte) (data : List Byte) : Out :=
  .smbus (0x60 + s.power.slotId) (smbusRead (0x60 + s.power.slotId) code (BitVec.ofNat 8 data.length :: data))

/-- Every command of the management bus, while VAON is up and the Understory is released, answers at its address with its packet error code and
changes nothing else (CABLES gives each connector as it was last sensed: the pin, and the draw of the last tick, none without a cable or
its supply). MEVENT_CLR with the right packet error code clears the bits written 1 but those whose condition is present; with a wrong code or
none it changes nothing. The layouts of the answers and the packet error code are the model's choice (log 54), and so is when a
connector is sensed (logs 54 and 124). -/
def Obligations.ManagementAnswers : Prop :=
  ∀ (s : State), s.power.vaon = true → s.power.released = true →
    (∀ off, Answers (.fruRead off) s (emit (.smbus (0x50 + s.power.slotId)
      (smbusRead (0x50 + s.power.slotId) off (s.fuses.fru.drop off.toNat))) s)) ∧
    Answers .ident s (emit (Spec.blockAnswer s 1 (bytesOf 8 s.fuses.serial.toNat ++ identDigest s)) s) ∧
    (∃ b, Answers .state s (emit (Spec.blockAnswer s 2 b) s) ∧ b.length = 4 ∧
      b.take 2 = [BitVec.ofNat 8 (bootCode s.boot.st), BitVec.ofNat 8 s.boot.fault]) ∧
    Answers .input s (emit (Spec.blockAnswer s 3 (bytesOf 4 s.power.inMv ++ bytesOf 4 s.power.inMa ++ bytesOf 4 s.power.inW)) s) ∧
    (∃ b, Answers .temp s (emit (Spec.blockAnswer s 4 b) s) ∧ b.length = 4) ∧
    Answers .rails s (emit (Spec.blockAnswer s 5 ((List.range 8).flatMap (fun i => bytesOf 2 (getRail s i).mv))) s) ∧
    (∃ b, Answers .mevent s (emit (Spec.blockAnswer s 6 b) s) ∧ b.length = 4 ∧ b.take 2 = bytesOf 2 s.power.mevent) ∧
    (∃ b, Answers .cables s (emit (Spec.blockAnswer s 7 b) s) ∧ b.length = 4 ∧
      ∀ c x, c < 4 → x = vget Cable.none s.power.cables c →
        bit (b.getD c 0).toNat 0 = x.present ∧ bit (b.getD c 0).toNat 1 = x.pwrOn ∧
        (b.getD c 0).toNat / 4 = (if x.present = true ∧ x.pwrOn = true then min 63 x.draw else 0)) ∧
    (∀ w : MgmtWrite,
      (w.pec = some (pec (bytesOf 1 (2 * (0x60 + s.power.slotId)) ++ [0x86, 4] ++ bytesOf 4 w.val.toNat)) →
        ∃ m, Answers (.meventClr w) s { s with power := { s.power with
            mevent := m, brakes := if bit w.val.toNat 16 then 0 else s.power.brakes } } ∧
          ∀ k, k < 5 → bit m k = ((bit s.power.mevent k && !bit w.val.toNat k) ||
            (k == 0 && s.supply.trip) || (k == 2 && s.boot.st == .stopped) || (k == 3 && s.power.uvNow))) ∧
      (w.pec ≠ some (pec (bytesOf 1 (2 * (0x60 + s.power.slotId)) ++ [0x86, 4] ++ bytesOf 4 w.val.toNat)) →
        Answers (.meventClr w) s s))

/-! ## Power and resets -/

/-- The power sequence up: 54 V in; the Understory released with UCLK_COUNT 0 and the management endpoint's bits and count clear; MOD_EN; PWRGD
with every main rail up, and the cables powered where the rails were down; PERST# deasserted; the PLLs locked; the link trained. Each changes
its pins and its status alone. An ARM before the PLLs have locked is counted and recorded as code 0x0B (the model's choice, log 121), its detail and
address 0 (log 101). The model's choices too: CBL_PWR comes with the main rails (log 40), MEVENT and the brake count begin at 0 (log 6) and are
lost with VAON alone (log 39). -/
def Obligations.PowerSequenceUp : Prop :=
  ∀ (s : State),
    (s.power.p54v = false → Answers .powerOn s { s with power := { s.power with p54v := true, vaon := true } }) ∧
    (s.power.p54v = true → s.power.released = false →
      Answers .understoryRelease s { s with
        power := { s.power with vaon := true, released := true, mevent := 0, brakes := 0 }, uclk := 0, inTick := 0 }) ∧
    Answers .modEnAssert s { s with power := { s.power with modEn := true } } ∧
    (s.power.modEn = true → s.power.released = true → s.power.pwrgd = false →
      Answers .pwrgdRelease s { s with power := { s.power with
        mainUp := true, ramp := [6, 5, 4, 0, 1, 2, 3], pwrgd := true,
        cables := s.power.cables.map (fun c => { c with pwrOn := c.pwrOn || !s.power.mainUp }) } }) ∧
    Answers .perstDeassert s { s with power := { s.power with perst := false } } ∧
    (s.boot.st = .held → clocksLocked s = false →
      Answers .arm s (booted { s.boot with fault := 0x0B, detail := 0, faultAddr := 0 } (bump (regAt .boot 0 0x70) 31 0 1 s))) ∧
    (s.power.perst = false → s.power.mainUp = true →
      Answers .configReady s (booted { s.boot with linkReady := true, fclk := true, mclk := true, pclk := true } s)) ∧
    (∀ (rate : BitVec 3) (width : BitVec 5) (flit : Bool), s.power.perst = false → s.power.mainUp = true → 1 ≤ rate.toNat →
      rate.toNat ≤ 6 → 1 ≤ width.toNat → width.toNat ≤ 16 →
      ∃ t, Answers (.linkTrained rate width flit) s t ∧ (rate = 6 → width = 16 →
          t = booted { s.boot with rate := 6, width := 16, flit := flit } s) ∧
        (rate ≠ 6 ∨ width ≠ 16 → Spec.eventSet t .pcie 0 2 ∧
          t = Spec.reported t (booted { s.boot with rate := rate.toNat, width := width.toNat, flit := flit } s)))

/-- Ways down: MOD_EN deasserted turns the main rails off, as a supply reset where PERST# is not asserted; loss of the input and of VAON
leave nothing but what is fused; an undervoltage between 40 V and 44 V is only noted. That R362 applies in any state of the device when MOD_EN
falls is the model's choice (log 74). -/
def Obligations.PowerDown : Prop :=
  ∀ (s : State),
    (∃ t, Answers .modEnDeassert s t ∧ t.power.modEn = false ∧ t.power.mainUp = false ∧ t.power.pwrgd = false ∧ t.fuses = s.fuses ∧
      (s.power.mainUp = true → ∃ k, t.hbm = ⟨[], [⟨0, dpaEnd, k⟩], [], []⟩) ∧
      (s.power.mainUp = true → s.power.perst = false →
        t.boot.st = .held ∧ t.boot.fault = 0x10 ∧ t.ctxs = [] ∧ t.nibs = [] ∧ t.uclk = s.uclk ∧ Spec.eventSet t .supply 0 2)) ∧
    (s.power.p54v = true → ∃ t, Answers .inputPowerLoss s t ∧ t.power.p54v = false ∧ t.power.vaon = false ∧ t.power.released = false ∧
      t.power.mainUp = false ∧ t.boot = Boot.held ∧ t.regs = [] ∧ t.nibs = [] ∧ t.ctxs = [] ∧ t.blotter = ⟨[], 0, []⟩ ∧ t.uclk = 0) ∧
    (s.power.vaon = true → ∃ t, Answers .vaonReset s t ∧ t.power.vaon = false ∧ t.power.p54v = s.power.p54v ∧ t.boot = Boot.held ∧
      t.regs = [] ∧ t.nibs = [] ∧ t.ctxs = [] ∧ t.blotter = ⟨[], 0, []⟩ ∧ t.uclk = 0) ∧
    (∀ mv : BitVec 16, s.power.p54v = true → 40000 ≤ mv.toNat → mv.toNat < 44000 → Answers (.inputUv mv) s
      { s with power := { s.power with inMv := mv.toNat, uvNow := true, mevent := putBits s.power.mevent 3 3 1 } }) ∧
    (∀ rail : Fin 8, rail.val ≠ 7 → s.power.mainUp = true → ∃ t, Answers (.supplyReset rail) s t ∧ t.boot.st = .held ∧ t.boot.fault = 0x10 ∧
      t.boot.detail = rail.val ∧ t.power.mainUp = false ∧ t.power.pwrgd = false ∧ t.ctxs = [] ∧ t.nibs = [] ∧ t.uclk = s.uclk ∧
      Spec.eventSet t .supply 0 2)

/-- A host reset while MOD_EN is asserted: HELD with code 0x14 and the kind, the map, images and keys gone, every context, nib, register word
(but BOOT's EVENT) and memory byte lost, UCLK_COUNT and what is fused kept, HOST_RESET raised; the log keeps its entries, and where every port
is OFF gains one. PERST# stays asserted after the reset that asserts it; a reset of the physical function alone keeps the link. While MOD_EN is
0 only the PERST# pin changes, and while PERST# is asserted nothing does. What each reset keeps of MEVENT, the brake count, the cables and the
link, and that a reset while PERST# is asserted does nothing, are the model's choice (log 39). -/
def Obligations.HostReset : Prop :=
  ∀ (s : State) (kind : HostResetKind), (s.power.perst = true → Answers (.hostReset kind) s s) ∧
    (s.power.perst = false → s.power.modEn = false →
      Answers (.hostReset kind) s { s with power := { s.power with perst := decide (kind = .perst) } }) ∧
    (s.power.perst = false → s.power.modEn = true → ∃ t, Answers (.hostReset kind) s t ∧ t.boot.st = .held ∧ t.boot.fault = 0x14 ∧
      t.boot.detail = resetDetail kind ∧ t.boot.mapReady = false ∧ t.boot.images = Vector.replicate 4 none ∧
      t.boot.keys = Vector.replicate 4 none ∧ t.ctxs = [] ∧ t.nibs = [] ∧ (∃ k, t.hbm = ⟨[], [⟨0, dpaEnd, k⟩], [], []⟩) ∧
      (∀ a, a ≠ regAt .boot 0 0x10 → getR t a = 0) ∧ Spec.eventSet t .boot 0 4 ∧ t.uclk = s.uclk ∧ t.fuses = s.fuses ∧
      t.power = { s.power with perst := decide (kind = .perst) } ∧ t.boot.linkReady = (decide (kind = .pfFlr) && s.boot.linkReady) ∧
      ((∀ p, p < 16 → (getPort s p).st = .off) → ∃ e, t.blotter =
        ⟨tabInsert s.blotter.ring (s.blotter.next.toNat % 4096) e, nextSeq s.blotter.next, s.blotter.ces⟩))

/-- What a reset of its virtual function leaves of context c. A RETAINED one is released: PARKED without a plot, no page locked for it, its awake
groves free and owing a scrub. Any other that is not FREE is killed, to be scrubbed whatever RETAIN holds: KILLING, or waiting for a slot as a
kill does (log 45), with no record, watch or saved plot, the awake groves it holds owing a scrub; so do those of a kill already begun that was to
keep its plot. -/
def Sys2Proof.Spec.killedByFlr (s t : State) (c : Nat) : Prop :=
  ((getCtx s c).st = .retained → (getCtx t c).st = .parked ∧ (getCtx t c).plot = [] ∧ (getCtx t c).retain = false ∧
    (∀ p ∈ t.hbm.locks, p.2 ≠ c) ∧
    ∀ g, g < 64 → g ∈ (getCtx s c).plot → (getGrove s g).owner = some c → (getGrove s g).pw = .awake →
      (getGrove t g).owner = none ∧ (getGrove t g).dirty = true) ∧
  ((getCtx s c).st ≠ .free → (getCtx s c).st ≠ .retained →
    (getCtx t c).retain = false ∧ ((getCtx t c).st = .killing ∨ (getCtx t c).killDue.isSome = true) ∧
    ((getCtx s c).st ≠ .killing → (getCtx s c).killDue = none → (getCtx t c).record = none ∧ (getCtx t c).watch = none ∧
      (getCtx t c).saved = none ∧ ((getCtx s c).slot.isSome = true → (getCtx t c).st = .killing)) ∧
    ((getCtx s c).retain = true ∨ (getCtx s c).st ≠ .killing ∧ (getCtx s c).killDue = none →
      ∀ g, g < 64 → g ∈ (getCtx s c).plot → (getGrove s g).owner = some c → (getGrove s g).pw = .awake → (getGrove t g).dirty = true))

/-- A reset of one virtual function disables its windows, as they read and as they are in effect, kills the contexts it owns and releases those
it retained, leaves every other context as it was, and raises VF_FLR; its vectors are masked, as a cleared table entry is PRESUMED to be (log 5).
Where it owns none, memory and the nibs stay. VF_ENABLE sets which are present: function 0 never counts as one, and where none is taken away nothing
else changes. -/
def Obligations.VirtualFunctions : Prop :=
  ∀ (s : State),
    (∀ vf : Fin 16, vf.val ≠ 0 → bit s.boot.vfEn vf.val = true → (∀ c ∈ ctxIds s, ctxFunc s c ≠ vf.val) →
      tabWf (0 : Word32) s.regs = true →
      ∃ t, Answers (.vfFlr vf) s t ∧ (∀ k, k < 4 → bit (getR t (regAt .vfunc vf.val (0x40 + 8 * k))) 0 = false ∧
          bit (cfgPair t (regAt .vfunc vf.val (0x40 + 8 * k))) 0 = false) ∧
        Spec.eventSet t .pcie 0 0 ∧ (∀ vec, vec < 64 → vecMasked t vf.val vec = true) ∧ t.ctxs = s.ctxs ∧ t.hbm = s.hbm ∧ t.nibs = s.nibs ∧
        t.boot = s.boot) ∧
    (∀ vf : Fin 16, vf.val ≠ 0 → bit s.boot.vfEn vf.val = true → tabWf Ctx.free s.ctxs = true →
      ∃ t, Answers (.vfFlr vf) s t ∧ Spec.eventSet t .pcie 0 0 ∧ (∀ vec, vec < 64 → vecMasked t vf.val vec = true) ∧
        ∀ c ∈ ctxIds s, (ctxFunc s c = vf.val → Spec.killedByFlr s t c) ∧
          (ctxFunc s c ≠ vf.val → (getCtx t c).st = (getCtx s c).st ∧ (getCtx t c).record = (getCtx s c).record ∧
            (getCtx t c).plot = (getCtx s c).plot)) ∧
    (∀ mask : BitVec 16, ∃ t, Answers (.vfEnable mask) s t ∧ bit t.boot.vfEn 0 = false ∧
      (∀ v, 1 ≤ v → v < 16 → bit t.boot.vfEn v = mask.getLsbD v) ∧
      ((∀ v, 1 ≤ v → v < 16 → bit s.boot.vfEn v = true → mask.getLsbD v = true) → bit s.boot.vfEn 0 = false →
        t = booted { s.boot with vfEn := t.boot.vfEn } s))

/-! ## Supply, clocks, heat -/

/-- Supply dips: a rail below its warning threshold starts the response and is recorded with its lowest voltage, and one that leaves 3% of nominal
takes PWRGD away; every rail above threshold plus hysteresis starts the recovery wait, and in any case each rail's voltage is noted; a rail at or
below its warning threshold plus hysteresis ends a wait that runs; the wait's end ends the response and forgets the rails. Above the threshold a
warning changes nothing. A rail below its integrity threshold is SUPPLY_SUSPECT, and a running layer is suspect with cause 4, but for one whose count has
reached REPLAY_LIMIT.
-/
def Obligations.SupplyDip : Prop :=
  ∀ (s : State),
    (∀ (rail : Fin 8) (mv : BitVec 12),
      (mv.toNat < warnMv s rail.val →
        ∃ t, Answers (.railWarning rail mv) s t ∧ t.supply.dip = true ∧ t.supply.recover = false ∧ rail.val ∈ t.supply.order ∧
          (getRail t rail.val).mv = mv.toNat ∧ (getRail t rail.val).below = true ∧ (getRail t rail.val).crossed = true ∧
          (getRail t rail.val).dipLow = (if (getRail s rail.val).crossed then min (getRail s rail.val).dipLow mv.toNat else mv.toNat) ∧
          t.power.pwrgd = (s.power.pwrgd && (rail.val == 7 || nearNominal rail.val mv.toNat)) ∧
          t = { s with
            regs := t.regs, supply := t.supply, power := { s.power with pwrgd := t.power.pwrgd }, free := s.free + 1, inTick := sinceTick s }) ∧
      (warnMv s rail.val ≤ mv.toNat → Answers (.railWarning rail mv) s s)) ∧
    (∀ mv : Vector (BitVec 12) 8, ∃ t, Answers (.railRecover mv) s t ∧ t.supply.dip = s.supply.dip ∧
      (∀ k, k < 8 → (getRail t k).mv = (vget 0 mv k).toNat ∧
        ((getRail t k).below = true ↔ (vget 0 mv k).toNat < warnMv s k)) ∧
      (s.supply.dip = true → (∀ k, k < 8 → warnMv s k + hystMv s k < (vget 0 mv k).toNat) → t.supply.recover = true) ∧
      ((∃ k, k < 8 ∧ (vget 0 mv k).toNat ≤ warnMv s k + hystMv s k) → t.supply.recover = false) ∧
      (s.supply.dip = false → (∀ k, k < 8 → warnMv s k + hystMv s k < (vget 0 mv k).toNat) → t.supply.recover = s.supply.recover) ∧
      t = { s with supply := t.supply, power := { s.power with pwrgd := t.power.pwrgd }, free := s.free + 1, inTick := sinceTick s }) ∧
    (∀ below : Vector Nat 8, s.supply.dip = true → s.supply.recover = true →
      ∃ t, Answers (.dipRecoveryEnd below) s t ∧ t.supply.dip = false ∧ t.supply.recover = false ∧ t.supply.order = [] ∧
        (s.supply.order ≠ [] → Spec.eventSet t .supply 0 0) ∧ t.hbm = s.hbm ∧ t.ctxs = s.ctxs ∧ t.boot = s.boot) ∧
    (∀ (rail : Fin 8) (mv : BitVec 12), mv.toNat < integMv s rail.val →
      ∃ t, Answers (.supplySuspect rail mv) s t ∧ (getRail t rail.val).integ = true ∧ (getRail t rail.val).mv = mv.toNat ∧
        Spec.eventSet t .supply 0 1 ∧
        (∀ c r, (getCtx s c).st = .running → (getCtx s c).phase = .running → (getCtx s c).record = some r →
          (r.replay = true → (getCtx s c).replays < replayLimit s) → (getCtx t c).phase = .suspect ∧ (getCtx t c).cause = 4))

/-- `t` with the ACLK step changes between `s` and `t` counted in CLK_COUNTS. -/
def Sys2Proof.Spec.stepsCounted (s t : State) : State :=
  bump (regAt .clock 0 0x50) 31 16 ((List.range 64).map (fun g => stepChanges (aclk s g) (aclk t g))).sum t

/-- PWR_BRAKE# asserted and released: the pin, the count of assertions and the count of clock steps change, nothing else; while it is
asserted in RUN, or a dip response holds (the released brake then changes no clock), an awake grove's clock is its own step and no more than
DIP_ACLK, and released with no dip each runs at its own step. That a waking grove's clock follows them too is the model's reading (log 180). A
cable overload removes the connector's power, notes it, and drops the connector's ports that are not OFF with reason 1. Which changes count as
steps of a clock is the model's choice (log 27). -/
def Obligations.BrakeAndCables : Prop :=
  ∀ (s : State),
    (s.power.brake = false → ∀ u, u = { s with power := { s.power with brake := true, brakes := satAdd 16 s.power.brakes 1 } } →
      Answers .pwrBrakeAssert s (Spec.stepsCounted s u) ∧
      (s.boot.st = .run → ∀ g, g < 64 → ((getGrove s g).pw = .awake ∨ (getGrove s g).pw = .waking) →
        aclk u g = min (min (getGrove s g).step (getGrove s g).therm) (stepOf (getF s (regAt .clock 0 0x40) 4 0)))) ∧
    (s.power.brake = true → ∀ u, u = { s with power := { s.power with brake := false } } →
      Answers .pwrBrakeRelease s (Spec.stepsCounted s u) ∧
      (s.supply.dip = false → ∀ g, g < 64 → ((getGrove s g).pw = .awake ∨ (getGrove s g).pw = .waking) →
        aclk u g = min (getGrove s g).step (getGrove s g).therm) ∧
      (s.supply.dip = true → ∀ g, aclk u g = aclk s g)) ∧
    (s.supply.dip = true → ∀ g, g < 64 → ((getGrove s g).pw = .awake ∨ (getGrove s g).pw = .waking) →
      aclk s g = min (min (getGrove s g).step (getGrove s g).therm) (stepOf (getF s (regAt .clock 0 0x40) 4 0))) ∧
    (∀ k : Fin 4, ∃ t, Answers (.cblOverload k) s t ∧ (vget ⟨true, true, 0⟩ t.power.cables k.val).pwrOn = false ∧
      bit t.power.mevent 4 = true ∧
      (∀ p, p < 16 → connectorOf p = k.val → (getPort s p).st ≠ .off →
        (getPort t p).lastDown = 1 ∧ (getPort t p).st = downState s p))

/-- Clock losses: a fabric PLL's in RUN clears its lock bit, raises FABRIC_UNLOCK and starts the device stop with code 0x22 unless one is under
way; a grove's PLL that does not lock, or loses lock while awake, gives way to the other one with PLL_SPARED, or the grove retires with
PLL_FAILED. The end of the stop: STOPPED with its code and DEVICE_STOPPED, and where no circle step is open every grove that is not retired is
gated. -/
def Obligations.ClockLossAndStop : Prop :=
  ∀ (s : State),
    (∀ pll, s.boot.st = .run → ∃ t, Answers (.fabricUnlock pll) s t ∧ t.boot.stopping.isSome = true ∧
      (s.boot.stopping = none → t.boot.stopping = some 0x22) ∧ Spec.eventSet t .clock 0 2 ∧
      (match pll with
        | .fclk => t.boot.fclk = false
        | .mclk => t.boot.mclk = false
        | .pclk => t.boot.pclk = false)) ∧
    (∀ g : Fin 64, ∀ other, other = (if (getGrove s g.val).pll = 0 then (getGrove s g.val).pllBad1 else (getGrove s g.val).pllBad0) →
      (getGrove s g.val).pll < 2 →
      ((getGrove s g.val).pw = .waking →
        ∃ t, Answers (.pllLockTimeout g) s t ∧
          (other = false → (getGrove t g.val).pll = 1 - (getGrove s g.val).pll ∧ (getGrove t g.val).pw = .waking ∧
            Spec.eventSet t .clock 0 0) ∧
          (other = true → (getGrove t g.val).pw = .retired ∧ Spec.eventSet t .clock 0 1)) ∧
      ((getGrove s g.val).pw = .awake →
        ∃ t, Answers (.pllLockLoss g) s t ∧
          (other = false → (getGrove t g.val).pll = 1 - (getGrove s g.val).pll ∧ (getGrove t g.val).pw = .waking ∧
            Spec.eventSet t .clock 0 0) ∧
          (other = true → (getGrove t g.val).pw = .retired ∧ Spec.eventSet t .clock 0 1))) ∧
    (∀ code, s.boot.stopping = some code → ∃ t, Answers .deviceStopped s t ∧ t.boot.st = .stopped ∧ t.boot.fault = code ∧
      t.boot.stopping = none ∧ bit t.power.mevent 2 = true ∧ Spec.eventSet t .boot 0 3 ∧
      (s.lig.open_ = none → ∀ g, g < 64 → (getGrove t g).pw = if (getGrove s g).pw = .retired then .retired else .gated))

/-- A tick advances UCLK_COUNT by 1,000, takes the samples, and leaves no coalesced event. In RUN the tokens rise by the envelope's share and fall by
the energy drawn, and are never above the bucket. That a cable's draw is sampled at the tick, and is 0 without CBL_PWR, is PRESUMED (log 54); that
its pin is, a port with signal showing a cable, is the model's choice (log 124). -/
def Obligations.TickAccounts : Prop :=
  ∀ (s : State) (i : TickIn), s.power.released = true →
    ∃ t, Answers (.understoryTick i) s t ∧ t.uclk = s.uclk + 1000 ∧ t.power.inMv = i.inMv ∧ t.power.inMa = i.inMa ∧
      t.supply.temps = i.temps ∧ t.blotter.ces = [] ∧
      t.inTick ≤ 999 ∧
      (∀ k x y, k < 4 → x = vget Cable.none s.power.cables k → y = vget Cable.none t.power.cables k →
        y = { x with present := y.present, draw := if x.pwrOn then (vget 0 i.draws k).val else 0 } ∧
        (y.present = true ↔ vget false i.present k = true ∨
          ∃ p, p < 16 ∧ connectorOf p = k ∧ (getPort s p).st ≠ .off ∧ (getPort s p).st ≠ .detect)) ∧
      (∀ env cap, s.boot.st = .run → env = getF s (regAt .ranger 0 0x40) 11 0 →
        cap = min (getF s (regAt .ranger 0 0x40) 24 12) (env * 10 / 3) →
        t.ranger.envW = env ∧ t.ranger.tokens =
          min (cap : Int) (s.ranger.tokens + ((s.ranger.refRem + env) / 50 : Nat) - ((s.ranger.eRem + i.totalUj) / 1000 : Nat)))

/-! ## Groves -/

/-- A grove's sleep, wake and scrub. An idle awake grove, free and scrubbed or of a plot whose context is PARKED or READY, enters ENTERING, and
one of any other plot does not; from there RETENTION keeps its nibs and GATED loses their rows; a
woken grove is AWAKE with its lock time, and a pass follows; a scrub leaves every row of its nibs a valid row of zeros. -/
def Obligations.GrovePowerStates : Prop :=
  ∀ (s : State) (g : Fin 64) (x : Grove), x = getGrove s g.val →
    (s.boot.st = .run → x.pw = .awake → idleHold s ≠ 0 → idleHold s ≤ x.idle →
      (x.owner = none ∧ x.dirty = false ∧ s.seedbank.sweeping ≠ some g.val ∨
        ∃ c, x.owner = some c ∧ plotSleep s ≠ 0 ∧ ((getCtx s c).st = .parked ∨ (getCtx s c).st = .ready) ∧ (getCtx s c).phase = .none) →
      Answers (.groveSleep g) s (bump (regAt .understory 0 0x64) 31 16 1 (setGrove g.val
        { x with pw := .entering, retain := x.owner.isSome && plotSleep s == 1, wanted := false } s))) ∧
    (∀ c, x.owner = some c → (getCtx s c).st ≠ .parked → (getCtx s c).st ≠ .ready → Answers (.groveSleep g) s s) ∧
    (x.pw = .entering → tabWf Nib.cold s.nibs = true →
      ∃ t, Answers (.groveSleepDone g) s t ∧
        (getGrove t g.val).pw = (if x.wanted then .waking else if x.retain then .retention else .gated) ∧
        (∀ n, getNib t n = if x.retain = false ∧ n / 16 = g.val then (getNib s n).lost else getNib s n)) ∧
    (∀ lock, x.pw = .waking →
      Answers (.groveWakeDone g lock) s (pass false (setGrove g.val { x with pw := .awake, lock := min 1023 lock, idle := 0 } s))) ∧
    (x.dirty = true → x.pw = .awake → tabWf Nib.cold s.nibs = true →
      ∃ t, Answers (.groveScrubDone g) s t ∧ (getGrove t g.val).dirty = false ∧ (getGrove t g.val).pw = .awake ∧
        (∀ n r, n / 16 = g.val → (getNib t n).row r = some ⟨0, []⟩) ∧ (∀ n, n / 16 ≠ g.val → getNib t n = getNib s n))

/-! ## Drurid ports -/

/-- What the host asks of a port. ENABLE in READY, with no loopback and no clash of ordinals, makes it ACTIVE, otherwise it is ignored;
cleared, the port sends what it had taken and is READY at once if there is none. RETRAIN enters RETRAIN from READY and ACTIVE. DOWN, a loss
of signal and a retrain that never ends drop the port with their reasons: DETECT, where the announce pattern goes out, or OFF, nothing in hand,
PORT_DOWN raised. -/
def Obligations.PortStates : Prop :=
  ∀ (s : State) (p : Fin 16) (x : Port), x = getPort s p.val →
    (x.st = .ready → x.loopback = false → x.clash = false →
      ∃ t, Answers (.portEnable p true) s t ∧ (getPort t p.val).st = .active ∧ (getPort t p.val).enable = true ∧
        (s.lig.waiting = [] → t = setPort p.val { x with st := .active, enable := true } s)) ∧
    (x.loopback = true ∨ x.clash = true → Answers (.portEnable p true) s s) ∧
    (x.enable = true → Answers (.portEnable p false) s (setPort p.val
      { x with enable := false, st := if x.st = .active ∧ x.txQ = [] ∧ x.txPart = [] then .ready else x.st } s)) ∧
    ((x.st = .ready ∨ x.st = .active) → ∃ t, Answers (.portRetrainCmd p) s t ∧ (getPort t p.val).st = .retrain ∧
      (getPort t p.val).wasActive = decide (x.st = .active) ∧ Spec.eventSet t .port p.val 2 ∧ t.hbm = s.hbm ∧ t.ctxs = s.ctxs) ∧
    (∀ (c : Instr) (why : Nat), ((c, why) = (.portDownCmd p, 2) ∨ (c, why) = (.lossOfSignal p, 1)) ∧ x.st ≠ .off ∨
        (c, why) = (.retrainTimeout p, 3) ∧ x.st = .retrain →
      ∃ t, Answers c s t ∧ (getPort t p.val).st = downState s p.val ∧ (getPort t p.val).lastDown = why ∧
        (getPort t p.val).replayBuf = [] ∧ (getPort t p.val).peer.valid = false ∧ (getPort t p.val).enable = false ∧
        (downState s p.val = .detect → .train p.val 3 511 ∈ t.outs) ∧ Spec.eventSet t .port p.val 1)

/-- Training. Signal shows that a cable is in (the model's choice, log 124), and a port in DETECT sends its frame and enters NEGOTIATE. Frames
choose the first candidate mode that both ends and their good lanes allow, and EQUALIZE trains it, the good lanes being reported; without one the
port is back in DETECT with BELOW_MIN. A candidate without bad lanes becomes the mode and IDENTIFY begins; one with bad lanes marks them and the
next is tried. 2 ms end NEGOTIATE. On entering DETECT the port sends the announce pattern on all nine lanes. What is reported good are the lanes
that delivered a frame but those retired in service. Identity. A block that answers this port's nonce and verifies makes a port in IDENTIFY READY
with its partner, credit 4,096 and PORT_UP; one that does not, and 20 ms without one, raise ID_FAIL and start the hold, after which the port is in
DETECT. In a retrain a block with the digest and ordinal of before is recorded, and the port returns to its state; one with another identity is a
drop with reason 4. An identity codeword that is due is acknowledged, any other good one leaves what is received as it was, a codeword of the
link that comes early is asked for again with NAK, and an uncorrectable one is answered with NAK; that an IDENTIFY numbers its codewords from 0
and that they are told apart from the link's is the model's choice (log 122), and so is that the answer is one codeword of idle units (log 35). -/
def Obligations.LinkBringUp : Prop :=
  ∀ (s : State) (p : Fin 16) (x : Port), x = getPort s p.val →
    (∃ pw, (vget Cable.none pw.cables (connectorOf p.val)).present = true ∧
      (x.st = .detect → Answers (.signalDetect p) s
        (emit (.train p.val 0 (maxRate s p.val)) (setPort p.val { x with st := .negotiate } { s with power := pw }))) ∧
      (x.st ≠ .detect → Answers (.signalDetect p) s { s with power := pw })) ∧
    (x.st = .negotiate → Answers (.negotiateTimeout p) s (emit (.train p.val 3 511) (setPort p.val { x with st := .detect } s))) ∧
    (∀ frames peer y, x.st = .negotiate → y = negotiated s p.val frames peer x →
      ∃ t m, Answers (.trainingFrame p frames peer) s t ∧ .train p.val 1 m ∈ t.outs ∧
        (∀ i, i < 9 → bit m i = (bit y.rx.good i && !bit y.rx.bad i)) ∧
        (∀ k, nextCand s p.val y 0 = some k → (getPort t p.val).st = .equalize ∧ (getPort t p.val).cand = k ∧
          candOk s p.val y (candidates.getD k (0, 0)) = true ∧
          (∀ m, m < k → candOk s p.val y (candidates.getD m (0, 0)) = false)) ∧
        (nextCand s p.val y 0 = none → (getPort t p.val).st = .detect ∧ .train p.val 3 511 ∈ t.outs ∧ Spec.eventSet t .port p.val 8)) ∧
    (∀ rxErrs txErrs : Vector Nat 9, x.st = .equalize → x.train = .equalize →
      ∃ t, Answers (.equalizeCandidateEnd p rxErrs txErrs) s t ∧
        ((∀ i, i < 9 → vget 0 rxErrs i < 64 ∧ vget 0 txErrs i < 64) →
          (getPort t p.val).st = .identify ∧ (getPort t p.val).rate = (candidates.getD x.cand (0, 0)).1 ∧
          (getPort t p.val).width = (candidates.getD x.cand (0, 0)).2 ∧ (getPort t p.val).nonceOut.isSome = true) ∧
        (failing x.tx.active txErrs id ≠ 0 → (getPort t p.val).st = .equalize → x.cand < (getPort t p.val).cand)) ∧
    (x.st = .identify →
      (x.train = .identify → x.hold = false → 4096 ≤ x.idBytes.length →
        ∃ t, Answers (.identityBlock p) s t ∧
          (blockOk x = true → (getPort t p.val).st = .ready ∧ (getPort t p.val).peer = peerOf x.idBytes ∧
            (getPort t p.val).credit = 4096 ∧ (getPort t p.val).replayBuf = [] ∧ Spec.eventSet t .port p.val 0 ∧
            ((getPort t p.val).loopback = true ↔ (peerOf x.idBytes).digest = shake256 s.fuses.identKey)) ∧
          (blockOk x = false → (getPort t p.val).st = .identify ∧ (getPort t p.val).hold = true ∧ Spec.eventSet t .port p.val 5)) ∧
      (x.train = .identify → x.hold = false → ∃ t, Answers (.identifyTimeout p) s t ∧ (getPort t p.val).hold = true ∧
        Spec.eventSet t .port p.val 5) ∧
      (x.hold = true → Answers (.idHoldEnd p) s (emit (.train p.val 3 511) (setPort p.val { x with st := .detect, hold := false } s))) ∧
      (∀ cw : Codeword, x.hold = false → ∃ t, Answers (.codewordReceive p cw) s t ∧
        (cw.good = true → cw.ident = true → identDue x cw.seq.val = true →
          (getPort t p.val).idAck = some cw.seq.val ∧ (getPort t p.val).idNak = false) ∧
        (cw.good = true → cw.ident = false → (getPort t p.val).nak = true ∧ (getPort t p.val).st = .identify) ∧
        (cw.good = true → cw.ident = false ∨ identDue x cw.seq.val = false →
          (getPort t p.val).idAck = x.idAck ∧ (getPort t p.val).idBytes = x.idBytes ∧ (getPort t p.val).nonceIn = x.nonceIn) ∧
        (cw.good = false → (getPort t p.val).idNak = true ∧ (getPort t p.val).idSeq = (x.idSeq + 1) % 512 ∧
          t.outs = .ident p.val (controlBits x.idSeq (x.idAck.getD 511) true) (List.replicate 10 0) x.tx.active :: s.outs))) ∧
    (x.st = .retrain → x.train = .identify → x.hold = false → 4096 ≤ x.idBytes.length → blockOk x = true →
      ∃ t, Answers (.identityBlock p) s t ∧
        ((peerOf x.idBytes).digest = x.peer.digest ∧ (peerOf x.idBytes).ordinal = x.peer.ordinal →
          (getPort t p.val).peer = peerOf x.idBytes ∧
          (getPort t p.val).st = (if x.wasActive = true ∧ x.enable = true then .active else .ready) ∧
          (getPort t p.val).replayBuf.map (fun e => (e.seq, e.units)) = x.replayBuf.map (fun e => (e.seq, e.units))) ∧
        (¬((peerOf x.idBytes).digest = x.peer.digest ∧ (peerOf x.idBytes).ordinal = x.peer.ordinal) →
          (getPort t p.val).st = downState s p.val ∧ (getPort t p.val).lastDown = 4 ∧ Spec.eventSet t .port p.val 1))

/-- A linked port in service. A codeword of the link that is good, in order and without NAK is acknowledged, one of the partner's IDENTIFY leaves
ACK and NAK as they were; after an uncorrectable one NAK is to be sent. An active good lane at its error threshold is asked of the partner where the direction has a spare, else the port retrains and says
so; one that stands by is only marked; one more waits while a request is outstanding. The partner's request is answered, or leads to a retrain;
the answer names, as it leaves, the codeword eight ahead of the one that carries it, and the switch is set there; the partner's answer sets the
receive switch, which is made at once where that codeword is the next one due. That one codeword leaves in the step that receives one is the
model's choice (log 35). That the switch is exactly eight codewords ahead of the answer is the model's choice (log 50), and so are the layout of a
lane-control packet and its place before the others in the queue (log 122). -/
def Obligations.LinkService : Prop :=
  ∀ (s : State) (p : Fin 16) (x : Port), x = getPort s p.val → (x.st = .ready ∨ x.st = .active) →
    (∀ cw : Codeword, ∃ t, Answers (.codewordReceive p cw) s t ∧
      (cw.good = true → cw.ident = false → cw.nak = false → cw.seq.val = (x.ack + 1) % 512 → (getPort t p.val).ack = cw.seq.val ∧
        (getPort t p.val).nak = false) ∧
      (cw.good = true → cw.ident = true → (getPort t p.val).ack = x.ack ∧ (getPort t p.val).nak = x.nak) ∧
      (cw.good = false → (getPort t p.val).nak = true ∧ (getPort t p.val).ack = x.ack)) ∧
    (∀ (lane : Fin 9) (L : Nat), L = laneAt x.reversed lane.val → laneThresh s ≠ 0 → bit (x.rx.goodAt x.rate) L = true →
      (x.spareOut = none → bit x.rx.active L = true → x.rx.spare.isSome = true →
        Answers (.laneErrorThreshold p lane) s (setPort p.val { x with spareOut := some L, txQ := [controlUnit 1 L 0] :: x.txQ } s)) ∧
      (x.spareOut = none → bit x.rx.active L = true → x.rx.spare = none →
        ∃ t, Answers (.laneErrorThreshold p lane) s t ∧ (getPort t p.val).st = .retrain ∧ Spec.eventSet t .port p.val 3) ∧
      (x.spareOut = none → bit x.rx.active L = false →
        ∃ t, Answers (.laneErrorThreshold p lane) s t ∧ (getPort t p.val).rx = x.rx.retire x.rate L ∧ (getPort t p.val).txQ = x.txQ ∧
          (getPort t p.val).st = x.st ∧ Spec.eventSet t .port p.val 3) ∧
      (∀ j, x.spareOut = some j → j ≠ L → L ∉ x.spareQ →
        Answers (.laneErrorThreshold p lane) s (setPort p.val { x with spareQ := x.spareQ ++ [L] } s))) ∧
    (∀ lane : Fin 9, bit x.tx.active lane.val = true → txSparing x = [] →
      ∃ t, Answers (.spareReq p lane) s t ∧ Spec.eventSet t .port p.val 3 ∧
        (x.tx.spare.isSome = true → (getPort t p.val).txSwitch = none ∧ (getPort t p.val).st = x.st ∧
          (getPort t p.val).txQ = [controlUnit 2 lane.val 0] :: x.txQ) ∧
        (x.tx.spare = none → (getPort t p.val).st = .retrain)) ∧
    (∀ (lane : Fin 9) (q : List (List LinkUnit)) (cw : Codeword), x.txQ = [controlUnit 2 lane.val 0] :: q →
      (∀ k ∈ q, ∀ u ∈ k.head?, isAck u = false) → x.txPart = [] → x.txSwitch = none → x.resend = 0 → x.replayBuf.length < 256 →
      1 ≤ x.credit → cw.good = false →
      ∃ t us, Answers (.codewordReceive p cw) s t ∧ (getPort t p.val).txSwitch = some (lane.val, (x.seq + 8) % 512) ∧
        (getPort t p.val).seq = (x.seq + 1) % 512 ∧
        t.outs.head? = some (.link p.val x.seq x.ack true us x.tx.active) ∧
        us.head? = some (withCredit x.owed (controlUnit 2 lane.val ((x.seq + 8) % 512)))) ∧
    (∀ (lane : Fin 9) (sw : Fin 512), x.spareOut = some lane.val → x.rxSwitch = none →
      ∃ t, Answers (.spareAck p lane sw) s t ∧ Spec.eventSet t .port p.val 3 ∧
        ((x.ack + 1) % 512 ≠ sw.val → (getPort t p.val).rxSwitch = some (lane.val, sw.val) ∧ (getPort t p.val).rx = x.rx) ∧
        ((x.ack + 1) % 512 = sw.val → (getPort t p.val).rxSwitch = none ∧ (getPort t p.val).rx = x.rx.retire x.rate lane.val))

/-! ## Quill -/

/-- The nib's layer runs, its core runs, and the defined instruction `w` stands at its PC, not in the last word. -/
def Sys2Proof.Spec.atQuill (s : State) (nib : Fin 1024) (w : Nat) : Prop :=
  nibRuns s nib.val = true ∧ (getNib s nib.val).quill.run = .running ∧ (getNib s nib.val).fetch = w ∧ qDefined w = true ∧
    (getNib s nib.val).quill.pc % 4 = 0 ∧ (getNib s nib.val).quill.pc + 4 < 16384

/-- A nib whose core has completed an instruction and goes on at `pc`. -/
def Sys2Proof.Spec.stepped (pc : Nat) (n : Nib) : Nib :=
  { n with
      quill := { n.quill with pc := pc, run := .running, stalled := false },
      count := { n.count with instrs := n.count.instrs + 1 } }

/-- A register as a 32-bit pattern, s0 zero. -/
def Sys2Proof.Spec.sreg (n : Nib) (r : Nat) : Word32 := if r = 0 then 0 else tabGet 0 n.quill.sregs r

/-- A nib with register r written, s0 never. -/
def Sys2Proof.Spec.withReg (n : Nib) (r : Nat) (v : Word32) : Nib :=
  if r = 0 then n else { n with quill := { n.quill with sregs := tabSet 0 n.quill.sregs r v } }

/-- FN of the table of ALU instructions, on 32-bit patterns. -/
def Sys2Proof.Spec.alu (fn : Nat) (a b : Word32) : Word32 :=
  match fn with
  | 0 => a + b
  | 1 => a - b
  | 2 => a &&& b
  | 3 => a ||| b
  | 4 => a ^^^ b
  | 5 => a <<< (b.toNat % 32)
  | 6 => a >>> (b.toNat % 32)
  | 7 => a.sshiftRight (b.toNat % 32)
  | 8 => a * b
  | 9 => if a.slt b then 1 else 0
  | 10 => if a.ult b then 1 else 0
  | 11 => if ltNum (val32 a.toNat) (val32 b.toNat) then 1 else 0
  | 12 => if eqNum (val32 a.toNat) (val32 b.toNat) then 1 else 0
  | 13 => BitVec.ofNat 32 (fadd a.toNat b.toNat)
  | _ => BitVec.ofNat 32 (fmul a.toNat b.toNat)

/-- Each ALU instruction writes RD with its function of RA and RB, s0 staying zero, and goes on at the next word; no other register, no
memory and no other nib changes. -/
def Obligations.QuillAlu : Prop :=
  ∀ (s : State) (nib : Fin 1024) (w : Nat) (n : Nib), n = getNib s nib.val → Spec.atQuill s nib w → qOp w = 1 →
    ∀ fn c, (fn, c) ∈ [(0, Instr.aluAdd nib), (1, .aluSub nib), (2, .aluAnd nib), (3, .aluOr nib), (4, .aluXor nib), (5, .aluSll nib),
        (6, .aluSrl nib), (7, .aluSra nib), (8, .aluMul nib), (9, .aluSlt nib), (10, .aluSltu nib), (11, .aluFlt nib), (12, .aluFeq nib),
        (13, .aluFadd nib), (14, .aluFmul nib)] → qFn w = fn →
      Answers c s (onNib nib.val (Spec.stepped (n.quill.pc + 4)
        (Spec.withReg n (qRd w) (Spec.alu fn (Spec.sreg n (qRa w)) (Spec.sreg n (qRb w))))) s)

/-- ADDI, LUI, LW and SW: the sum with the sign-extended immediate, the immediate shifted by 12, and one aligned word of data memory read
or written; nothing else changes. -/
def Obligations.QuillImmediateAndMemory : Prop :=
  ∀ (s : State) (nib : Fin 1024) (w : Nat) (n : Nib) (a : Word32), n = getNib s nib.val → Spec.atQuill s nib w →
    a = Spec.sreg n (qRa w) + BitVec.ofInt 32 (qImm15 w) →
    (qOp w = 2 → Answers (.addi nib) s (onNib nib.val (Spec.stepped (n.quill.pc + 4) (Spec.withReg n (qRd w) a)) s)) ∧
    (qOp w = 3 → Answers (.lui nib) s (onNib nib.val (Spec.stepped (n.quill.pc + 4)
      (Spec.withReg n (qRd w) (BitVec.ofInt 32 (qImm20 w) <<< 12))) s)) ∧
    (qOp w = 4 → a.toNat % 4 = 0 → a.toNat < 8192 → Answers (.lw nib) s (onNib nib.val (Spec.stepped (n.quill.pc + 4)
      (Spec.withReg n (qRd w) (tabGet 0 n.quill.dmem (a.toNat / 4)))) s)) ∧
    (qOp w = 5 → a.toNat % 4 = 0 → a.toNat < 8192 → Answers (.sw nib) s (onNib nib.val (Spec.stepped (n.quill.pc + 4)
      { n with quill := { n.quill with dmem := tabSet 0 n.quill.dmem (a.toNat / 4) (Spec.sreg n (qRd w)) } }) s)) ∧
    ((qOp w = 4 ∨ qOp w = 5) → (a.toNat % 4 ≠ 0 ∨ 8192 ≤ a.toNat) → ∃ t, Answers (if qOp w = 4 then .lw nib else .sw nib) s t ∧
      (getNib t nib.val).quill.run = .faulted ∧ (getNib t nib.val).count.qReason = 2 ∧
      (getNib t nib.val).count.qPc = n.quill.pc)

/-- Branches and jumps go to PC + 4 × offset, or RA + immediate, where the target is an instruction word; JAL and JALR leave PC + 4 in RD, RA
being read first. -/
def Obligations.QuillControl : Prop :=
  ∀ (s : State) (nib : Fin 1024) (w : Nat) (n : Nib) (pc t15 t20 tr : Nat) (a b : Word32), n = getNib s nib.val → Spec.atQuill s nib w →
    pc = n.quill.pc → t15 = (BitVec.ofNat 32 pc + 4 * BitVec.ofInt 32 (qImm15 w)).toNat →
    t20 = (BitVec.ofNat 32 pc + 4 * BitVec.ofInt 32 (qImm20 w)).toNat →
    tr = (Spec.sreg n (qRa w) + BitVec.ofInt 32 (qImm15 w)).toNat → a = Spec.sreg n (qRa w) → b = Spec.sreg n (qBrb w) →
    (∀ (c : Instr) (cond : Bool) (o : Nat), (c, cond, o) ∈ [(.beq nib, a == b, 6), (.bne nib, a != b, 7), (.blt nib, a.slt b, 8),
        (.bge nib, !a.slt b, 9)] → qOp w = o → (cond = true → t15 < 16384) →
      Answers c s (onNib nib.val (Spec.stepped (if cond then t15 else pc + 4) n) s)) ∧
    (t20 < 16384 → qOp w = 0x0A → Answers (.jal nib) s
      (onNib nib.val (Spec.stepped t20 (Spec.withReg n (qRd w) (BitVec.ofNat 32 (pc + 4)))) s)) ∧
    (tr % 4 = 0 → tr < 16384 → qOp w = 0x0B → Answers (.jalr nib) s
      (onNib nib.val (Spec.stepped tr (Spec.withReg n (qRd w) (BitVec.ofNat 32 (pc + 4)))) s))

/-- MXQ and VXQ put the four words that their registers hold at the end of their queue, or stand while the queue is full (MXQ also behind
a store of its operand rows). DMA issues the eight words at its address, counted on its tag. CSRR and CSRW read and write the
control registers; a read of a plain register changes RD and the latch alone. -/
def Obligations.QuillIssue : Prop :=
  ∀ (s : State) (nib : Fin 1024) (w : Nat) (n : Nib) (q : Nat), n = getNib s nib.val → Spec.atQuill s nib w →
    q = (Spec.sreg n (qRd w)).toNat + 2 ^ 32 * (Spec.sreg n (qRa w)).toNat + 2 ^ 64 * (Spec.sreg n (qRb w)).toNat +
      2 ^ 96 * (Spec.sreg n (qW3 w)).toNat →
    (qOp w = 0x10 →
      (n.mq.length < 16 → storeOrder n q = false → ∃ e : MxEntry, e.word = q ∧ e.pc = n.quill.pc ∧ e.seq = n.seq ∧ e.fb = n.quill.fbBase ∧
        Answers (.mxq nib) s (onNib nib.val (Spec.stepped (n.quill.pc + 4) { n with mq := n.mq ++ [e], seq := n.seq + 1 }) s)) ∧
      (16 ≤ n.mq.length ∨ storeOrder n q = true → Answers (.mxq nib) s s)) ∧
    (qOp w = 0x11 →
      (n.vq.length < 16 → ∃ e : VecEntry, e.word = q ∧ e.pc = n.quill.pc ∧ e.seq = n.seq ∧
        Answers (.vxq nib) s (onNib nib.val (Spec.stepped (n.quill.pc + 4) { n with vq := n.vq ++ [e], seq := n.seq + 1 }) s)) ∧
      (16 ≤ n.vq.length → Answers (.vxq nib) s s)) ∧
    (∀ (a : Nat) (d : Desc) (rank : Nat), qOp w = 0x12 → a = (Spec.sreg n (qRa w) + BitVec.ofInt 32 (qImm15 w)).toNat → a % 32 = 0 →
      a + 31 < 8192 → n.inFlight < 32 → d.word = descWord n a → d.seq = n.seq → d.pc = n.quill.pc → d.started = false → d.landed = [] →
      d.held = [] → d.failed = false → d.done = false → d.stalled = false → d.signaled = false →
      d.sample = (if n.quill.sampled then some n.quill.strand else none) → d.ord = ((tagOf n d.tag).1 + 1) % 2 ^ 16 →
      rank = (match ctxOfNib s nib.val with
        | some c => (rankOfNib (getCtx s c).plot nib.val).getD 0
        | none => 0) → d.reason rank = 0 →
      Answers (.dma nib) s (onNib nib.val (Spec.stepped (n.quill.pc + 4)
        { n with descs := n.descs ++ [d], seq := n.seq + 1, tags := tabSet (0, 0) n.tags d.tag (d.ord, (tagOf n d.tag).2) }) s)) ∧
    (∀ i v, qOp w = 0x16 → i = qField w 11 0 → csrValue s nib.val i = some v → i ≠ 0x12 → i ≠ 0x13 →
      ∃ l x, Answers (.csrr nib) s (onNib nib.val (Spec.stepped (n.quill.pc + 4)
          (Spec.withReg { n with quill := { n.quill with latch := l } } (qRd w) (BitVec.ofNat 32 x))) s) ∧
        ((i = 5 ∨ i = 0x10 ∨ n.quill.latch = none) → x = v) ∧ (∀ hi, i = 6 → n.quill.latch = some (5, hi) → x = hi.toNat)) ∧
    (qOp w = 0x17 →
      (qField w 11 0 = 7 → Answers (.csrw nib) s (onNib nib.val (Spec.stepped (n.quill.pc + 4)
        { n with tileOvf := bit (Spec.sreg n (qRa w)).toNat 0, tileNf := bit (Spec.sreg n (qRa w)).toNat 1 }) s)) ∧
      (qField w 11 0 = 0x11 → ∀ lo, n.quill.fbLow = some lo → Answers (.csrw nib) s (onNib nib.val (Spec.stepped (n.quill.pc + 4)
        { n with quill := { n.quill with
            fbBase := (Spec.sreg n (qRa w)).toNat * 2 ^ 32 + lo.toNat, fbLow := none } }) s)))

/-- Waits. WSIG, WTAG, RSUM and VWAIT go on at once where what they wait for is there, else the core waits on it; the wait's end goes on at the
next word. A counter is compared modulo 2^16. -/
def Obligations.QuillWaits : Prop :=
  ∀ (s : State) (nib : Fin 1024) (w : Nat) (n : Nib), n = getNib s nib.val → nibRuns s nib.val = true → n.quill.pc % 4 = 0 →
    n.quill.pc + 4 < 16384 →
    (∀ (c : Instr) (o kind a b : Nat) (there : Bool), Spec.atQuill s nib w → qOp w = o → (o = 0x13 → qRd w ≤ 15) →
      (c, o, kind, a, b, there) ∈ [
        (.wsig nib, 0x13, 4, qRd w, (Spec.sreg n (qRa w)).toNat, sigReached n (qRd w) (Spec.sreg n (qRa w)).toNat),
        (.wtag nib, 0x14, 5, qField w 5 0, (tagOf n (qField w 5 0)).1, tagDone n (qField w 5 0) (tagOf n (qField w 5 0)).1),
        (.vwait nib, 0x18, 7, 0, 0, decide (n.vq = []))] →
      Answers c s (onNib nib.val (if there then Spec.stepped (n.quill.pc + 4) n
        else { n with quill := { n.quill with run := .waiting kind a b, stalled := false } }) s)) ∧
    (∀ i f, Spec.atQuill s nib w → qOp w = 0x15 → i = qField w 1 0 → f = qField w 3 2 →
      Answers (.rsum nib) s (onNib nib.val (if slotReady n i then
          Spec.stepped (n.quill.pc + 4) (Spec.withReg n (qRd w) (BitVec.ofNat 32 (slotField n i f)))
        else { n with quill := { n.quill with run := .waiting 6 (i + 4 * f) (qRd w), stalled := false } }) s)) ∧
    (∀ k v, n.quill.run = .waiting 4 k v → sigReached n k v = true →
      Answers (.wsigDone nib) s (onNib nib.val (Spec.stepped (n.quill.pc + 4) n) s)) ∧
    (∀ t cap, n.quill.run = .waiting 5 t cap → tagDone n t cap = true →
      Answers (.wtagDone nib) s (onNib nib.val (Spec.stepped (n.quill.pc + 4) n) s)) ∧
    (∀ i f rd, i < 4 → n.quill.run = .waiting 6 (i + 4 * f) rd → slotReady n i = true →
      Answers (.rsumDone nib) s (onNib nib.val (Spec.stepped (n.quill.pc + 4)
        (Spec.withReg n rd (BitVec.ofNat 32 (slotField n i f)))) s)) ∧
    (∀ a b, n.quill.run = .waiting 7 a b → n.vq = [] →
      Answers (.vwaitDone nib) s (onNib nib.val (Spec.stepped (n.quill.pc + 4) n) s))

/-- END counts the strand and, without prediction, starts strand + PLOT_NIBS at PC 0 with its registers zero while the grid has it, else the
nib has finished.
The watchdogs that only report: a core that waits, a matrix head and a vector head that wait, are each reported once, with the counter and
the event; the nib keeps nothing but the mark, and nothing else changes. -/
def Obligations.StrandEndAndStalls : Prop :=
  ∀ (s : State) (nib : Fin 1024) (n : Nib), n = getNib s nib.val → nibRuns s nib.val = true →
    (∀ (w c : Nat) (r : Record) (next : Nat), Spec.atQuill s nib w → qOp w = 0x19 → ctxOfNib s nib.val = some c →
      (getCtx s c).record = some r → (getCtx s c).plot ≠ [] → n.pred = none →
    next = n.quill.strand + 16 * (getCtx s c).plot.length →
    Answers (.strandEnd nib) s (onNib nib.val
      { n with
          quill := (if next < r.grid then
              { n.quill with ended := n.quill.ended + 1, pc := 0, sregs := [], run := .running, strand := next, sampled := false, stalled := false }
            else { n.quill with ended := n.quill.ended + 1, run := .idle, finished := true }),
          count := { n.count with instrs := n.count.instrs + 1 } } s)) ∧
    (∀ k a b, n.quill.run = .waiting k a b → getF s (regAt .quill 0 0x40) 11 0 ≠ 0 → n.quill.stalled = false →
      ∃ t, Answers (.quillWait nib) s t ∧ Spec.eventSet t .quill 0 1 ∧
        t = Spec.reported t (onNib nib.val { n with quill := { n.quill with stalled := true } } s)) ∧
    (∀ e rest, n.mq = e :: rest → getF s (regAt .matrix 0 0x40) 23 12 ≠ 0 → mxEntryWait n e ≠ 0 → n.mqStall ≠ some e.seq →
      ∃ t, Answers (.issueStall nib) s t ∧ Spec.eventSet t .matrix 0 1 ∧
        t = Spec.reported t (onNib nib.val { n with mqStall := some e.seq } s)) ∧
    (∀ e rest, n.vq = e :: rest → getF s (regAt .vector 0 0x40) 11 0 ≠ 0 → vxEntryWait n e ≠ 0 → n.vqStall ≠ some e.seq →
      ∃ t, Answers (.vecStall nib) s t ∧ Spec.eventSet t .vector 0 1 ∧
        t = Spec.reported t (onNib nib.val { n with vqStall := some e.seq } s))

/-! ## Layers -/

/-- The context runs layer `r`, in this phase. -/
def Sys2Proof.Spec.inLayer (s : State) (c : Nat) (r : Record) (p : Phase) : Prop :=
  (getCtx s c).record = some r ∧ (getCtx s c).st = .running ∧ (getCtx s c).phase = p

/-- LAYER_START of a layer that runs strands, nothing saved and no error before: the image, the Litter frame, the thinning table and the circle
are taken in that order, one that is refused ending the start; then every nib of the plot holds the image and the strand whose number is its
rank, and the layer runs. LAYER_END once every nib has ended: the layer completes, or, predicted with too many misses, starts again dense.
REPLAY with AUTO_SPARE 0: the replay is counted and logged, and the layer starts again, an update layer from where its Scribes have rolled back
to, or a plot that has become too small waits for another dispatch; a suspect layer with REPLAY = 0 faults instead. The order of the checks at the start is the model's choice (log 52). -/
def Obligations.LayerSequence : Prop :=
  ∀ (s : State) (ctx : Fin 256) (r : Record) (x : Ctx), x = getCtx s ctx.val →
    (Spec.inLayer s ctx.val r .starting → plotReady s ctx.val = true → x.fresh = false → x.saved = none → x.cause = 0 →
      r.update = false → x.upd = none →
      ∀ s1, s1 = modCtx ctx.val (fun y => { y with started := true })
          (takeFree (modCtx ctx.val (fun y => { y with since := now s }) s)) →
        (∀ u, loadImage ctx.val r s1 = (none, u) → Answers (.layerStart ctx) s u) ∧
        (∀ i d u v, loadImage ctx.val r s1 = (some (i, d), u) → openLitter ctx.val r u = (false, v) → Answers (.layerStart ctx) s v) ∧
        (∀ i d u v z, loadImage ctx.val r s1 = (some (i, d), u) → openLitter ctx.val r u = (true, v) → loadThin ctx.val r d v = (none, z) →
          Answers (.layerStart ctx) s z) ∧
        (∀ i d u v z regions q, loadImage ctx.val r s1 = (some (i, d), u) → openLitter ctx.val r u = (true, v) →
          loadThin ctx.val r d v = (some (regions, none), z) → startCircle ctx.val r z = (true, q) →
          (getCtx q ctx.val).plot.Nodup → (getCtx q ctx.val).plot ≠ [] → (getCtx q ctx.val).record = some r → (getCtx q ctx.val).st = .running →
          (∀ g ∈ (getCtx q ctx.val).plot, g < 64 ∧ (getGrove q g).owner = some ctx.val ∧ (getGrove q g).pw = .awake) →
          tabWf Nib.cold q.nibs = true →
          ∃ t, Answers (.layerStart ctx) s t ∧ (getCtx t ctx.val).phase = .running ∧ t.hbm = q.hbm ∧
            ∀ k nib, nibOfRank (getCtx q ctx.val).plot k = some nib → (getNib t nib).quill.imem = i ∧
              (getNib t nib).quill.dmem = wordsOf d ∧ (getNib t nib).regions = regions ∧ (getNib t nib).mq = [] ∧ (getNib t nib).vq = [] ∧
              (getNib t nib).descs = [] ∧ (getNib t nib).acc = [] ∧
              (k < r.grid → (getNib t nib).quill.strand = k ∧ (getNib t nib).quill.run = .running ∧ (getNib t nib).quill.pc = 0) ∧
              (r.grid ≤ k → (getNib t nib).quill.finished = true))) ∧
    (Spec.inLayer s ctx.val r .running → r.update = false → x.ligWait = false →
      (∀ n ∈ plotNibs x.plot, nibEnded (getNib s n) = true) →
      (missSum (drainPlot x.plot s) x.plot = none → r.ligOp ≠ 2 →
        Answers (.layerEnd ctx) s (completeLayer ctx.val 1 (drainPlot x.plot s))) ∧
      (∀ m, missSum (drainPlot x.plot s) x.plot = some m → (r.rerun = 0 ∨ m < r.rerun) → r.ligOp ≠ 2 →
        Answers (.layerEnd ctx) s (completeLayer ctx.val 1 (notePrediction ctx.val m false (drainPlot x.plot s)))) ∧
      (∀ m, missSum (drainPlot x.plot s) x.plot = some m → r.rerun ≠ 0 → r.rerun ≤ m →
        ∃ t, Answers (.layerEnd ctx) s t ∧ (getCtx t ctx.val).phase = .starting ∧ (getCtx t ctx.val).dense = true ∧
          (getCtx t ctx.val).rerunDense = true ∧ (getCtx t ctx.val).replays = x.replays ∧ Spec.eventSet t .thin 0 3)) ∧
    (x.st = .running → x.phase = .suspect → s.supply.dip = false → x.record = some r → r.replay = false →
      ∀ stuck, ∃ t, Answers (.replay ctx stuck) s t ∧ (getCtx t ctx.val).st = .faulted ∧ Spec.eventSet t .seedbank 0 2 ∧
        ((getCtx t ctx.val).lastCode = 0x0302 ∨ (getCtx t ctx.val).lastCode = 0x0205)) ∧
    ((x.phase = .replaying ∨ (x.phase = .suspect ∧ s.supply.dip = false ∧ r.replay = true)) → x.record = some r → autoSpare s = false →
      awaitsReplacement s ctx.val = false →
      ∀ stuck, ∃ t, Answers (.replay ctx stuck) s t ∧ (getCtx t ctx.val).replays = x.replays + 1 ∧ (getCtx t ctx.val).cause = 0 ∧
        (getCtx t ctx.val).started = x.upd.isSome ∧
        (getCtx t ctx.val).saved = x.saved.map (fun v => { v with restart := true, cause := 0 }) ∧
        (getCtx t ctx.val).plot = liveGroves s ctx.val ∧ Spec.eventSet t .seedbank 0 0 ∧
        (getCtx t ctx.val).phase = (if r.update = false ∧ (liveGroves s ctx.val).length < r.plotMin ∧ x.saved = none then .none
          else if x.upd.isSome then .running else .starting))

/-! ## Wear and replacement -/

/-- MARGIN_LOW makes a nib retiring. NIB_TRANSPLANT moves a logical nib with its rows to its grove's spare, swept before, and retires the
physical one; with no spare to use the grove retires. GROVE_REPLACE puts a free grove in a retired one's place in the plot. SWEEP takes the
free grove swept longest ago; SWEEP_END, with AUTO_SPARE 0, notes what it found. -/
def Obligations.SeedbankUpkeep : Prop :=
  ∀ (s : State),
    (∀ p : Fin 1088, getF s (regAt .seedbank 0 0x40) 11 5 ≠ 0 → 16 ≤ (getPNib s p.val).lowTicks → pnibServes s p.val = true →
      (getPNib s p.val).retiring = false → (getPNib s p.val).failed = false → (autoSpare s = false ∨ noSpare s (p.val / 17) = false) →
      ∃ t, Answers (.marginLow p) s t ∧ Spec.eventSet t .seedbank 0 5 ∧
        t = Spec.reported t { s with pnibs := tabSet PNib.cold s.pnibs p.val { getPNib s p.val with retiring := true } }) ∧
    (∀ (nib : Fin 1024) (g : Nat), g = nib.val / 16 → autoSpare s = true → atBoundary s g = true → (getGrove s g).pw ≠ .retired →
      s.supply.dip = false → (∀ k, k < 17 → (getPNib s (17 * g + k)).rowsDue = []) →
      (getPNib s (physOf s nib.val)).retiring = true →
      (noSpare s g = true → ∃ t, Answers (.nibTransplant nib) s t ∧ (getGrove t g).pw = .retired ∧ Spec.eventSet t .seedbank 0 8 ∧
        Spec.eventSet t .canopy 0 4 ∧ BitVec.ofNat 64 (mapEntry 3 g) ∈ t.seedbank.entries) ∧
      (noSpare s g = false → (getPNib s (17 * g + 16)).sweptOk = true → tabWf Nib.cold s.nibs = true →
      ∃ t, Answers (.nibTransplant nib) s t ∧ physOf t nib.val = 17 * g + 16 ∧ (getPNib t (physOf s nib.val)).retired = true ∧
        getNib t nib.val = (dropBadRows (getNib s nib.val)).1 ∧ (∀ m, m ≠ nib.val → getNib t m = getNib s m) ∧
        Spec.eventSet t .seedbank 0 4 ∧ t.hbm = s.hbm)) ∧
    (∀ (old new : Fin 64) (c : Nat), (getGrove s old.val).owner = some c → (getGrove s old.val).pw = .retired →
      old.val ∈ (getCtx s c).plot → (getCtx s c).phase = .none → groveAvail s new.val = true → (getGrove s new.val).owner = none →
      heirOf s new.val = none →
      s.supply.dip = false → s.seedbank.sweeping ≠ some new.val → (getGrove s new.val).pw = .awake →
      ∃ t, Answers (.groveReplace old new) s t ∧
        (getCtx t c).plot = (getCtx s c).plot.map (fun g => if g = old.val then new.val else g) ∧
        (getGrove t new.val).owner = some c ∧ (getGrove t new.val).dirty = false ∧ (getGrove t old.val).owner = none ∧ t.hbm = s.hbm) ∧
    (s.boot.st = .run → getF s (regAt .seedbank 0 0x40) 23 12 ≠ 0 → s.seedbank.sweeping = none →
      s.seedbank.sweepAt + getF s (regAt .seedbank 0 0x40) 23 12 * 50000000 ≤ s.uclk →
      (∀ g, g < 64 → groveFree s g = false) → Answers .sweep s s) ∧
    (s.boot.st = .run → getF s (regAt .seedbank 0 0x40) 23 12 ≠ 0 → s.seedbank.sweeping = none →
      s.seedbank.sweepAt + getF s (regAt .seedbank 0 0x40) 23 12 * 50000000 ≤ s.uclk →
      ∀ g, g < 64 → groveFree s g = true →
      ∃ t k, Answers .sweep s t ∧ t.seedbank.sweeping = some k ∧ t.seedbank.sweepAt = s.uclk ∧ groveFree s k = true ∧
        (getGrove s k).swept ≤ (getGrove s g).swept) ∧
    (∀ (g : Fin 64) (find : SweepFind), s.seedbank.sweeping = some g.val → (getGrove s g.val).pw = .awake → autoSpare s = false →
      ∃ t, Answers (.sweepEnd g find) s t ∧ t.seedbank.sweeping = none ∧ t.seedbank.sweeps = satAdd 24 s.seedbank.sweeps 1 ∧
        (getGrove t g.val).swept = s.uclk ∧ (getGrove t g.val).dirty = false ∧
        (t.seedbank.lastOk = true ↔ (∀ e ∈ find.rows, e.1.val / 17 ≠ g.val) ∧ (∀ p ∈ find.nibs, p.val / 17 ≠ g.val) ∧
          ∀ e ∈ find.spares, e.1.val / 17 ≠ g.val) ∧
        (t.seedbank.lastOk = false → Spec.eventSet t .seedbank 0 6) ∧ t.hbm = s.hbm)

/-! ## The matrix queue -/

/-- Nothing but the nib's queue and flags, what is said of it in `n`, its context's vote and what is reported differs: memory, every other nib and
every other unit are as before. -/
def Sys2Proof.Spec.onlyNib (s t : State) (nib : Nat) (n : Nib) : Prop :=
  t = Spec.reported t { s with nibs := t.nibs, ctxs := t.ctxs } ∧ (∀ m, m ≠ nib → getNib t m = getNib s m) ∧
  (∀ c, { getCtx t c with vote := (getCtx s c).vote } = getCtx s c) ∧ getNib t nib = n

/-- The matrix queue's head is `e`, of opcode `o`; no gather group is open and it may issue. -/
def Sys2Proof.Spec.mxHead (s : State) (nib : Nat) (e : MxEntry) (rest : List MxEntry) (o : Nat) : Prop :=
  nibRuns s nib = true ∧ (getNib s nib).mq = e :: rest ∧ mxOp e.word = o ∧ (getNib s nib).gather = 0 ∧ mxEntryWait (getNib s nib) e = 0

/-- Accumulator tables and the table of nibs in canonical form. -/
def Sys2Proof.Spec.accOk (s : State) (nib : Nat) : Prop := tabWf Nib.cold s.nibs = true ∧ tabWf AccRow.clear (getNib s nib).acc = true

/-- ACCCLR clears rows ACC to ACC + N − 1 of every enabled array and nothing else. MMA adds its 16 products into every entry of rows ACC to
ACC + M − 1 of every enabled array, beginning from zero with CLR; without CLR, one whose anchor differs from a row's tag or that passes a
row's depth raises ANCHOR_MISMATCH or ACC_DEPTH. A sparse MMA adds the products of each entry of its tile. READOUT
writes its rows, or a tile to the finished-tile queue, and clears what it reads with CLR. A group that is open takes members, and issues
them in order as one pass. Memory stays, but for a feedback word. That weights held by an array are their decoded values is the model's choice
(log 68), and so are that anchor and depth are checked before the rows read (log 78), and which rows a sparse MMA reads: its stream rows (log
152), and on the expanded path every row of its K block (log 86). -/
def Obligations.MatrixIssue : Prop :=
  ∀ (s : State) (nib : Fin 1024) (n : Nib) (e : MxEntry) (rest : List MxEntry), n = getNib s nib.val → Spec.accOk s nib.val →
    AccClr.ofWord e.word = ⟨bits e.word 11 8, bits e.word 17 12, bits e.word 24 18⟩ ∧
    (∀ i : AccClr, i = AccClr.ofWord e.word → Spec.mxHead s nib.val e rest 0x49 → i.reason = 0 →
      ∃ t, Answers (.accclrIssue nib) s t ∧ t = { s with nibs := t.nibs } ∧
        getNib t nib.val = { n with mq := rest, acc := (getNib t nib.val).acc } ∧ (∀ m, m ≠ nib.val → getNib t m = getNib s m) ∧
        ∀ a r, a < 4 → r < 64 → (getNib t nib.val).accRow a r =
          if bit i.amask a = true ∧ i.acc ≤ r ∧ r < i.acc + i.n then AccRow.clear else n.accRow a r) ∧
    (∀ (i : Mma) (ds : List Row), i = Mma.ofWord e.word → Spec.mxHead s nib.val e rest 0x40 → isSparse n.regions e.word = false →
      opensGroup s n e.word = false → i.reason (holds n) = 0 → i.idle = false →
      (i.clr = true ∨ accCheck (n.mmaRows i) i.anchor 1 = none) → n.feedRows i.rows = .ok ds →
      ∃ t, Answers (.mmaIssue nib []) s t ∧ t = { s with nibs := t.nibs } ∧ (∀ m, m ≠ nib.val → getNib t m = getNib s m) ∧
        getNib t nib.val = { n with
          mq := rest, acc := (getNib t nib.val).acc, held := (getNib t nib.val).held, actBuf := (getNib t nib.val).actBuf,
          wBuf := (getNib t nib.val).wBuf, scaleBuf := (getNib t nib.val).scaleBuf,
          count := { n.count with mmas := n.count.mmas + 1 } } ∧
        (∀ a r, a < 4 → r < 64 → bit i.amask a = false ∨ r < i.acc ∨ i.acc + i.m ≤ r →
          (getNib t nib.val).accRow a r = n.accRow a r) ∧
        ∀ a h, a < 4 → bit i.amask a = true →
          (if i.wmode = 1 then vget none n.held a else some (mmaWeights i (i.rows.zip ds) a)) = some h →
          vget none (getNib t nib.val).held a = some h ∧
          ∀ j b, j < i.m → b = (n.accRow a (i.acc + j)).begin i.anchor i.clr 1 →
            ((getNib t nib.val).accRow a (i.acc + j)).tag = b.tag ∧ ((getNib t nib.val).accRow a (i.acc + j)).depth = b.depth ∧
            ∀ q, q < 16 → (vget AccEntry.clear ((getNib t nib.val).accRow a (i.acc + j)).entries q).sum =
              (List.range 16).foldl (fun v k => v + BitVec.ofInt 88
                (termOfProduct i.anchor ((mmaActs i (i.rows.zip ds) j).getD k .nan) (h.elems.getD (16 * k + q) .nan)).v)
                (vget AccEntry.clear b.entries q).sum) ∧
    (∀ (i : Mma) (err : AccErr), i = Mma.ofWord e.word → Spec.mxHead s nib.val e rest 0x40 → isSparse n.regions e.word = false →
      opensGroup s n e.word = false → i.reason (holds n) = 0 → i.idle = false → i.clr = false →
      accCheck (n.mmaRows i) i.anchor 1 = some err →
      ∃ t, Answers (.mmaIssue nib []) s t ∧ Spec.eventSet t .numeric 0 (match err with | .anchor => 2 | .depth => 3)) ∧
    (Spec.mxHead s nib.val e rest 0x40 → isSparse n.regions e.word = false → opensGroup s n e.word = true →
      ∃ t, Answers (.mmaIssue nib []) s t ∧ t = { s with nibs := t.nibs } ∧
        getNib t nib.val = growGroup { n with gather := 1 } 16 ∧ 1 ≤ (getNib t nib.val).gather) ∧
    (nibRuns s nib.val = true → n.gather ≠ 0 →
      (∀ ups, ∃ t, Answers (.mmaIssue nib ups) s t ∧ t = { s with nibs := t.nibs } ∧ getNib t nib.val = growGroup n 16 ∧
        n.gather ≤ (getNib t nib.val).gather) ∧
      (∀ late, late = true ∨ groupDue (growGroup n 16) = true → ∃ u, Answers (.gatherPass nib late []) s (issueMembers nib.val (growGroup n 16).gather u) ∧
        u = { s with nibs := u.nibs } ∧ (getNib u nib.val).mq = n.mq ∧ (getNib u nib.val).gather = 0 ∧
        (getNib u nib.val).count.gathered = satAdd 32 n.count.gathered 1)) ∧
    (∀ (i : Mma) (region : Nat) (head : Row) (h : SparseHead) (sd gd : List Row) (tile : List (List (Nat × Nat))),
      i = Mma.ofWord e.word → Spec.mxHead s nib.val e rest 0x40 → regionOf n.regions i.aRow = some region → i.shapeReason = 0 →
      i.sparseReason = 0 → i.idle = false → (i.clr = true ∨ accCheck (n.mmaRows i) i.anchor 128 = none) →
      n.readRows [i.aRow] = .ok [head] → h = sparseHead head → n.readRows (streamRows i h) = .ok sd →
      tile = decodeTile i h ((streamRows i h).zip sd) →
      n.readRows (gatheredRows i (runsCompacted s region h.total) tile) = .ok gd →
      ∃ t, Answers (.sparseMmaIssue nib []) s t ∧ Spec.onlyNib s t nib.val { n with
          mq := rest, acc := (getNib t nib.val).acc, held := (getNib t nib.val).held, actBuf := [], wBuf := (getNib t nib.val).wBuf,
          scaleBuf := [], count := (getNib t nib.val).count } ∧ (∀ a, a < 4 → vget none (getNib t nib.val).held a = none) ∧
        ∀ a j, a < 4 → bit i.amask a = true → j < i.m → (getNib t nib.val).accRow a (i.acc + j) =
          (tile.getD j []).foldl (addEntry i ((gatheredRows i (runsCompacted s region h.total) tile).zip gd) a)
            ((n.accRow a (i.acc + j)).begin i.anchor i.clr 128)) ∧
    (∀ (i : Readout) (outs : Nat → List ReadOut), i = Readout.ofWord e.word → Spec.mxHead s nib.val e rest 0x48 → i.reason = 0 → i.n ≠ 0 →
      i.sr = false → wantFeedback s nib.val = false →
      (∀ j, outs j = (readAccRow i (fp8Sat s) false (spatterKey s nib.val) j (n.accRow i.array (i.acc + j))).1) →
      ∃ t, Answers (.readoutIssue nib) s t ∧ Spec.onlyNib s t nib.val { n with
          mq := rest, acc := (getNib t nib.val).acc, rows := (getNib t nib.val).rows, actBuf := (getNib t nib.val).actBuf,
          wBuf := (getNib t nib.val).wBuf, scaleBuf := (getNib t nib.val).scaleBuf, ftq := (getNib t nib.val).ftq,
          tileOvf := (getNib t nib.val).tileOvf, tileNf := (getNib t nib.val).tileNf } ∧
        (i.clr = true → ∀ j, j < i.n → (getNib t nib.val).accRow i.array (i.acc + j) = AccRow.clear) ∧
        (i.dest = false → (getNib t nib.val).rows = n.rows ∧ ∃ tile : Tile, (getNib t nib.val).ftq = n.ftq ++ [tile] ∧ tile.array = i.array ∧
          tile.rows.length = i.n ∧ ∀ j q, j < i.n → q < 16 →
            bits (tile.rows.getD j 0).toNat (32 * q + 31) (32 * q) = ((outs j).getD q ⟨0, false, false, false⟩).bits % 2 ^ 32) ∧
        (i.dest = true → (getNib t nib.val).ftq = n.ftq ∧
          (tabWf (if n.zeroed then some ⟨0, []⟩ else none) n.rows = true → ∀ k d, k < i.rows.length →
            (packReadout i ((List.range i.n).map outs))[k]? = some d → (getNib t nib.val).readRow (i.dRow + k) = .ok d)))

/-! ## The vector engine -/

/-- The vector queue's head is `e`, of opcode `o`; it may start and is legal. -/
def Sys2Proof.Spec.vecHead (s : State) (nib : Nat) (e : VecEntry) (rest : List VecEntry) (o : Nat) : Prop :=
  nibRuns s nib = true ∧ (getNib s nib).vq = e :: rest ∧ vxOp e.word = o ∧ vxEntryWait (getNib s nib) e = 0 ∧
  vxReason (getNib s nib) e.word = 0 ∧ tabWf Nib.cold s.nibs = true ∧ tabWf (0 : Lanes) (getNib s nib).tiles = true

/-- Element (r, k) that a vector instruction computes. -/
def Sys2Proof.Spec.elemAt (n : Nib) (w : Nat) (f : Nat → Nat → Nat → LaneOut) (r k : Nat) : LaneOut :=
  f (lane (n.tileRow (vxA w) r) k) (if vxBscal w then vxScalar w else lane (n.tileRow (vxB w) r) k) (lane (n.tileRow (vxC w) r) k)

/-- After a vector instruction: the queue's rest, tile register DST as given in rows below `rows`, every other tile row, and all else but flags, as
before. -/
def Sys2Proof.Spec.tileDone (s t : State) (nib : Nat) (rest : List VecEntry) (dst rows : Nat) (v : Nat → Nat → Nat) : Prop :=
  Spec.onlyNib s t nib { getNib s nib with
    vq := rest, tiles := (getNib t nib).tiles, tileOvf := (getNib t nib).tileOvf, tileNf := (getNib t nib).tileNf } ∧
  (∀ r k, r < 16 → k < 64 → lane ((getNib t nib).tileRow dst r) k =
    if r < rows then v r k % 2 ^ 32 else lane ((getNib s nib).tileRow dst r) k) ∧
  (∀ d r, d ≠ dst → r < 16 → (getNib t nib).tileRow d r = (getNib s nib).tileRow d r)

/-- Each element-wise vector instruction writes its function of the source elements, or of the scalar where BSCAL is 1, to rows 0 to
ROWS − 1 of DST, and notes a non-finite result of finite inputs; VRNG writes Spatter numbers. The model's choices: that with BSCAL the scalar is no
input of a one-operand instruction (log 166), what VFN gives at -0 (log 168), and how VEXP2 and VLOG2 round (log 15). -/
def Obligations.VectorElements : Prop :=
  ∀ (s : State) (nib : Fin 1024) (n : Nib) (e : VecEntry) (rest : List VecEntry), n = getNib s nib.val →
    (∀ (c : Instr) (o : Nat) (f : Nat → Nat → Nat → LaneOut), (c, o, f) ∈ [
        (.vadd nib, 0x60, elem2 fadd), (.vsub nib, 0x61, elem2 fsub), (.vmul nib, 0x62, elem2 fmul), (.vfma nib, 0x63, elem3 ffma),
        (.vmax nib, 0x64, elem2 fmaxp), (.vmin nib, 0x65, elem2 fminp), (.vabs nib, 0x66, elem1 fabs), (.vneg nib, 0x67, elem1 fneg),
        (.vrcp nib, 0x68, elem1 frcp), (.vsqrt nib, 0x69, elem1 fsqrt), (.vrsqrt nib, 0x6A, elem1 frsqrt), (.vexp2 nib, 0x6B, elem1 fexp2),
        (.vlog2 nib, 0x6C, elem1 flog2), (.vcmplt nib, 0x6D, elem2 fcmplt), (.vsel nib, 0x6E, elem3 fsel), (.vmov nib, 0x70, elem1 fcopy),
        (.vfn nib, 0x6F, fun a _ _ => fnValue ((n.fnTable e.word).getD []) a)] →
      Spec.vecHead s nib.val e rest o →
      ∃ t, Answers c s t ∧
        Spec.tileDone s t nib.val rest (vxDst e.word) (vxRows e.word) (fun r k => (Spec.elemAt n e.word f r k).1) ∧
        ((getNib t nib.val).tileNf = true ↔ n.tileNf = true ∨
          ∃ r k, r < vxRows e.word ∧ k < 64 ∧ badElem (Spec.elemAt n e.word f r k) = true) ∧ (getNib t nib.val).tileOvf = n.tileOvf) ∧
    (Spec.vecHead s nib.val e rest 0x71 →
      ∃ t, Answers (.vrng nib) s t ∧ t = { s with nibs := t.nibs } ∧
        Spec.tileDone s t nib.val rest (vxDst e.word) (vxRows e.word) (fun r k =>
          round32 (.fin false (bits (tileSpatter (spatterKey s nib.val) e.word r k) 31 8) (-24))))

/-- VTLOAD takes a table image from seven rows; VLD widens a tile from the Inkwell; VST without a scale row or stochastic rounding writes its
rows; VPOP takes the oldest finished tile; VREDR and VREDC reduce rows and columns, alone or into the accumulators; VSUM writes a
summary slot. -/
def Obligations.VectorTransfers : Prop :=
  ∀ (s : State) (nib : Fin 1024) (n : Nib) (e : VecEntry) (rest : List VecEntry) (w : Nat), n = getNib s nib.val → w = e.word →
    (∀ ds, Spec.vecHead s nib.val e rest 0x78 → n.readRows (vxReads w) = .ok ds →
      ∃ t, Answers (.vtload nib []) s t ∧ t = { s with nibs := t.nibs } ∧
        getNib t nib.val = (if wb w 1 12 then { n with vq := rest, fn1 := some ds } else { n with vq := rest, fn0 := some ds })) ∧
    (∀ ds, Spec.vecHead s nib.val e rest 0x72 → n.readRows (vxReads w) = .ok ds →
      ∃ t, Answers (.vld nib []) s t ∧ Spec.tileDone s t nib.val rest (vxDst w) (vxRows w) (fun r k =>
        (widen (tileValue w ((vxReads w).zip ds) ((vxReads w).zip ds) (if vxBrow w then 0 else r) k)).bits)) ∧
    (Spec.vecHead s nib.val e rest 0x73 → vxScaleRows w = [] → (vxSr w = false ∨ vxFmt w = 0) → vxRows w ≠ 0 →
      tabWf (if n.zeroed then some ⟨0, []⟩ else none) n.rows = true →
      ∃ t, Answers (.vst nib []) s t ∧ Spec.onlyNib s t nib.val { n with
          vq := rest, rows := (getNib t nib.val).rows, actBuf := (getNib t nib.val).actBuf, wBuf := (getNib t nib.val).wBuf,
          scaleBuf := (getNib t nib.val).scaleBuf, tileOvf := (getNib t nib.val).tileOvf, tileNf := (getNib t nib.val).tileNf } ∧
        (∀ r ∈ vstRows w, (getNib t nib.val).readRow r =
          .ok (rowOfFields (storeTile w n (fp8Sat s) false (spatterKey s nib.val)).data r)) ∧
        (∀ r, r ∉ vstRows w → (getNib t nib.val).row r = n.row r)) ∧
    (∀ (tile : Tile) (more : List Tile), Spec.vecHead s nib.val e rest 0x74 → n.ftq = tile :: more →
      ∃ t, Answers (.vpop nib) s t ∧ t = { s with nibs := t.nibs } ∧ getNib t nib.val = { n with
          vq := rest, ftq := more, tiles := (getNib t nib.val).tiles, tileOvf := n.tileOvf || tile.ovf,
          tileNf := n.tileNf || tile.nf } ∧
        ∀ j k v, tile.rows[j]? = some v → k < 64 → lane ((getNib t nib.val).tileRow (vxDst w + j / 16) (j % 16)) k =
          if 16 * tile.array ≤ k ∧ k < 16 * tile.array + 16 then
            bits v.toNat (32 * (k - 16 * tile.array) + 31) (32 * (k - 16 * tile.array))
          else lane (n.tileRow (vxDst w + j / 16) (j % 16)) k) ∧
    (∀ (byRow : Bool) (start : Nat → RedEntry), Spec.vecHead s nib.val e rest (if byRow then 0x75 else 0x76) → vxRows w ≠ 0 →
      tabWf RedEntry.zero n.red = true →
      (∀ i, start i = if redMode w = 0 ∨ redClr w = true then RedEntry.clear else n.redEntry i) →
      redCheck w ((redInputs byRow n w).map (fun p => (start p.1, p.2.length))) = none →
      ∃ t, Answers (if byRow then .vredr nib else .vredc nib) s t ∧ Spec.onlyNib s t nib.val { n with
          vq := rest, red := (getNib t nib.val).red, tiles := (getNib t nib.val).tiles, tileOvf := (getNib t nib.val).tileOvf,
          tileNf := (getNib t nib.val).tileNf } ∧
        (redMode w ≠ 0 → ∀ p ∈ redInputs byRow n w, (getNib t nib.val).redEntry p.1 = (start p.1).addAll w p.2) ∧
        (redMode w = 0 → (getNib t nib.val).red = n.red) ∧ (redMode w = 1 → (getNib t nib.val).tiles = n.tiles) ∧
        (redMode w ≠ 1 → ∀ p ∈ redInputs byRow n w, ∀ j, (if byRow then j < 64 else j < 16) →
          lane ((getNib t nib.val).tileRow (vxDst w) (if byRow then p.1 else j)) (if byRow then j else p.1) =
            (((start p.1).addAll w p.2).result w).bits % 2 ^ 32)) ∧
    (∀ xs : List Machine.Num, Spec.vecHead s nib.val e rest 0x77 → vxRows w ≠ 0 →
      xs = (List.range (vxRows w)).flatMap (fun r => (List.range 64).map (fun k => val32 (lane (n.tileRow (vxA w) r) k))) →
      ∃ t x, Answers (.vsum nib) s t ∧ Spec.onlyNib s t nib.val { n with
          vq := rest, slots := (getNib t nib.val).slots, tileOvf := (getNib t nib.val).tileOvf,
          tileNf := (getNib t nib.val).tileNf } ∧
        tabFind? (getNib t nib.val).slots (wf w 1 1 0) = some x ∧ x.count = (xs.filter (fun v => !v.isZero)).length ∧
        (bit x.flags 0 = true ↔ ∃ v ∈ xs, v.isNaN = true) ∧ (bit x.flags 1 = true ↔ ∃ v ∈ xs, v.isNaN = false ∧ v.isFin = false) ∧
        (wb w 1 2 = true → (getNib t nib.val).tileOvf = false ∧ (getNib t nib.val).tileNf = false))

/-! ## DMA -/

/-- The flits of a row's eight parts, or of a request that no flit carries yet, from `src` to `dst` on a plane; a local row has none. -/
def Sys2Proof.Spec.flitsOf (s : State) (x : Xfer) (plane : Nat) (src dst : Stop) : List Flit :=
  let flit (k part : Nat) : Flit :=
    ⟨s.canopy.nextId + k, x.nib, x.seq, x.row, part, plane, src.router, src.router, dst.router, src.port, dst.port, src.port⟩
  if x.st = .flying then (List.range 8).map (fun k => flit k k)
  else if x.st = .req ∧ (∀ y ∈ s.canopy.xfers, ¬(y.nib = x.nib ∧ y.seq = x.seq ∧ y.group = x.group ∧ y.st = .req)) then [flit 0 8]
  else []

/-- After a row of descriptor d has gone out as the transfer x with these flits: the descriptor has started, memory stays. -/
def Sys2Proof.Spec.rowSent (c : Instr) (s : State) (nib : Nat) (d : Desc) (x : Xfer) (fs : List Flit) : Prop :=
  ∃ t, Answers c s t ∧ t.canopy.xfers = s.canopy.xfers ++ [x] ∧ t.canopy.flits = s.canopy.flits ++ fs ∧
    (getNib t nib).desc? d.seq = some { d with started := true } ∧ t.hbm = s.hbm

/-- Descriptors of one row, no sample and no signal: the read's request, the write's row, the local copy, the push, and the pull's request go out
with their flits on the plane of the row that each is for. A walk fills the nib's translation cache. That a request is one flit for all its rows
is the model's choice (log 66), and so is the plane of a pull request (log 114). -/
def Obligations.DmaIssue : Prop :=
  ∀ (s : State) (nib : Fin 1024) (n : Nib) (d : Desc) (c : Nat), n = getNib s nib.val → nibRuns s nib.val = true →
    ctxOfNib s nib.val = some c → n.desc? d.seq = some d → d.failed = false →
    (d.done = false → mayStart n d = true → d.rows = 1 → d.signal = false → d.sample = none → nextRow s nib.val d = some 0 →
      (∀ a, d.kind = 0 → rowGo s nib.val c d 0 = .hbm a → tagFree s nib.val d 0 = true → (d.addr 0).toNat < aperture →
        getF s (regAt .dma 0 0x40) 7 0 = 0 →
        ∀ x : Xfer, x = ⟨nib.val, d.seq, 0, d.request 0, .read, .req, a, (d.addr 0).toNat, 0, 0, none⟩ →
          Spec.rowSent (.descHbmRead nib d.seq) s nib.val d x (Spec.flitsOf s x (planeOf s (a / 512)) (nibStop nib.val) (edgeStop a))) ∧
      (∀ a v, d.kind = 1 → rowGo s nib.val c d 0 = .hbm a → tagFree s nib.val d 0 = true → sourceWaits n d d.lrow = false →
        n.readRow d.lrow = .ok v →
        ∀ x : Xfer, x = ⟨nib.val, d.seq, 0, d.request 0, .write, .flying, a, (d.addr 0).toNat, v, 0, none⟩ →
          Spec.rowSent (.descHbmWrite nib d.seq []) s nib.val d x (Spec.flitsOf s x (planeOf s (a / 512)) (nibStop nib.val) (edgeStop a))) ∧
      (∀ v, d.kind = 2 → sourceWaits n d d.xrow = false → n.readRow d.xrow = .ok v →
        Spec.rowSent (.descLocalCopy nib d.seq []) s nib.val d ⟨nib.val, d.seq, 0, 0, .local, .arrived, nib.val, 0, v, 0, none⟩ []) ∧
      (∀ far v, d.kind = 3 → nibOfRank (getCtx s c).plot d.xrank = some far → tagFree s nib.val d 0 = true →
        sourceWaits n d d.lrow = false → n.readRow d.lrow = .ok v →
        ∀ x : Xfer, x = ⟨nib.val, d.seq, 0, 0, .push, .flying, far, d.xrow, v, 0, none⟩ →
          Spec.rowSent (.push nib d.seq []) s nib.val d x (Spec.flitsOf s x (planeOf s d.xrow) (nibStop nib.val) (nibStop far))) ∧
      (∀ far, d.kind = 4 → nibOfRank (getCtx s c).plot d.xrank = some far → tagFree s nib.val d 0 = true →
        ∀ x : Xfer, x = ⟨nib.val, d.seq, 0, 0, .pull, .req, far, d.xrow, 0, 0, none⟩ →
          Spec.rowSent (.pull nib d.seq) s nib.val d x (Spec.flitsOf s x (planeOf s d.xrow) (nibStop nib.val) (nibStop far)))) ∧
    (∀ i va a wr scrub u, d.started = true → d.kind ≤ 1 → nextRow s nib.val d = some i → rowGo s nib.val c d i = .walk va →
      walk c va s = (.ok a wr scrub, u) → (d.kind = 1 → wr = true) → n.tlb.length ≤ 16 →
      ∃ t, Answers (.ptWalk nib d.seq) s t ∧ (getNib t nib.val).cached c va = some (a - va % 2 ^ 21, wr) ∧
        (getNib t nib.val).tlb.length ≤ 16 ∧ t.hbm.cells = s.hbm.cells)

/-- A row that has come is written at its place with fresh codes; a pushed row at the remote nib; a pull's row is read at the remote nib and sent
back. A descriptor whose rows have all landed completes, its tag's done count advancing. DMA_STALL reports a descriptor once. That a pushed row's
acknowledgement is part of its arrival, so that the row counts as landed at its source in the same step, is the model's reading (log 66). -/
def Obligations.DmaLanding : Prop :=
  ∀ (s : State) (nib : Fin 1024) (n : Nib) (d : Desc), n = getNib s nib.val → n.desc? d.seq = some d →
    (nibMoves s nib.val = true →
      (∀ row x, d.transpose = false → n.mayLand d row = true → findXfer s nib.val d.seq row = some x → x.st = .arrived →
        x.kind ≠ .push → tabWf (if n.zeroed then some ⟨0, []⟩ else none) n.rows = true →
        ∃ t, Answers (.dmaRowLand nib d.seq row) s t ∧ (getNib t nib.val).readRow (d.lrow + row) = .ok x.data ∧
          (∀ r, r ≠ d.lrow + row → (getNib t nib.val).row r = n.row r) ∧ findXfer t nib.val d.seq row = none ∧
          (∃ e, (getNib t nib.val).desc? d.seq = some e ∧ e.landed = d.landed ++ [row]) ∧ t.hbm = s.hbm ∧
          ∀ m, m ≠ nib.val → getNib t m = getNib s m) ∧
      (descReady d = true → n.descs.find? (fun e => e.tag == d.tag) = some d → (∀ e ∈ n.descs, e.seq ≠ d.seq → e.done = false) →
        tabWf Nib.cold s.nibs = true → tabWf ((0, 0) : Nat × Nat) n.tags = true →
        ∃ t, Answers (.descriptorComplete nib d.seq) s t ∧ t = { s with nibs := t.nibs } ∧ (getNib t nib.val).desc? d.seq = none ∧
          tagOf (getNib t nib.val) d.tag = ((tagOf n d.tag).1, d.ord) ∧ (getNib t nib.val).rows = n.rows) ∧
      (∀ row x, d.signal = false → findXfer s nib.val d.seq row = some x → x.kind = .push → x.st = .arrived → x.place ≠ nib.val →
        tabWf (if (getNib s x.place).zeroed then some ⟨0, []⟩ else none) (getNib s x.place).rows = true →
        ∃ t, Answers (.remotePushArrive nib d.seq row) s t ∧ (getNib t x.place).readRow x.addr = .ok x.data ∧
          (∀ r, r ≠ x.addr → (getNib t x.place).row r = (getNib s x.place).row r) ∧ findXfer t nib.val d.seq row = none ∧
          (∃ e, (getNib t nib.val).desc? d.seq = some e ∧ e.landed = d.landed ++ [row]) ∧ t.hbm = s.hbm) ∧
      (∀ row x v, d.signal = false → findXfer s nib.val d.seq row = some x → x.kind = .pull → x.st = .travel →
        tabWf Nib.cold s.nibs = true → (getNib s x.place).readRow x.addr = .ok v →
        ∃ t, Answers (.pullServe nib d.seq row []) s t ∧ findXfer t nib.val d.seq row = some { x with st := .flying, data := v } ∧
          t.canopy.flits.length = s.canopy.flits.length + 8 ∧ t.hbm = s.hbm)) ∧
    (nibRuns s nib.val = true → getF s (regAt .dma 0 0x40) 19 8 ≠ 0 → d.stalled = false → d.done = false →
      ∃ t, Answers (.dmaStall nib d.seq) s t ∧ Spec.eventSet t .dma 0 3 ∧
        t = Spec.reported t (onNib nib.val { n.setDesc { d with stalled := true } with count := { n.count with dTag := d.tag } } s))

/-! ## The Canopy and the memory controllers -/

/-- A flit whose input port is served goes to the next router, or at its last router leaves to its nib or edge block: a row's part joins it and the
last one brings the row in, a request reaches its controller or nib; one that fails its CRC at a router fails its transfer. A crossing of a
seam is counted, on the other plane where it is detoured. A link-direction that reaches its threshold drains for a spare wire, or fails and,
with its detour failed, stops the device; the switch takes the next free spare. The order of the ports in round robin and one hop per command
are the model's choice (log 59), and so are the single flit of a request (log 66), the link-direction in CRC_FAIL's entry (log 42), and that the
error window is emptied when the threshold is reached (log 60). -/
def Obligations.CanopyTransport : Prop :=
  ∀ (s : State),
    (∀ (k : Nat) (wire : Fin 568) (f : Flit), s.canopy.flits.find? (fun f => f.id == k) = some f → flitBehind s f = false →
      portServed s f = true → ∀ (robin : Tab Nat), robin = tabSet 0 s.canopy.robin (robinKey s f) (inPort s f) →
      (f.at_ = f.dst → ∀ crcOk,
        (findXfer s f.nib f.seq f.row = none → Answers (.flitArrive k crcOk wire) s
          { s with canopy := { s.canopy with flits := s.canopy.flits.filter (fun g => g.id != f.id), robin := robin } }) ∧
        (∀ x, findXfer s f.nib f.seq f.row = some x →
          ∃ t, Answers (.flitArrive k crcOk wire) s t ∧ t = { s with canopy := t.canopy } ∧ t.canopy.robin = robin ∧
            t.canopy.flits = s.canopy.flits.filter (fun g => g.id != f.id) ∧
            (f.part ≠ 8 → x.parts ≠ 7 → findXfer t f.nib f.seq f.row = some { x with parts := x.parts + 1 }) ∧
            (f.part ≠ 8 → x.parts = 7 → findXfer t f.nib f.seq f.row = some (rowArrived { x with parts := 8 })) ∧
            (f.part = 8 → t.canopy.xfers = s.canopy.xfers.map (fun y => if ofRequest s f y then { y with st := .travel } else y)))) ∧
      (f.at_ ≠ f.dst → ∀ (b : Nat) (moved : List Flit), b = nextRouter f.plane f.at_ f.dst →
        moved = s.canopy.flits.map (fun g =>
          if g.id = f.id then { g with at_ := b, port := facingPort (outPort f.plane f.at_ f.dst) } else g) →
        (seamOf f.plane f.at_ b = none →
          Answers (.flitArrive k true wire) s { s with canopy := { s.canopy with flits := moved, robin := robin } } ∧
          (∃ t, Answers (.flitArrive k false wire) s t ∧ Spec.eventSet t .canopy 0 0 ∧
            findXfer t f.nib f.seq f.row = none ∧ ∀ g ∈ t.canopy.flits, ¬(g.nib = f.nib ∧ g.seq = f.seq ∧ g.row = f.row))) ∧
        (∀ l, seamOf f.plane f.at_ b = some l → seamShut s l = false → seamThresh s = 0 →
          ∃ t, Answers (.flitArrive k true wire) s t ∧ (getSeam t (usedSeam s l)).flits = (getSeam s (usedSeam s l)).flits + 1 ∧
            t.canopy.flits = moved ∧ t.canopy.robin = robin ∧ t = { s with canopy := t.canopy }) ∧
        (∀ l, seamOf f.plane f.at_ b = some l → seamShut s l = true → Answers (.flitArrive k true wire) s s))) ∧
    (∀ (link : BitVec 8) (wire : Fin 568), seamDue s link.toNat = true →
      ((freeSpare (getSeam s link.toNat)).isSome = true → ∃ t, Answers (.seamErrorThreshold link wire) s t ∧ t = { s with canopy := t.canopy } ∧
        getSeam t link.toNat = { getSeam s link.toNat with drain := some wire.val, recent := [] }) ∧
      (freeSpare (getSeam s link.toNat) = none → ∃ t, Answers (.seamErrorThreshold link wire) s t ∧ (getSeam t link.toNat).failed = true ∧
        BitVec.ofNat 64 (mapEntry 6 link.toNat) ∈ t.seedbank.entries ∧ Spec.eventSet t .canopy 0 2 ∧
        ((getSeam s (otherPlane link.toNat)).failed = true → s.boot.st = .run → s.boot.stopping = none →
          Spec.eventSet t .canopy 0 3 ∧ t.boot.stopping = some 0x20))) ∧
    (∀ (link : BitVec 8) (wire k : Nat), (getSeam s link.toNat).drain = some wire → freeSpare (getSeam s link.toNat) = some k →
      ∃ t, Answers (.seamSwitch link) s t ∧
        getSeam t link.toNat = { getSeam s link.toNat with drain := none, spares := (getSeam s link.toNat).spares + 2 ^ k } ∧
        Spec.eventSet t .canopy 0 1 ∧ BitVec.ofNat 64 (mapEntry 5 (link.toNat + 2 ^ 8 * wire + 2 ^ 18 * k)) ∈ t.seedbank.entries)

/-- A request, or its retry, takes a tag, a write is accepted and its row stands in HBM, a full bank answers BANK_BUSY, and a hint is dropped
where it finds no cache, more than 3,072 tags in use or a full bank. A read that is served sends its row, or fails with MEM_UE. The patrol
yields while a request waits and else goes on to the next row. A refresh takes the stack's temperature and closes its bank's page (the model's
choice, log 115). A repair ends as a soft repair, a remap to the lowest free slot, or with the pool full. A stack's failure stops the device.
That a tag is the lowest free one (log 92), that each bank has one soft repair (log 116), that a remapped row takes the lowest free slot (log
158), in which states of the device MC_CFG acts (log 137) and when a read is due, its operand saying that its bank's oldest miss has waited
long enough (log 136), are the model's choice. -/
def Obligations.MemoryControllers : Prop :=
  ∀ (s : State),
    (∀ (nib : Fin 1024) (desc : Nat) (c : Instr) (st : XSt) (x : Xfer) (full : Bool),
      (c, st) ∈ [(Instr.mcRequest nib desc, XSt.travel), (.bankBusyRetry nib desc, .busy)] → oldestRequest s nib.val desc st = some x →
      full = (decide (bankCap s (mcOf x.place) ≠ 0) &&
        decide (bankCap s (mcOf x.place) ≤ bankTags s (mcOf x.place) (bankOf (dramOf (localOf x.place))))) →
      (full = false → x.kind = .read → ∀ k, freeTag s (mcOf x.place) = some k →
        Answers c s { s with canopy := { s.canopy with
          xfers := s.canopy.xfers.filter (fun y => !sameXfer x y) ++ [{ x with st := .tag k }] } }) ∧
      (full = false → x.kind = .write → (freeTag s (mcOf x.place)).isSome = true → MemoryOk s →
        ∃ t, Answers c s t ∧ findXfer t x.nib x.seq x.row = none ∧
          (∀ i, i < 512 → t.hbm.byte (x.place + i) = (bytesOfRow x.data).getD i 0) ∧
          (∀ a, (a < x.place ∨ x.place + 512 ≤ a) → t.hbm.byte a = s.hbm.byte a)) ∧
      (full = true → x.kind ≠ .hint → ∃ t, Answers c s t ∧ findXfer t x.nib x.seq x.row = some { x with st := .busy } ∧
        Spec.eventSet t .memctl (mcOf x.place) 4 ∧ t.hbm = s.hbm) ∧
      (x.kind = .hint → (mscMode s (mcOf x.place) ≠ 1 ∨ 3072 < (mcTags s (mcOf x.place)).length ∨ full = true) →
        Answers c s { s with canopy := { s.canopy with xfers := s.canopy.xfers.filter (fun y => !sameXfer x y) } })) ∧
    (∀ (mc : Fin 8) (tag : Fin 4096) (aged : Bool) (x : Xfer) (answer : Option Row),
      (∀ y ∈ s.canopy.xfers, y.st = .left tag.val → mcOf y.place ≠ mc.val) →
      s.canopy.xfers.find? (fun x => x.st == .tag tag.val && mcOf x.place == mc.val) = some x → x.kind ≠ .hint → readDue aged s x = true →
      (∀ y ∈ s.canopy.xfers, y.place / 512 = x.place / 512 → y.early = none) → (∀ y ∈ s.canopy.xfers, sameXfer x y = true → y = x) →
      findXfer (serveReads x.place s) x.nib x.seq x.row = some { x with early := some answer } →
      ∃ t, Answers (.mcRead mc tag aged []) s t ∧
        (∀ v, answer = some v → findXfer t x.nib x.seq x.row = some { x with st := .flying, data := v, early := none } ∧
          s.canopy.flits.length + 8 ≤ t.canopy.flits.length ∧ t.hbm.cells = s.hbm.cells) ∧
        (answer = none → findXfer t x.nib x.seq x.row = none ∧ Spec.eventSet t .memctl mc.val 1)) ∧
    (∀ (mc : Fin 8) (errs : List CwHit), mcWaiting s mc.val = true → Answers (.patrolRead mc errs) s s) ∧
    (∀ (mc : Fin 8) (errs : List CwHit), mcLive s mc.val = true → getF s (regAt .memctl mc.val 0x44) 11 0 ≠ 0 → mcWaiting s mc.val = false →
      ∃ t, Answers (.patrolRead mc errs) s t ∧ (getMc t mc.val).patrol = ((getMc s mc.val).patrol + 1) % mcRows ∧
        t.hbm.cells = s.hbm.cells ∧ (errs = [] → s.hbm.bad = [] → (getMc s mc.val).repairs = [] → t.hbm = s.hbm)) ∧
    (∀ (mc : Fin 8) (bank : Fin 1024) (temp : Nat), mcLive s mc.val = true →
      ∃ t, Answers (.refresh mc bank temp) s t ∧ t = { s with mcs := t.mcs } ∧ (getMc t mc.val).tempC = min 255 temp ∧
        (getMc t mc.val).pages = tabErase (getMc s mc.val).pages (64 * (bank.val % 16) + bank.val / 16)) ∧
    (∀ (mc : Fin 8) (held soft : Bool) (r : Repair) (rest : List Repair) (m : Mc), m = getMc s mc.val → m.repairs = r :: rest →
      soft = (held && !softUsed m (bankOf r.key)) →
      ∃ t, Answers (.pprDone mc held) s t ∧ (getMc t mc.val).repairs = rest ∧ t.hbm.cells = s.hbm.cells ∧
        (soft = true → (getMc t mc.val).soft = m.soft + 1 ∧ (getMc t mc.val).slots = m.slots ∧ Spec.eventSet t .memctl mc.val 2 ∧
          BitVec.ofNat 64 (mapEntry 9 (dramField mc.val r.key)) ∈ t.seedbank.entries) ∧
        (∀ k, soft = false → freeRemap s mc.val = some k → (getMc t mc.val).slots = m.slots + 1 ∧ Spec.eventSet t .memctl mc.val 2 ∧
          BitVec.ofNat 64 (mapEntry 10 (dramField mc.val r.key + 2 ^ 30 * k)) ∈ t.seedbank.entries) ∧
        (soft = false → freeRemap s mc.val = none → (getMc t mc.val).slots = m.slots ∧ Spec.eventSet t .memctl mc.val 3)) ∧
    (∀ mc : Fin 8, mcLive s mc.val = true → ∃ t, Answers (.stackFail mc) s t ∧ (getMc t mc.val).trained = false ∧
      Spec.eventSet t .memctl mc.val 5 ∧ (s.boot.st = .run → s.boot.stopping = none → t.boot.stopping = some 0x21))

/-! ## The Scribe -/

/-- A Scribe finishes a group that it owns: in the norm phase the group's terms join the descriptor's sum, in the apply phase its new values are
written and the group is done. UPDATE_COMMIT writes the block and completes the layer. SCR_STALL reports a Scribe that has work once. The order in
which a Scribe takes its groups, which says what it is at, is the model's choice (log 139). -/
def Obligations.ScribeWork : Prop :=
  ∀ (s : State),
    (∀ (mc : Fin 8) (ctx : Fin 256) (desc group j : Nat) (r : Record) (w : UpdWork) (t : UpdTensor) (u v : State),
      Spec.inLayer s ctx.val r .running → (getCtx s ctx.val).upd = some w → w.tensors[desc]? = some t → group < t.work →
      listedGroup ctx.val t.d group s = (.ok j, u) → groupOwner ctx.val t.d j u = (.ok mc.val, v) →
      ∀ z, z = modScribe mc.val (fun y => { y with stalled := none }) v →
      (∀ gr q, w.phase = 3 → t.normDue = true → group ∉ t.normed → readGrads ctx.val t.d group (t.d.inGroup j) z = (.ok gr, q) →
        ∃ a : NormSum, a = gr.foldl (fun a g => match g with
            | some G => normTerm t.d.clipAnchor w.lsExp a G
            | none => a) (⟨t.normSum, t.normNf⟩ : NormSum) ∧
          Answers (.scribeGroupDone mc ctx desc group) s (settleNorms ctx.val (setTensor ctx.val desc
            { t with normSum := a.sum, normNf := a.nf, normed := t.normed ++ [group] } q))) ∧
      (∀ (g : GroupIn) q rows y, w.phase = 4 → (∀ e ∈ t.done, e.idx ≠ group) → t.d.isLazy = false →
        readWork ctx.val t.d group j z = (.ok g, q) → imageRows ctx.val t.d j g.data q = (rows, y) →
        ∀ o p, o = computeGroup t.d (corrOf t.d r.step.toNat) none w.lsExp t.factor (t.d.inGroup j) g.grads g.data →
          writeAll ctx.val (groupWrites (fp8Sat q) t.d j g.data o) (keepImage mc.val ⟨false, ctx.val, desc, group, rows, none⟩ y) = (none, p) →
          Answers (.scribeGroupDone mc ctx desc group) s (settleApply ctx.val (doneGroup ctx.val desc t
            ⟨group, t.d.inGroup j - o.unchanged, o.unchanged, false, false⟩ p)))) ∧
    (∀ (ctx : Fin 256) (r : Record) (w : UpdWork), Spec.inLayer s ctx.val r .running → (getCtx s ctx.val).upd = some w →
      (w.phase ≠ 5 → Answers (.updateCommit ctx) s s) ∧
      (∀ u, w.phase = 5 → scrWrite ctx.val (ucbVa s ctx.val) (Ucb.commit w.ucb r.step.toNat) s = (none, u) →
        Answers (.updateCommit ctx) s (completeLayer ctx.val 1 (bump (regAt .scribe 0 0x50) 31 16 1 u)))) ∧
    (∀ (mc : Fin 8), scribeAt s mc.val = none → Answers (.scrStall mc) s s) ∧
    (∀ (mc : Fin 8) (c phase i j : Nat), scribeAt s mc.val = some (c, phase, i, j) → getF s (regAt .scribe 0 0x40) 11 0 ≠ 0 →
      (getScribe s mc.val).stalled ≠ some c →
      ∃ t, Answers (.scrStall mc) s t ∧ Spec.eventSet t .scribe 0 7 ∧
        t = Spec.reported t { s with scribes := vset s.scribes mc.val { getScribe s mc.val with stalled := some c } })

/-! ## The Ligature engine -/

/-- A packet of LOP `lop`, with header `h`, heads the receive buffer of port p. -/
def Sys2Proof.Spec.atHead (s : State) (p lop : Nat) (h : LigHead) (pkt : List LinkUnit) : Prop := rxHead lop p s = some (h, pkt)

/-- The packet at the head of port p is one of the open step for this member, in the step's epoch. -/
def Sys2Proof.Spec.atStep (s : State) (p lop : Nat) (h : LigHead) (pkt : List LinkUnit) (ci : Machine.Circle) (w : LigStep) : Prop :=
  Spec.atHead s p lop h pkt ∧ h.dst = ownOrdinal s ∧ s.lig.circle = some ci ∧ s.lig.open_ = some w ∧ h.step = w.step ∧
    h.epoch = ci.epoch.toNat

/-- The step with bucket i replaced. -/
def Sys2Proof.Spec.setBucket (w : LigStep) (i : Nat) (b : Bucket) : LigStep := { w with buckets := w.buckets.set i b }

/-- The bucket with one more packet's items. -/
def Sys2Proof.Spec.joined (b : Bucket) (p : LigPart) : Bucket := { b with parts := b.parts ++ [p] }

/-- After the command nothing of the engine differs but the open step, which is `w`. -/
def Sys2Proof.Spec.stepIs (c : Instr) (s : State) (w : LigStep) : Prop :=
  ∃ t, Answers c s t ∧ t.lig = { s.lig with open_ := some w }

/-- After the command bucket i of the open step meets a test. -/
def Sys2Proof.Spec.bucketIs (c : Instr) (s : State) (i : Nat) (f : Bucket → Prop) : Prop :=
  ∃ t w b, Answers c s t ∧ t.lig.open_ = some w ∧ w.buckets[i]? = some b ∧ f b

/-- After the command the step is over, abandoned for a reason. -/
def Sys2Proof.Spec.abandons (c : Instr) (s : State) (reason : Nat) : Prop :=
  ∃ t, Answers c s t ∧ t.lig.open_ = none ∧ t.lig.reason = reason

/-- A packet for this member is taken from its buffer: with no circle it is held; with no step open one of a later step is held and any other
discarded. With a step open, one of the step after it is held, but for a CLOSE, which is processed and sets VETO; one that differs in its
step, its epoch or, a CLOSE, in its loss scale abandons the step for reason 1, 2 or 3; any other is processed. One for another member is
forwarded with its hop count; with no circle it is lost and reported. What the packets for a bucket do (R294 to R297, R300, R301): SCALE with
another loss scale or another shape abandons for reason 3 or 4, else joins the bucket, and the last one sends the maximum up, or at the leader
agrees it; AGREED joins the bucket, and the last one starts the reduction; PARTIAL joins it, and a tree whose children are in and whose gradients
can be read is sent, or owned, the bucket being OWNED with its own tree; PARAM joins it, and under COMMIT the last one of an owner makes its
groups final, the step closing once all are. That a CLOSE of the step after sets VETO and abandons nothing, and that one which differs otherwise
abandons, is the model's choice (log 119), and so are that a late packet between two steps is dropped and one for a later step held (log 55),
and that a packet for a bucket which has not closed here is kept until it has (log 170). -/
def Obligations.LigaturePackets : Prop :=
  (∀ (s : State) (p : Fin 16) (lop : Nat) (c : Instr) (h : LigHead) (pkt : List LinkUnit) (u : State),
    (lop, c) ∈ [(1, Instr.scale p), (2, .agreed p), (3, .partialPkt p), (4, .param p), (5, .close p), (6, .verdict p)] →
    (rxHead lop p.val s = none → Answers c s s) ∧
    (Spec.atHead s p.val lop h pkt → u = popPacket p.val s →
      (h.dst = ownOrdinal s →
        (s.lig.circle = none → ∃ t, Answers c s t ∧ t.lig = { s.lig with held := s.lig.held ++ [pkt] } ∧ t.hbm = s.hbm) ∧
        (∀ ci, s.lig.circle = some ci → s.lig.open_ = none →
          (s.lig.lastStep < h.step → ∃ t, Answers c s t ∧ t.lig = { s.lig with held := s.lig.held ++ [pkt] } ∧ t.hbm = s.hbm) ∧
          (h.step ≤ s.lig.lastStep → ∃ t, Answers c s t ∧ t.lig = s.lig ∧ t.hbm = s.hbm)) ∧
        (∀ ci w, s.lig.circle = some ci → s.lig.open_ = some w →
          (h.step = w.step + 1 → lop ≠ 5 →
            ∃ t, Answers c s t ∧ t.lig = { s.lig with held := s.lig.held ++ [pkt] } ∧ t.hbm = s.hbm) ∧
          (h.step = w.step + 1 → lop = 5 → Answers c s (onPacket pkt (setVeto 1 (countPeer pkt u)))) ∧
          (h.step ≠ w.step → h.step ≠ w.step + 1 → ∃ t, Answers c s t ∧ t.lig.open_ = none ∧ t.lig.reason = 1) ∧
          (h.step = w.step → h.epoch ≠ ci.epoch.toNat → ∃ t, Answers c s t ∧ t.lig.open_ = none ∧ t.lig.reason = 2) ∧
          (h.step = w.step → h.epoch = ci.epoch.toNat → lop = 5 → signed 16 h.ls ≠ w.lsExp →
            ∃ t, Answers c s t ∧ t.lig.open_ = none ∧ t.lig.reason = 3) ∧
          (h.step = w.step → h.epoch = ci.epoch.toNat → (lop = 5 → signed 16 h.ls = w.lsExp) →
            Answers c s (onPacket pkt (countPeer pkt u))))) ∧
      (h.dst ≠ ownOrdinal s →
        (∀ ci hop k t, s.lig.circle = some ci → ci.hop h.dst = some hop → h.hops < 32 → pkt = k :: t →
          ∀ v, queueOn hop (BitVec.ofNat 512 (putBits k.toNat 319 312 (h.hops + 1)) :: t) u = some v →
            Answers c s (modLig (fun l => { l with fwd := l.fwd + 1 }) v)) ∧
        (s.lig.circle = none → ∃ t, Answers c s t ∧ Spec.eventSet t .ligature 0 3)))) ∧
  (∀ (s : State) (p : Fin 16) (h : LigHead) (pkt : List LinkUnit) (ci : Machine.Circle) (w : LigStep),
    (∀ lop c, (lop, c) ∈ [(1, Instr.scale p), (2, .agreed p), (3, .partialPkt p), (4, .param p)] → Spec.atStep s p.val lop h pkt ci w →
      (lop ≤ 2 → h.root = ci.ord 0) → (lop = 1 → signed 16 h.ls = w.lsExp) →
      (∀ k, ci.rankOf h.root = some k → if lop = 1 ∨ lop = 3 then (childAt ci.n k ci.rank h.level).isSome = true
        else k ≠ ci.rank ∧ h.level = stopLevel ci.n (treePos ci.n k ci.rank)) → ci.rankOf (ci.ord 0) = some 0 →
      (ci.rankOf h.root).isSome = true → closedHere w h.bucket = none →
      Spec.stepIs c s { w with early := w.early ++ [pkt] }) ∧
    (Spec.atStep s p.val 1 h pkt ci w → h.root = ci.ord 0 → (childAt ci.n 0 ci.rank h.level).isSome = true →
      (signed 16 h.ls ≠ w.lsExp → Spec.abandons (.scale p) s 3) ∧
      (∀ b, signed 16 h.ls = w.lsExp → closedHere w h.bucket = some b →
        (h.groups ≠ b.groups ∨ h.elems ≠ bucketElems w b → Spec.abandons (.scale p) s 4) ∧
        (∀ (b' : Bucket) (n : Nat) (levels : List Nat) (full : Bool), h.groups = b.groups → h.elems = bucketElems w b →
          b' = Spec.joined b ⟨1, 0, h.level, h.sel, h.offset, payloadVals h (if w.bs8 then 1 else 2) (!w.bs8) pkt⟩ →
          n = scaleItems w b' → levels = childLevels ci.n 0 ci.rank →
          full = levels.all (fun l => partCount (partsAt b' 1 0 l 0) == n) →
          (b.st ≠ .agreeing ∨ b.scaled = true ∨ full = false → Spec.stepIs (.scale p) s (Spec.setBucket w h.bucket b')) ∧
          (b.st = .agreeing → b.scaled = false → full = true →
            ((parentOf ci.n 0 ci.rank).isSome = true → ∃ t, Answers (.scale p) s t ∧
              t.lig.open_ = some (Spec.setBucket w h.bucket { b' with scaled := true })) ∧
            (parentOf ci.n 0 ci.rank = none → Spec.bucketIs (.scale p) s h.bucket (fun x => (x.st = .reducing ∨ x.st = .owned) ∧
              x.agreed = levels.foldl (fun v l => (v.zip (partItems (partsAt b' 1 0 l 0) 0 n)).map (fun y => max y.1 y.2)) b.mine)))))) ∧
    (∀ (b : Bucket) (down : List LigPart), Spec.atStep s p.val 2 h pkt ci w → h.root = ci.ord 0 → ci.rank ≠ 0 →
      h.level = stopLevel ci.n (treePos ci.n 0 ci.rank) → closedHere w h.bucket = some b →
      down = b.down ++ [⟨2, 0, h.level, 0, h.offset, payloadVals h (if w.bs8 then 1 else 2) (!w.bs8) pkt⟩] →
      (b.st ≠ .agreeing → Spec.stepIs (.agreed p) s w) ∧
      (b.st = .agreeing → partCount down ≠ scaleItems w b →
        Spec.stepIs (.agreed p) s (Spec.setBucket w h.bucket { b with down := down })) ∧
      (b.st = .agreeing → partCount down = scaleItems w b → Spec.bucketIs (.agreed p) s h.bucket (fun x =>
        (x.st = .reducing ∨ x.st = .owned) ∧ x.agreed = partItems down 0 (scaleItems w b)))) ∧
    (∀ (k : Nat) (b b' : Bucket), Spec.atStep s p.val 3 h pkt ci w → ci.rank < ci.n → ci.rankOf h.root = some k →
      (childAt ci.n k ci.rank h.level).isSome = true → closedHere w h.bucket = some b →
      b' = Spec.joined b ⟨3, k, h.level, h.sel, h.offset, payloadVals h (if w.bs8 then 1 else 8) true pkt⟩ →
      (b.st ≠ .reducing → b.st ≠ .owned → Spec.stepIs (.partialPkt p) s (Spec.setBucket w h.bucket b')) ∧
      (b.st = .reducing ∨ b.st = .owned → (∀ j, j < ci.n → j ≠ k → j ∈ b.sent) → k ∉ b.sent →
        ∀ w' z, w' = Spec.setBucket w h.bucket b' → z = modStep (fun _ => w') (countPeer pkt (popPacket p.val s)) →
          (childrenIn ci w' b' k = false → b.st = .owned ∨ k = ci.rank → Spec.stepIs (.partialPkt p) s w') ∧
          (∀ gs v, childrenIn ci w' b' k = true → bucketGrads w.ctx w' b' ((List.range ((ownedBy ci.n b.groups k).2 -
              (ownedBy ci.n b.groups k).1)).map (fun m => (ownedBy ci.n b.groups k).1 + m)) z = (.ok gs, v) →
            Spec.bucketIs (.partialPkt p) s h.bucket (fun x => x.sent = b.sent ++ [k] ∧ x.st = .owned)))) ∧
    (∀ (k n : Nat) (b b' : Bucket) (w' wf : LigStep) (full : Bool), Spec.atStep s p.val 4 h pkt ci w → ci.rankOf h.root = some k →
      k ≠ ci.rank → h.level = stopLevel ci.n (treePos ci.n k ci.rank) → closedHere w h.bucket = some b →
      b' = Spec.joined b ⟨4, k, h.level, h.sel, h.offset, payloadVals h 4 false pkt⟩ → w' = Spec.setBucket w h.bucket b' →
      n = 512 * (carriers w b (ownedBy ci.n b.groups k).1 (ownedBy ci.n b.groups k).2 h.sel).length →
      full = (partCount (partsAt b' 4 k h.level h.sel) == n && n != 0 && !w.final.contains (h.bucket, k, h.sel)) →
      wf = { w' with final := (h.bucket, k, h.sel) :: w.final } →
      (w.verdict ≠ 1 ∨ full = false ∧ allFinal ci w = false → Spec.stepIs (.param p) s w') ∧
      (w.verdict = 1 → full = true → ∃ t, Answers (.param p) s t ∧
        (allFinal ci wf = false → t.lig.open_ = some wf) ∧
        (allFinal ci wf = true → t.lig.open_ = none ∧ t.lig.outcome = 1))))

/-- Acting on a verdict that has been noted and passed on (R300), where the update control block can be read: SKIP and VETO end the step with
outcome 2 or 3, COMMIT ends it with outcome 1, or leaves it open with every bucket CLOSED until its groups are final. -/
def Sys2Proof.Spec.verdictActs (ci : Machine.Circle) (w : LigStep) (verdict reason votes : Nat) (x t : State) : Prop :=
  ∀ y b v, y = modStep (fun w => { w with verdict := verdict }) (sendVerdict ci w verdict reason votes x) →
    scrRead w.ctx (ucbVa y w.ctx) 48 y = (.ok b, v) →
    (verdict = 2 → t.lig.open_ = none ∧ t.lig.outcome = 2) ∧
    (verdict = 3 → t.lig.open_ = none ∧ t.lig.outcome = 3 ∧ t.lig.reason = reason) ∧
    (verdict = 1 → t.lig.open_ = none ∧ t.lig.outcome = 1 ∨
      ∃ w', t.lig.open_ = some w' ∧ w'.verdict = 1 ∧ ∀ b ∈ w'.buckets, b.st = .closed)

/-- The engine's own steps: the first READY bucket starts to agree, with its proposals, while fewer than two are under way; a close whose
contributions are all sent is ready; ABORT and a timeout close the step that is open. An ABORT after COMMIT is ignored (R305), and after a timeout
under COMMIT the outcome stays COMMIT, as R303 is read. What CLOSE and VERDICT do (R298 to R300): a CLOSE is recorded by its level with its vote and
norms; once this member is ready and every child's is in, it goes up, or the leader decides: VETO first, then SKIP for a vote or a norm that is
not finite, else COMMIT with the clip factors. A VERDICT is acted on once all its factors are in. That an ABORT seen before is ignored is the
model's choice (log 55). -/
def Obligations.LigatureSteps : Prop :=
  ∀ (s : State) (ci : Machine.Circle) (w : LigStep), s.lig.circle = some ci → s.lig.open_ = some w →
    (∀ i b gs u, w.buckets.findIdx? (fun b => b.st == .ready) = some i → w.buckets[i]? = some b →
      (w.buckets.filter (fun b => b.st == .agreeing || b.st == .reducing)).length < 2 →
      bucketGrads w.ctx w b (List.range b.groups) s = (.ok gs, u) →
      ∀ own, own = (if w.bs8 then gs.flatMap proposeScales else gs.map proposeExp) →
      Answers .bucketAgreeing s (scaleBucket i (modBucket i (fun b => { b with st := .agreeing, mine := own }) u))) ∧
    (2 ≤ (w.buckets.filter (fun b => b.st == .agreeing || b.st == .reducing)).length → Answers .bucketAgreeing s s) ∧
    (w.closing = true → w.closeReady = false → allContributed ci w = true →
      Answers .stepClose s (tryClose (modStep (fun w => { w with closeReady := true }) s))) ∧
    (w.closing = false → Answers .stepClose s s) ∧
    (∀ (p : Fin 16) (h : LigHead) (pkt : List LinkUnit), Spec.atHead s p.val 7 h pkt → h.dst = ownOrdinal s →
      (w.verdict = 1 ∨ (h.root, h.step) ∈ s.lig.seen → ∃ t, Answers (.abort p) s t ∧ t.lig = s.lig ∧ t.hbm = s.hbm) ∧
      (w.verdict ≠ 1 → (h.root, h.step) ∉ s.lig.seen → ∃ t, Answers (.abort p) s t ∧ t.lig.open_ = none ∧ t.lig.outcome = 3 ∧
        t.lig.reason = 9 ∧ t.lig.detOrd = h.root)) ∧
    (ligWaits ci w = true → ∃ t, Answers .stepTimeout s t ∧ t.lig.open_ = none ∧ t.lig.reason = 6 ∧
      t.lig.outcome = (if w.verdict = 1 then 1 else 3)) ∧
    (ligWaits ci w = false → Answers .stepTimeout s s) ∧
    (∀ (p : Fin 16) (h : LigHead) (pkt : List LinkUnit) (body : List Byte) (rec_ : CloseRec) (w1 : LigStep) (z : State),
      Spec.atStep s p.val 5 h pkt ci w → signed 16 h.ls = w.lsExp → h.root = ci.ord 0 → (childAt ci.n 0 ci.rank h.level).isSome = true →
      body = payloadOf pkt →
      rec_ = (match w.closes.find? (fun r => r.level == h.level) with
        | some r => { r with norms := r.norms ++ closeNorms h body }
        | none => ⟨h.level, fieldOf body 0 4, fieldOf body 4 4, closeNorms h body⟩) →
      w1 = { w with closes := rec_ :: w.closes.filter (fun r => r.level != h.level) } →
      z = modStep (fun _ => w1) (countPeer pkt (popPacket p.val s)) →
      (w.closeReady = false ∨ w.closeSent = true ∨ (childLevels ci.n 0 ci.rank).all (closeIn w1) = false →
        Spec.stepIs (.close p) s w1) ∧
      (∀ ucb v vote, w.closeReady = true → w.closeSent = false → (childLevels ci.n 0 ci.rank).all (closeIn w1) = true →
        ucbOk z w.ctx = true → scrRead w.ctx (ucbVa z w.ctx) 48 z = (.ok ucb, v) →
        vote = foldedVote w1 (Ucb.voteOf ucb w.step) →
        ((parentOf ci.n 0 ci.rank).isSome = true → ∃ t, Answers (.close p) s t ∧ t.lig.open_ = some { w1 with closeSent := true }) ∧
        (parentOf ci.n 0 ci.rank = none →
          ∃ t w2, Answers (.close p) s t ∧ w2 = { w1 with closeSent := true, factors := w2.factors, tensors := w2.tensors } ∧
            (∀ i tn norm f cl sat, w.tensors[i]? = some tn → tn.d.clips = true →
              normOf tn.d.clipMax tn.d.clipAnchor (normTotal w1 i) = some (norm, f, cl, sat) → tabGet 0x3F80_0000 w2.factors i = f) ∧
            ∀ lost : Bool, lost = w.tensors.zipIdx.any (fun q =>
                q.1.d.clips && (normOf q.1.d.clipMax q.1.d.clipAnchor (normTotal w1 q.2)).isNone) →
              Spec.verdictActs ci w2 (if bit vote 4 = true then 3 else if vote % 8 ≠ 0 ∨ lost = true then 2 else 1)
                (if bit vote 4 = true then w.veto.getD 0 else 0)
                (if bit vote 4 = false ∧ vote % 8 = 0 ∧ lost = true then vote ||| 8 else vote) (modStep (fun _ => w2) v) t))) ∧
    (∀ (p : Fin 16) (h : LigHead) (pkt : List LinkUnit) (body : List Byte) (parts : List (Nat × List Nat)),
      Spec.atStep s p.val 6 h pkt ci w → h.root = ci.ord 0 → ci.rank ≠ 0 → h.level = stopLevel ci.n (treePos ci.n 0 ci.rank) →
      w.verdict = 0 → body = payloadOf pkt →
      parts = w.vparts ++ [(h.offset, (List.range h.count).map (fun i => fieldOf body (8 + 4 * i) 4))] →
      ((parts.map (fun q => q.2.length)).sum < w.tensors.length → Spec.stepIs (.verdict p) s { w with vparts := parts }) ∧
      (w.tensors.length ≤ (parts.map (fun q => q.2.length)).sum →
        ∃ t w2, Answers (.verdict p) s t ∧ w2 = { w with vparts := [], factors := w2.factors } ∧
          (∀ off f fs, parts = [(off, fs)] → ∀ i, fs[i]? = some f → tabGet 0x3F80_0000 w2.factors (off + i) = f) ∧
          Spec.verdictActs ci w2 (bits (fieldOf body 0 4) 1 0) (bits (fieldOf body 0 4) 7 4) (fieldOf body 4 4)
            (modStep (fun _ => w2) (countPeer pkt (popPacket p.val s))) t))
end

