-- ==== Sys2Proof/Laws/Tab.lean ====
section
/-! SUPPORT. Laws of sparse tables: what a read gives after a write, and that a write keeps the canonical form. -/

namespace Sys2Proof.Machine

section
variable {α : Type}

theorem tabFind_insert_self (t : Tab α) (i : Nat) (v : α) : tabFind? (tabInsert t i v) i = some v := by
  induction t with
  | nil => simp [tabInsert, tabFind?]
  | cons p t ih =>
    obtain ⟨k, w⟩ := p
    by_cases h1 : i < k
    · simp [tabInsert, tabFind?, h1]
    · by_cases h2 : i = k
      · simp [tabInsert, tabFind?, h2]
      · have : k ≠ i := fun h => h2 h.symm
        simp [tabInsert, tabFind?, h1, h2, this, ih]

theorem tabFind_insert_ne (t : Tab α) {i j : Nat} (v : α) (h : j ≠ i) : tabFind? (tabInsert t i v) j = tabFind? t j := by
  induction t with
  | nil => simp [tabInsert, tabFind?, Ne.symm h]
  | cons p t ih =>
    obtain ⟨k, w⟩ := p
    by_cases h1 : i < k
    · simp [tabInsert, tabFind?, h1, Ne.symm h]
    · by_cases h2 : i = k
      · subst h2
        simp [tabInsert, tabFind?, Ne.symm h]
      · simp only [tabInsert, h1, h2, if_false, tabFind?, ih]

theorem tabFind_erase_ne (t : Tab α) {i j : Nat} (h : j ≠ i) : tabFind? (tabErase t i) j = tabFind? t j := by
  induction t with
  | nil => rfl
  | cons p t ih =>
    obtain ⟨k, w⟩ := p
    by_cases h1 : i = k
    · subst h1
      simp [tabErase, tabFind?, Ne.symm h]
    · simp only [tabErase, h1, if_false, tabFind?, ih]

theorem tabInsert_insert (t : Tab α) (i : Nat) (v w : α) : tabInsert (tabInsert t i v) i w = tabInsert t i w := by
  induction t with
  | nil => simp [tabInsert]
  | cons p t ih =>
    obtain ⟨k, u⟩ := p
    by_cases h1 : i < k
    · simp [tabInsert, h1]
    · by_cases h2 : i = k
      · simp [tabInsert, h2]
      · simp [tabInsert, h1, h2, ih]

variable [DecidableEq α] {d : α}

/-- A read gives what was just written, unless that was the default. -/
theorem tabGet_set_self (t : Tab α) (i : Nat) {v : α} (h : v ≠ d) : tabGet d (tabSet d t i v) i = v := by
  simp [tabGet, tabSet, h, tabFind_insert_self]

/-- A write leaves every other key as it was. -/
theorem tabGet_set_ne (t : Tab α) {i j : Nat} (v : α) (h : j ≠ i) : tabGet d (tabSet d t i v) j = tabGet d t j := by
  unfold tabSet tabGet
  split
  · rw [tabFind_erase_ne t h]
  · rw [tabFind_insert_ne t v h]

/-- The second of two writes of a key counts. -/
theorem tabSet_set (t : Tab α) (i : Nat) {v w : α} (hv : v ≠ d) (hw : w ≠ d) :
    tabSet d (tabSet d t i v) i w = tabSet d t i w := by
  simp [tabSet, hv, hw, tabInsert_insert]

theorem tabWfFrom_mono {lo hi : Nat} (t : Tab α) (h : lo ≤ hi) (w : tabWfFrom d hi t = true) : tabWfFrom d lo t = true := by
  cases t with
  | nil => rfl
  | cons p t =>
    obtain ⟨k, v⟩ := p
    simp only [tabWfFrom, Bool.and_eq_true, decide_eq_true_eq] at w ⊢
    exact ⟨⟨by omega, w.1.2⟩, w.2⟩

theorem tabFind_below {lo i : Nat} (t : Tab α) (w : tabWfFrom d lo t = true) (h : i < lo) : tabFind? t i = none := by
  induction t generalizing lo with
  | nil => rfl
  | cons p t ih =>
    obtain ⟨k, v⟩ := p
    simp only [tabWfFrom, Bool.and_eq_true, decide_eq_true_eq] at w
    have : k ≠ i := by omega
    simp only [tabFind?, this, if_false]
    exact ih w.2 (by omega)

theorem tabErase_wfFrom {lo : Nat} (t : Tab α) (i : Nat) (w : tabWfFrom d lo t = true) : tabWfFrom d lo (tabErase t i) = true := by
  induction t generalizing lo with
  | nil => rfl
  | cons p t ih =>
    obtain ⟨k, v⟩ := p
    simp only [tabWfFrom, Bool.and_eq_true, decide_eq_true_eq] at w
    unfold tabErase
    split
    · exact tabWfFrom_mono t (by omega) w.2
    · simp only [tabWfFrom, Bool.and_eq_true, decide_eq_true_eq]
      exact ⟨w.1, ih w.2⟩

theorem tabInsert_wfFrom {lo : Nat} (t : Tab α) {i : Nat} {v : α} (w : tabWfFrom d lo t = true) (hi : lo ≤ i) (hv : v ≠ d) :
    tabWfFrom d lo (tabInsert t i v) = true := by
  induction t generalizing lo with
  | nil => simp [tabInsert, tabWfFrom, hi, hv]
  | cons p t ih =>
    obtain ⟨k, u⟩ := p
    simp only [tabWfFrom, Bool.and_eq_true, decide_eq_true_eq] at w
    unfold tabInsert
    split
    · simp only [tabWfFrom, Bool.and_eq_true, decide_eq_true_eq]
      exact ⟨⟨hi, hv⟩, ⟨by omega, w.1.2⟩, w.2⟩
    · split
      · rename_i h2
        subst h2
        simp only [tabWfFrom, Bool.and_eq_true, decide_eq_true_eq]
        exact ⟨⟨hi, hv⟩, w.2⟩
      · simp only [tabWfFrom, Bool.and_eq_true, decide_eq_true_eq]
        exact ⟨w.1, ih w.2 (by omega)⟩

/-- A write keeps the canonical form. -/
theorem tabSet_wf (t : Tab α) (i : Nat) (v : α) (w : tabWf d t = true) : tabWf d (tabSet d t i v) = true := by
  unfold tabSet
  split
  · exact tabErase_wfFrom t i w
  · rename_i h
    exact tabInsert_wfFrom t w (Nat.zero_le _) h

theorem tabFind_erase_self {lo : Nat} (t : Tab α) (i : Nat) (w : tabWfFrom d lo t = true) : tabFind? (tabErase t i) i = none := by
  induction t generalizing lo with
  | nil => rfl
  | cons p t ih =>
    obtain ⟨k, v⟩ := p
    simp only [tabWfFrom, Bool.and_eq_true, decide_eq_true_eq] at w
    unfold tabErase
    split
    · rename_i h
      subst h
      exact tabFind_below t w.2 (by omega)
    · rename_i h
      have : k ≠ i := fun e => h e.symm
      simp only [tabFind?, this, if_false]
      exact ih w.2

/-- In a canonical table a read gives what was just written. -/
theorem tabGet_set_wf (t : Tab α) (i : Nat) (v : α) (w : tabWf d t = true) : tabGet d (tabSet d t i v) i = v := by
  by_cases h : v = d
  · subst h
    simp [tabGet, tabSet, tabFind_erase_self t i w]
  · exact tabGet_set_self t i h

end

end Sys2Proof.Machine
end

