-- ==== Sys2Proof/Laws/State.lean ====
section
/-! SUPPORT. Which field each update of the state writes: one lemma for each field that it leaves as it was, and what the written field
reads as. -/

namespace Sys2Proof.Machine

variable (s : State)

section setR
variable (a v : Nat)
@[simp] theorem setR_pending : (setR a v s).pending = s.pending := rfl
@[simp] theorem setR_free : (setR a v s).free = s.free := rfl
@[simp] theorem setR_outs : (setR a v s).outs = s.outs := rfl
@[simp] theorem setR_latches : (setR a v s).latches = s.latches := rfl
@[simp] theorem setR_msix : (setR a v s).msix = s.msix := rfl
@[simp] theorem setR_uclk : (setR a v s).uclk = s.uclk := rfl
@[simp] theorem setR_inTick : (setR a v s).inTick = s.inTick := rfl
@[simp] theorem setR_times : (setR a v s).times = s.times := rfl
@[simp] theorem setR_fuses : (setR a v s).fuses = s.fuses := rfl
@[simp] theorem setR_power : (setR a v s).power = s.power := rfl
@[simp] theorem setR_boot : (setR a v s).boot = s.boot := rfl
@[simp] theorem setR_blotter : (setR a v s).blotter = s.blotter := rfl
@[simp] theorem setR_hbm : (setR a v s).hbm = s.hbm := rfl
@[simp] theorem setR_mcs : (setR a v s).mcs = s.mcs := rfl
@[simp] theorem setR_mmu : (setR a v s).mmu = s.mmu := rfl
@[simp] theorem setR_groves : (setR a v s).groves = s.groves := rfl
@[simp] theorem setR_pnibs : (setR a v s).pnibs = s.pnibs := rfl
@[simp] theorem setR_nibs : (setR a v s).nibs = s.nibs := rfl
@[simp] theorem setR_canopy : (setR a v s).canopy = s.canopy := rfl
@[simp] theorem setR_ctxs : (setR a v s).ctxs = s.ctxs := rfl
@[simp] theorem setR_ranger : (setR a v s).ranger = s.ranger := rfl
@[simp] theorem setR_supply : (setR a v s).supply = s.supply := rfl
@[simp] theorem setR_seedbank : (setR a v s).seedbank = s.seedbank := rfl
@[simp] theorem setR_scribes : (setR a v s).scribes = s.scribes := rfl
@[simp] theorem setR_lig : (setR a v s).lig = s.lig := rfl
@[simp] theorem setR_ports : (setR a v s).ports = s.ports := rfl
@[simp] theorem setR_xings : (setR a v s).xings = s.xings := rfl
end setR

section setF
variable (a hi lo v : Nat)
@[simp] theorem setF_pending : (setF a hi lo v s).pending = s.pending := rfl
@[simp] theorem setF_free : (setF a hi lo v s).free = s.free := rfl
@[simp] theorem setF_outs : (setF a hi lo v s).outs = s.outs := rfl
@[simp] theorem setF_latches : (setF a hi lo v s).latches = s.latches := rfl
@[simp] theorem setF_msix : (setF a hi lo v s).msix = s.msix := rfl
@[simp] theorem setF_uclk : (setF a hi lo v s).uclk = s.uclk := rfl
@[simp] theorem setF_inTick : (setF a hi lo v s).inTick = s.inTick := rfl
@[simp] theorem setF_times : (setF a hi lo v s).times = s.times := rfl
@[simp] theorem setF_fuses : (setF a hi lo v s).fuses = s.fuses := rfl
@[simp] theorem setF_power : (setF a hi lo v s).power = s.power := rfl
@[simp] theorem setF_boot : (setF a hi lo v s).boot = s.boot := rfl
@[simp] theorem setF_blotter : (setF a hi lo v s).blotter = s.blotter := rfl
@[simp] theorem setF_hbm : (setF a hi lo v s).hbm = s.hbm := rfl
@[simp] theorem setF_mcs : (setF a hi lo v s).mcs = s.mcs := rfl
@[simp] theorem setF_mmu : (setF a hi lo v s).mmu = s.mmu := rfl
@[simp] theorem setF_groves : (setF a hi lo v s).groves = s.groves := rfl
@[simp] theorem setF_pnibs : (setF a hi lo v s).pnibs = s.pnibs := rfl
@[simp] theorem setF_nibs : (setF a hi lo v s).nibs = s.nibs := rfl
@[simp] theorem setF_canopy : (setF a hi lo v s).canopy = s.canopy := rfl
@[simp] theorem setF_ctxs : (setF a hi lo v s).ctxs = s.ctxs := rfl
@[simp] theorem setF_ranger : (setF a hi lo v s).ranger = s.ranger := rfl
@[simp] theorem setF_supply : (setF a hi lo v s).supply = s.supply := rfl
@[simp] theorem setF_seedbank : (setF a hi lo v s).seedbank = s.seedbank := rfl
@[simp] theorem setF_scribes : (setF a hi lo v s).scribes = s.scribes := rfl
@[simp] theorem setF_lig : (setF a hi lo v s).lig = s.lig := rfl
@[simp] theorem setF_ports : (setF a hi lo v s).ports = s.ports := rfl
@[simp] theorem setF_xings : (setF a hi lo v s).xings = s.xings := rfl
end setF

section bump
variable (a hi lo n : Nat)
@[simp] theorem bump_pending : (bump a hi lo n s).pending = s.pending := rfl
@[simp] theorem bump_free : (bump a hi lo n s).free = s.free := rfl
@[simp] theorem bump_outs : (bump a hi lo n s).outs = s.outs := rfl
@[simp] theorem bump_latches : (bump a hi lo n s).latches = s.latches := rfl
@[simp] theorem bump_msix : (bump a hi lo n s).msix = s.msix := rfl
@[simp] theorem bump_uclk : (bump a hi lo n s).uclk = s.uclk := rfl
@[simp] theorem bump_inTick : (bump a hi lo n s).inTick = s.inTick := rfl
@[simp] theorem bump_times : (bump a hi lo n s).times = s.times := rfl
@[simp] theorem bump_fuses : (bump a hi lo n s).fuses = s.fuses := rfl
@[simp] theorem bump_power : (bump a hi lo n s).power = s.power := rfl
@[simp] theorem bump_boot : (bump a hi lo n s).boot = s.boot := rfl
@[simp] theorem bump_blotter : (bump a hi lo n s).blotter = s.blotter := rfl
@[simp] theorem bump_hbm : (bump a hi lo n s).hbm = s.hbm := rfl
@[simp] theorem bump_mcs : (bump a hi lo n s).mcs = s.mcs := rfl
@[simp] theorem bump_mmu : (bump a hi lo n s).mmu = s.mmu := rfl
@[simp] theorem bump_groves : (bump a hi lo n s).groves = s.groves := rfl
@[simp] theorem bump_pnibs : (bump a hi lo n s).pnibs = s.pnibs := rfl
@[simp] theorem bump_nibs : (bump a hi lo n s).nibs = s.nibs := rfl
@[simp] theorem bump_canopy : (bump a hi lo n s).canopy = s.canopy := rfl
@[simp] theorem bump_ctxs : (bump a hi lo n s).ctxs = s.ctxs := rfl
@[simp] theorem bump_ranger : (bump a hi lo n s).ranger = s.ranger := rfl
@[simp] theorem bump_supply : (bump a hi lo n s).supply = s.supply := rfl
@[simp] theorem bump_seedbank : (bump a hi lo n s).seedbank = s.seedbank := rfl
@[simp] theorem bump_scribes : (bump a hi lo n s).scribes = s.scribes := rfl
@[simp] theorem bump_lig : (bump a hi lo n s).lig = s.lig := rfl
@[simp] theorem bump_ports : (bump a hi lo n s).ports = s.ports := rfl
@[simp] theorem bump_xings : (bump a hi lo n s).xings = s.xings := rfl
end bump

section setPair
variable (a v : Nat)
@[simp] theorem setPair_pending : (setPair a v s).pending = s.pending := rfl
@[simp] theorem setPair_free : (setPair a v s).free = s.free := rfl
@[simp] theorem setPair_outs : (setPair a v s).outs = s.outs := rfl
@[simp] theorem setPair_latches : (setPair a v s).latches = s.latches := rfl
@[simp] theorem setPair_msix : (setPair a v s).msix = s.msix := rfl
@[simp] theorem setPair_uclk : (setPair a v s).uclk = s.uclk := rfl
@[simp] theorem setPair_inTick : (setPair a v s).inTick = s.inTick := rfl
@[simp] theorem setPair_times : (setPair a v s).times = s.times := rfl
@[simp] theorem setPair_fuses : (setPair a v s).fuses = s.fuses := rfl
@[simp] theorem setPair_power : (setPair a v s).power = s.power := rfl
@[simp] theorem setPair_boot : (setPair a v s).boot = s.boot := rfl
@[simp] theorem setPair_blotter : (setPair a v s).blotter = s.blotter := rfl
@[simp] theorem setPair_hbm : (setPair a v s).hbm = s.hbm := rfl
@[simp] theorem setPair_mcs : (setPair a v s).mcs = s.mcs := rfl
@[simp] theorem setPair_mmu : (setPair a v s).mmu = s.mmu := rfl
@[simp] theorem setPair_groves : (setPair a v s).groves = s.groves := rfl
@[simp] theorem setPair_pnibs : (setPair a v s).pnibs = s.pnibs := rfl
@[simp] theorem setPair_nibs : (setPair a v s).nibs = s.nibs := rfl
@[simp] theorem setPair_canopy : (setPair a v s).canopy = s.canopy := rfl
@[simp] theorem setPair_ctxs : (setPair a v s).ctxs = s.ctxs := rfl
@[simp] theorem setPair_ranger : (setPair a v s).ranger = s.ranger := rfl
@[simp] theorem setPair_supply : (setPair a v s).supply = s.supply := rfl
@[simp] theorem setPair_seedbank : (setPair a v s).seedbank = s.seedbank := rfl
@[simp] theorem setPair_scribes : (setPair a v s).scribes = s.scribes := rfl
@[simp] theorem setPair_lig : (setPair a v s).lig = s.lig := rfl
@[simp] theorem setPair_ports : (setPair a v s).ports = s.ports := rfl
@[simp] theorem setPair_xings : (setPair a v s).xings = s.xings := rfl
end setPair

section addPair
variable (a n : Nat)
@[simp] theorem addPair_pending : (addPair a n s).pending = s.pending := rfl
@[simp] theorem addPair_free : (addPair a n s).free = s.free := rfl
@[simp] theorem addPair_outs : (addPair a n s).outs = s.outs := rfl
@[simp] theorem addPair_latches : (addPair a n s).latches = s.latches := rfl
@[simp] theorem addPair_msix : (addPair a n s).msix = s.msix := rfl
@[simp] theorem addPair_uclk : (addPair a n s).uclk = s.uclk := rfl
@[simp] theorem addPair_inTick : (addPair a n s).inTick = s.inTick := rfl
@[simp] theorem addPair_times : (addPair a n s).times = s.times := rfl
@[simp] theorem addPair_fuses : (addPair a n s).fuses = s.fuses := rfl
@[simp] theorem addPair_power : (addPair a n s).power = s.power := rfl
@[simp] theorem addPair_boot : (addPair a n s).boot = s.boot := rfl
@[simp] theorem addPair_blotter : (addPair a n s).blotter = s.blotter := rfl
@[simp] theorem addPair_hbm : (addPair a n s).hbm = s.hbm := rfl
@[simp] theorem addPair_mcs : (addPair a n s).mcs = s.mcs := rfl
@[simp] theorem addPair_mmu : (addPair a n s).mmu = s.mmu := rfl
@[simp] theorem addPair_groves : (addPair a n s).groves = s.groves := rfl
@[simp] theorem addPair_pnibs : (addPair a n s).pnibs = s.pnibs := rfl
@[simp] theorem addPair_nibs : (addPair a n s).nibs = s.nibs := rfl
@[simp] theorem addPair_canopy : (addPair a n s).canopy = s.canopy := rfl
@[simp] theorem addPair_ctxs : (addPair a n s).ctxs = s.ctxs := rfl
@[simp] theorem addPair_ranger : (addPair a n s).ranger = s.ranger := rfl
@[simp] theorem addPair_supply : (addPair a n s).supply = s.supply := rfl
@[simp] theorem addPair_seedbank : (addPair a n s).seedbank = s.seedbank := rfl
@[simp] theorem addPair_scribes : (addPair a n s).scribes = s.scribes := rfl
@[simp] theorem addPair_lig : (addPair a n s).lig = s.lig := rfl
@[simp] theorem addPair_ports : (addPair a n s).ports = s.ports := rfl
@[simp] theorem addPair_xings : (addPair a n s).xings = s.xings := rfl
end addPair

section takeFree
@[simp] theorem takeFree_pending : (takeFree s).pending = s.pending := rfl
@[simp] theorem takeFree_outs : (takeFree s).outs = s.outs := rfl
@[simp] theorem takeFree_regs : (takeFree s).regs = s.regs := rfl
@[simp] theorem takeFree_latches : (takeFree s).latches = s.latches := rfl
@[simp] theorem takeFree_msix : (takeFree s).msix = s.msix := rfl
@[simp] theorem takeFree_uclk : (takeFree s).uclk = s.uclk := rfl
@[simp] theorem takeFree_times : (takeFree s).times = s.times := rfl
@[simp] theorem takeFree_fuses : (takeFree s).fuses = s.fuses := rfl
@[simp] theorem takeFree_power : (takeFree s).power = s.power := rfl
@[simp] theorem takeFree_boot : (takeFree s).boot = s.boot := rfl
@[simp] theorem takeFree_blotter : (takeFree s).blotter = s.blotter := rfl
@[simp] theorem takeFree_hbm : (takeFree s).hbm = s.hbm := rfl
@[simp] theorem takeFree_mcs : (takeFree s).mcs = s.mcs := rfl
@[simp] theorem takeFree_mmu : (takeFree s).mmu = s.mmu := rfl
@[simp] theorem takeFree_groves : (takeFree s).groves = s.groves := rfl
@[simp] theorem takeFree_pnibs : (takeFree s).pnibs = s.pnibs := rfl
@[simp] theorem takeFree_nibs : (takeFree s).nibs = s.nibs := rfl
@[simp] theorem takeFree_canopy : (takeFree s).canopy = s.canopy := rfl
@[simp] theorem takeFree_ctxs : (takeFree s).ctxs = s.ctxs := rfl
@[simp] theorem takeFree_ranger : (takeFree s).ranger = s.ranger := rfl
@[simp] theorem takeFree_supply : (takeFree s).supply = s.supply := rfl
@[simp] theorem takeFree_seedbank : (takeFree s).seedbank = s.seedbank := rfl
@[simp] theorem takeFree_scribes : (takeFree s).scribes = s.scribes := rfl
@[simp] theorem takeFree_lig : (takeFree s).lig = s.lig := rfl
@[simp] theorem takeFree_ports : (takeFree s).ports = s.ports := rfl
@[simp] theorem takeFree_xings : (takeFree s).xings = s.xings := rfl
end takeFree

section emit
variable (o : Out)
@[simp] theorem emit_pending : (emit o s).pending = s.pending := rfl
@[simp] theorem emit_free : (emit o s).free = s.free := rfl
@[simp] theorem emit_regs : (emit o s).regs = s.regs := rfl
@[simp] theorem emit_latches : (emit o s).latches = s.latches := rfl
@[simp] theorem emit_msix : (emit o s).msix = s.msix := rfl
@[simp] theorem emit_uclk : (emit o s).uclk = s.uclk := rfl
@[simp] theorem emit_inTick : (emit o s).inTick = s.inTick := rfl
@[simp] theorem emit_times : (emit o s).times = s.times := rfl
@[simp] theorem emit_fuses : (emit o s).fuses = s.fuses := rfl
@[simp] theorem emit_power : (emit o s).power = s.power := rfl
@[simp] theorem emit_boot : (emit o s).boot = s.boot := rfl
@[simp] theorem emit_blotter : (emit o s).blotter = s.blotter := rfl
@[simp] theorem emit_hbm : (emit o s).hbm = s.hbm := rfl
@[simp] theorem emit_mcs : (emit o s).mcs = s.mcs := rfl
@[simp] theorem emit_mmu : (emit o s).mmu = s.mmu := rfl
@[simp] theorem emit_groves : (emit o s).groves = s.groves := rfl
@[simp] theorem emit_pnibs : (emit o s).pnibs = s.pnibs := rfl
@[simp] theorem emit_nibs : (emit o s).nibs = s.nibs := rfl
@[simp] theorem emit_canopy : (emit o s).canopy = s.canopy := rfl
@[simp] theorem emit_ctxs : (emit o s).ctxs = s.ctxs := rfl
@[simp] theorem emit_ranger : (emit o s).ranger = s.ranger := rfl
@[simp] theorem emit_supply : (emit o s).supply = s.supply := rfl
@[simp] theorem emit_seedbank : (emit o s).seedbank = s.seedbank := rfl
@[simp] theorem emit_scribes : (emit o s).scribes = s.scribes := rfl
@[simp] theorem emit_lig : (emit o s).lig = s.lig := rfl
@[simp] theorem emit_ports : (emit o s).ports = s.ports := rfl
@[simp] theorem emit_xings : (emit o s).xings = s.xings := rfl
end emit

section setNib
variable (n : Nat) (x : Nib)
@[simp] theorem setNib_pending : (setNib n x s).pending = s.pending := rfl
@[simp] theorem setNib_free : (setNib n x s).free = s.free := rfl
@[simp] theorem setNib_outs : (setNib n x s).outs = s.outs := rfl
@[simp] theorem setNib_regs : (setNib n x s).regs = s.regs := rfl
@[simp] theorem setNib_latches : (setNib n x s).latches = s.latches := rfl
@[simp] theorem setNib_msix : (setNib n x s).msix = s.msix := rfl
@[simp] theorem setNib_uclk : (setNib n x s).uclk = s.uclk := rfl
@[simp] theorem setNib_inTick : (setNib n x s).inTick = s.inTick := rfl
@[simp] theorem setNib_times : (setNib n x s).times = s.times := rfl
@[simp] theorem setNib_fuses : (setNib n x s).fuses = s.fuses := rfl
@[simp] theorem setNib_power : (setNib n x s).power = s.power := rfl
@[simp] theorem setNib_boot : (setNib n x s).boot = s.boot := rfl
@[simp] theorem setNib_blotter : (setNib n x s).blotter = s.blotter := rfl
@[simp] theorem setNib_hbm : (setNib n x s).hbm = s.hbm := rfl
@[simp] theorem setNib_mcs : (setNib n x s).mcs = s.mcs := rfl
@[simp] theorem setNib_mmu : (setNib n x s).mmu = s.mmu := rfl
@[simp] theorem setNib_groves : (setNib n x s).groves = s.groves := rfl
@[simp] theorem setNib_pnibs : (setNib n x s).pnibs = s.pnibs := rfl
@[simp] theorem setNib_canopy : (setNib n x s).canopy = s.canopy := rfl
@[simp] theorem setNib_ctxs : (setNib n x s).ctxs = s.ctxs := rfl
@[simp] theorem setNib_ranger : (setNib n x s).ranger = s.ranger := rfl
@[simp] theorem setNib_supply : (setNib n x s).supply = s.supply := rfl
@[simp] theorem setNib_seedbank : (setNib n x s).seedbank = s.seedbank := rfl
@[simp] theorem setNib_scribes : (setNib n x s).scribes = s.scribes := rfl
@[simp] theorem setNib_lig : (setNib n x s).lig = s.lig := rfl
@[simp] theorem setNib_ports : (setNib n x s).ports = s.ports := rfl
@[simp] theorem setNib_xings : (setNib n x s).xings = s.xings := rfl
end setNib

section modNib
variable (n : Nat) (f : Nib → Nib)
@[simp] theorem modNib_pending : (modNib n f s).pending = s.pending := rfl
@[simp] theorem modNib_free : (modNib n f s).free = s.free := rfl
@[simp] theorem modNib_outs : (modNib n f s).outs = s.outs := rfl
@[simp] theorem modNib_regs : (modNib n f s).regs = s.regs := rfl
@[simp] theorem modNib_latches : (modNib n f s).latches = s.latches := rfl
@[simp] theorem modNib_msix : (modNib n f s).msix = s.msix := rfl
@[simp] theorem modNib_uclk : (modNib n f s).uclk = s.uclk := rfl
@[simp] theorem modNib_inTick : (modNib n f s).inTick = s.inTick := rfl
@[simp] theorem modNib_times : (modNib n f s).times = s.times := rfl
@[simp] theorem modNib_fuses : (modNib n f s).fuses = s.fuses := rfl
@[simp] theorem modNib_power : (modNib n f s).power = s.power := rfl
@[simp] theorem modNib_boot : (modNib n f s).boot = s.boot := rfl
@[simp] theorem modNib_blotter : (modNib n f s).blotter = s.blotter := rfl
@[simp] theorem modNib_hbm : (modNib n f s).hbm = s.hbm := rfl
@[simp] theorem modNib_mcs : (modNib n f s).mcs = s.mcs := rfl
@[simp] theorem modNib_mmu : (modNib n f s).mmu = s.mmu := rfl
@[simp] theorem modNib_groves : (modNib n f s).groves = s.groves := rfl
@[simp] theorem modNib_pnibs : (modNib n f s).pnibs = s.pnibs := rfl
@[simp] theorem modNib_canopy : (modNib n f s).canopy = s.canopy := rfl
@[simp] theorem modNib_ctxs : (modNib n f s).ctxs = s.ctxs := rfl
@[simp] theorem modNib_ranger : (modNib n f s).ranger = s.ranger := rfl
@[simp] theorem modNib_supply : (modNib n f s).supply = s.supply := rfl
@[simp] theorem modNib_seedbank : (modNib n f s).seedbank = s.seedbank := rfl
@[simp] theorem modNib_scribes : (modNib n f s).scribes = s.scribes := rfl
@[simp] theorem modNib_lig : (modNib n f s).lig = s.lig := rfl
@[simp] theorem modNib_ports : (modNib n f s).ports = s.ports := rfl
@[simp] theorem modNib_xings : (modNib n f s).xings = s.xings := rfl
end modNib

section setCtx
variable (c : Nat) (x : Ctx)
@[simp] theorem setCtx_pending : (setCtx c x s).pending = s.pending := rfl
@[simp] theorem setCtx_free : (setCtx c x s).free = s.free := rfl
@[simp] theorem setCtx_outs : (setCtx c x s).outs = s.outs := rfl
@[simp] theorem setCtx_regs : (setCtx c x s).regs = s.regs := rfl
@[simp] theorem setCtx_latches : (setCtx c x s).latches = s.latches := rfl
@[simp] theorem setCtx_msix : (setCtx c x s).msix = s.msix := rfl
@[simp] theorem setCtx_uclk : (setCtx c x s).uclk = s.uclk := rfl
@[simp] theorem setCtx_inTick : (setCtx c x s).inTick = s.inTick := rfl
@[simp] theorem setCtx_times : (setCtx c x s).times = s.times := rfl
@[simp] theorem setCtx_fuses : (setCtx c x s).fuses = s.fuses := rfl
@[simp] theorem setCtx_power : (setCtx c x s).power = s.power := rfl
@[simp] theorem setCtx_boot : (setCtx c x s).boot = s.boot := rfl
@[simp] theorem setCtx_blotter : (setCtx c x s).blotter = s.blotter := rfl
@[simp] theorem setCtx_hbm : (setCtx c x s).hbm = s.hbm := rfl
@[simp] theorem setCtx_mcs : (setCtx c x s).mcs = s.mcs := rfl
@[simp] theorem setCtx_mmu : (setCtx c x s).mmu = s.mmu := rfl
@[simp] theorem setCtx_groves : (setCtx c x s).groves = s.groves := rfl
@[simp] theorem setCtx_pnibs : (setCtx c x s).pnibs = s.pnibs := rfl
@[simp] theorem setCtx_nibs : (setCtx c x s).nibs = s.nibs := rfl
@[simp] theorem setCtx_canopy : (setCtx c x s).canopy = s.canopy := rfl
@[simp] theorem setCtx_ranger : (setCtx c x s).ranger = s.ranger := rfl
@[simp] theorem setCtx_supply : (setCtx c x s).supply = s.supply := rfl
@[simp] theorem setCtx_seedbank : (setCtx c x s).seedbank = s.seedbank := rfl
@[simp] theorem setCtx_scribes : (setCtx c x s).scribes = s.scribes := rfl
@[simp] theorem setCtx_lig : (setCtx c x s).lig = s.lig := rfl
@[simp] theorem setCtx_ports : (setCtx c x s).ports = s.ports := rfl
@[simp] theorem setCtx_xings : (setCtx c x s).xings = s.xings := rfl
end setCtx

section modCtx
variable (c : Nat) (f : Ctx → Ctx)
@[simp] theorem modCtx_pending : (modCtx c f s).pending = s.pending := rfl
@[simp] theorem modCtx_free : (modCtx c f s).free = s.free := rfl
@[simp] theorem modCtx_outs : (modCtx c f s).outs = s.outs := rfl
@[simp] theorem modCtx_regs : (modCtx c f s).regs = s.regs := rfl
@[simp] theorem modCtx_latches : (modCtx c f s).latches = s.latches := rfl
@[simp] theorem modCtx_msix : (modCtx c f s).msix = s.msix := rfl
@[simp] theorem modCtx_uclk : (modCtx c f s).uclk = s.uclk := rfl
@[simp] theorem modCtx_inTick : (modCtx c f s).inTick = s.inTick := rfl
@[simp] theorem modCtx_times : (modCtx c f s).times = s.times := rfl
@[simp] theorem modCtx_fuses : (modCtx c f s).fuses = s.fuses := rfl
@[simp] theorem modCtx_power : (modCtx c f s).power = s.power := rfl
@[simp] theorem modCtx_boot : (modCtx c f s).boot = s.boot := rfl
@[simp] theorem modCtx_blotter : (modCtx c f s).blotter = s.blotter := rfl
@[simp] theorem modCtx_hbm : (modCtx c f s).hbm = s.hbm := rfl
@[simp] theorem modCtx_mcs : (modCtx c f s).mcs = s.mcs := rfl
@[simp] theorem modCtx_mmu : (modCtx c f s).mmu = s.mmu := rfl
@[simp] theorem modCtx_groves : (modCtx c f s).groves = s.groves := rfl
@[simp] theorem modCtx_pnibs : (modCtx c f s).pnibs = s.pnibs := rfl
@[simp] theorem modCtx_nibs : (modCtx c f s).nibs = s.nibs := rfl
@[simp] theorem modCtx_canopy : (modCtx c f s).canopy = s.canopy := rfl
@[simp] theorem modCtx_ranger : (modCtx c f s).ranger = s.ranger := rfl
@[simp] theorem modCtx_supply : (modCtx c f s).supply = s.supply := rfl
@[simp] theorem modCtx_seedbank : (modCtx c f s).seedbank = s.seedbank := rfl
@[simp] theorem modCtx_scribes : (modCtx c f s).scribes = s.scribes := rfl
@[simp] theorem modCtx_lig : (modCtx c f s).lig = s.lig := rfl
@[simp] theorem modCtx_ports : (modCtx c f s).ports = s.ports := rfl
@[simp] theorem modCtx_xings : (modCtx c f s).xings = s.xings := rfl
end modCtx

section setPNib
variable (n : Nat) (x : PNib)
@[simp] theorem setPNib_pending : (setPNib n x s).pending = s.pending := rfl
@[simp] theorem setPNib_free : (setPNib n x s).free = s.free := rfl
@[simp] theorem setPNib_outs : (setPNib n x s).outs = s.outs := rfl
@[simp] theorem setPNib_regs : (setPNib n x s).regs = s.regs := rfl
@[simp] theorem setPNib_latches : (setPNib n x s).latches = s.latches := rfl
@[simp] theorem setPNib_msix : (setPNib n x s).msix = s.msix := rfl
@[simp] theorem setPNib_uclk : (setPNib n x s).uclk = s.uclk := rfl
@[simp] theorem setPNib_inTick : (setPNib n x s).inTick = s.inTick := rfl
@[simp] theorem setPNib_times : (setPNib n x s).times = s.times := rfl
@[simp] theorem setPNib_fuses : (setPNib n x s).fuses = s.fuses := rfl
@[simp] theorem setPNib_power : (setPNib n x s).power = s.power := rfl
@[simp] theorem setPNib_boot : (setPNib n x s).boot = s.boot := rfl
@[simp] theorem setPNib_blotter : (setPNib n x s).blotter = s.blotter := rfl
@[simp] theorem setPNib_hbm : (setPNib n x s).hbm = s.hbm := rfl
@[simp] theorem setPNib_mcs : (setPNib n x s).mcs = s.mcs := rfl
@[simp] theorem setPNib_mmu : (setPNib n x s).mmu = s.mmu := rfl
@[simp] theorem setPNib_groves : (setPNib n x s).groves = s.groves := rfl
@[simp] theorem setPNib_nibs : (setPNib n x s).nibs = s.nibs := rfl
@[simp] theorem setPNib_canopy : (setPNib n x s).canopy = s.canopy := rfl
@[simp] theorem setPNib_ctxs : (setPNib n x s).ctxs = s.ctxs := rfl
@[simp] theorem setPNib_ranger : (setPNib n x s).ranger = s.ranger := rfl
@[simp] theorem setPNib_supply : (setPNib n x s).supply = s.supply := rfl
@[simp] theorem setPNib_seedbank : (setPNib n x s).seedbank = s.seedbank := rfl
@[simp] theorem setPNib_scribes : (setPNib n x s).scribes = s.scribes := rfl
@[simp] theorem setPNib_lig : (setPNib n x s).lig = s.lig := rfl
@[simp] theorem setPNib_ports : (setPNib n x s).ports = s.ports := rfl
@[simp] theorem setPNib_xings : (setPNib n x s).xings = s.xings := rfl
end setPNib

section modPNib
variable (n : Nat) (f : PNib → PNib)
@[simp] theorem modPNib_pending : (modPNib n f s).pending = s.pending := rfl
@[simp] theorem modPNib_free : (modPNib n f s).free = s.free := rfl
@[simp] theorem modPNib_outs : (modPNib n f s).outs = s.outs := rfl
@[simp] theorem modPNib_regs : (modPNib n f s).regs = s.regs := rfl
@[simp] theorem modPNib_latches : (modPNib n f s).latches = s.latches := rfl
@[simp] theorem modPNib_msix : (modPNib n f s).msix = s.msix := rfl
@[simp] theorem modPNib_uclk : (modPNib n f s).uclk = s.uclk := rfl
@[simp] theorem modPNib_inTick : (modPNib n f s).inTick = s.inTick := rfl
@[simp] theorem modPNib_times : (modPNib n f s).times = s.times := rfl
@[simp] theorem modPNib_fuses : (modPNib n f s).fuses = s.fuses := rfl
@[simp] theorem modPNib_power : (modPNib n f s).power = s.power := rfl
@[simp] theorem modPNib_boot : (modPNib n f s).boot = s.boot := rfl
@[simp] theorem modPNib_blotter : (modPNib n f s).blotter = s.blotter := rfl
@[simp] theorem modPNib_hbm : (modPNib n f s).hbm = s.hbm := rfl
@[simp] theorem modPNib_mcs : (modPNib n f s).mcs = s.mcs := rfl
@[simp] theorem modPNib_mmu : (modPNib n f s).mmu = s.mmu := rfl
@[simp] theorem modPNib_groves : (modPNib n f s).groves = s.groves := rfl
@[simp] theorem modPNib_nibs : (modPNib n f s).nibs = s.nibs := rfl
@[simp] theorem modPNib_canopy : (modPNib n f s).canopy = s.canopy := rfl
@[simp] theorem modPNib_ctxs : (modPNib n f s).ctxs = s.ctxs := rfl
@[simp] theorem modPNib_ranger : (modPNib n f s).ranger = s.ranger := rfl
@[simp] theorem modPNib_supply : (modPNib n f s).supply = s.supply := rfl
@[simp] theorem modPNib_seedbank : (modPNib n f s).seedbank = s.seedbank := rfl
@[simp] theorem modPNib_scribes : (modPNib n f s).scribes = s.scribes := rfl
@[simp] theorem modPNib_lig : (modPNib n f s).lig = s.lig := rfl
@[simp] theorem modPNib_ports : (modPNib n f s).ports = s.ports := rfl
@[simp] theorem modPNib_xings : (modPNib n f s).xings = s.xings := rfl
end modPNib

section setGrove
variable (g : Nat) (x : Grove)
@[simp] theorem setGrove_pending : (setGrove g x s).pending = s.pending := rfl
@[simp] theorem setGrove_free : (setGrove g x s).free = s.free := rfl
@[simp] theorem setGrove_outs : (setGrove g x s).outs = s.outs := rfl
@[simp] theorem setGrove_regs : (setGrove g x s).regs = s.regs := rfl
@[simp] theorem setGrove_latches : (setGrove g x s).latches = s.latches := rfl
@[simp] theorem setGrove_msix : (setGrove g x s).msix = s.msix := rfl
@[simp] theorem setGrove_uclk : (setGrove g x s).uclk = s.uclk := rfl
@[simp] theorem setGrove_inTick : (setGrove g x s).inTick = s.inTick := rfl
@[simp] theorem setGrove_times : (setGrove g x s).times = s.times := rfl
@[simp] theorem setGrove_fuses : (setGrove g x s).fuses = s.fuses := rfl
@[simp] theorem setGrove_power : (setGrove g x s).power = s.power := rfl
@[simp] theorem setGrove_boot : (setGrove g x s).boot = s.boot := rfl
@[simp] theorem setGrove_blotter : (setGrove g x s).blotter = s.blotter := rfl
@[simp] theorem setGrove_hbm : (setGrove g x s).hbm = s.hbm := rfl
@[simp] theorem setGrove_mcs : (setGrove g x s).mcs = s.mcs := rfl
@[simp] theorem setGrove_mmu : (setGrove g x s).mmu = s.mmu := rfl
@[simp] theorem setGrove_pnibs : (setGrove g x s).pnibs = s.pnibs := rfl
@[simp] theorem setGrove_nibs : (setGrove g x s).nibs = s.nibs := rfl
@[simp] theorem setGrove_canopy : (setGrove g x s).canopy = s.canopy := rfl
@[simp] theorem setGrove_ctxs : (setGrove g x s).ctxs = s.ctxs := rfl
@[simp] theorem setGrove_ranger : (setGrove g x s).ranger = s.ranger := rfl
@[simp] theorem setGrove_supply : (setGrove g x s).supply = s.supply := rfl
@[simp] theorem setGrove_seedbank : (setGrove g x s).seedbank = s.seedbank := rfl
@[simp] theorem setGrove_scribes : (setGrove g x s).scribes = s.scribes := rfl
@[simp] theorem setGrove_lig : (setGrove g x s).lig = s.lig := rfl
@[simp] theorem setGrove_ports : (setGrove g x s).ports = s.ports := rfl
@[simp] theorem setGrove_xings : (setGrove g x s).xings = s.xings := rfl
end setGrove

section modGrove
variable (g : Nat) (f : Grove → Grove)
@[simp] theorem modGrove_pending : (modGrove g f s).pending = s.pending := rfl
@[simp] theorem modGrove_free : (modGrove g f s).free = s.free := rfl
@[simp] theorem modGrove_outs : (modGrove g f s).outs = s.outs := rfl
@[simp] theorem modGrove_regs : (modGrove g f s).regs = s.regs := rfl
@[simp] theorem modGrove_latches : (modGrove g f s).latches = s.latches := rfl
@[simp] theorem modGrove_msix : (modGrove g f s).msix = s.msix := rfl
@[simp] theorem modGrove_uclk : (modGrove g f s).uclk = s.uclk := rfl
@[simp] theorem modGrove_inTick : (modGrove g f s).inTick = s.inTick := rfl
@[simp] theorem modGrove_times : (modGrove g f s).times = s.times := rfl
@[simp] theorem modGrove_fuses : (modGrove g f s).fuses = s.fuses := rfl
@[simp] theorem modGrove_power : (modGrove g f s).power = s.power := rfl
@[simp] theorem modGrove_boot : (modGrove g f s).boot = s.boot := rfl
@[simp] theorem modGrove_blotter : (modGrove g f s).blotter = s.blotter := rfl
@[simp] theorem modGrove_hbm : (modGrove g f s).hbm = s.hbm := rfl
@[simp] theorem modGrove_mcs : (modGrove g f s).mcs = s.mcs := rfl
@[simp] theorem modGrove_mmu : (modGrove g f s).mmu = s.mmu := rfl
@[simp] theorem modGrove_pnibs : (modGrove g f s).pnibs = s.pnibs := rfl
@[simp] theorem modGrove_nibs : (modGrove g f s).nibs = s.nibs := rfl
@[simp] theorem modGrove_canopy : (modGrove g f s).canopy = s.canopy := rfl
@[simp] theorem modGrove_ctxs : (modGrove g f s).ctxs = s.ctxs := rfl
@[simp] theorem modGrove_ranger : (modGrove g f s).ranger = s.ranger := rfl
@[simp] theorem modGrove_supply : (modGrove g f s).supply = s.supply := rfl
@[simp] theorem modGrove_seedbank : (modGrove g f s).seedbank = s.seedbank := rfl
@[simp] theorem modGrove_scribes : (modGrove g f s).scribes = s.scribes := rfl
@[simp] theorem modGrove_lig : (modGrove g f s).lig = s.lig := rfl
@[simp] theorem modGrove_ports : (modGrove g f s).ports = s.ports := rfl
@[simp] theorem modGrove_xings : (modGrove g f s).xings = s.xings := rfl
end modGrove

section setMc
variable (m : Nat) (x : Mc)
@[simp] theorem setMc_pending : (setMc m x s).pending = s.pending := rfl
@[simp] theorem setMc_free : (setMc m x s).free = s.free := rfl
@[simp] theorem setMc_outs : (setMc m x s).outs = s.outs := rfl
@[simp] theorem setMc_regs : (setMc m x s).regs = s.regs := rfl
@[simp] theorem setMc_latches : (setMc m x s).latches = s.latches := rfl
@[simp] theorem setMc_msix : (setMc m x s).msix = s.msix := rfl
@[simp] theorem setMc_uclk : (setMc m x s).uclk = s.uclk := rfl
@[simp] theorem setMc_inTick : (setMc m x s).inTick = s.inTick := rfl
@[simp] theorem setMc_times : (setMc m x s).times = s.times := rfl
@[simp] theorem setMc_fuses : (setMc m x s).fuses = s.fuses := rfl
@[simp] theorem setMc_power : (setMc m x s).power = s.power := rfl
@[simp] theorem setMc_boot : (setMc m x s).boot = s.boot := rfl
@[simp] theorem setMc_blotter : (setMc m x s).blotter = s.blotter := rfl
@[simp] theorem setMc_hbm : (setMc m x s).hbm = s.hbm := rfl
@[simp] theorem setMc_mmu : (setMc m x s).mmu = s.mmu := rfl
@[simp] theorem setMc_groves : (setMc m x s).groves = s.groves := rfl
@[simp] theorem setMc_pnibs : (setMc m x s).pnibs = s.pnibs := rfl
@[simp] theorem setMc_nibs : (setMc m x s).nibs = s.nibs := rfl
@[simp] theorem setMc_canopy : (setMc m x s).canopy = s.canopy := rfl
@[simp] theorem setMc_ctxs : (setMc m x s).ctxs = s.ctxs := rfl
@[simp] theorem setMc_ranger : (setMc m x s).ranger = s.ranger := rfl
@[simp] theorem setMc_supply : (setMc m x s).supply = s.supply := rfl
@[simp] theorem setMc_seedbank : (setMc m x s).seedbank = s.seedbank := rfl
@[simp] theorem setMc_scribes : (setMc m x s).scribes = s.scribes := rfl
@[simp] theorem setMc_lig : (setMc m x s).lig = s.lig := rfl
@[simp] theorem setMc_ports : (setMc m x s).ports = s.ports := rfl
@[simp] theorem setMc_xings : (setMc m x s).xings = s.xings := rfl
end setMc

section modMc
variable (m : Nat) (f : Mc → Mc)
@[simp] theorem modMc_pending : (modMc m f s).pending = s.pending := rfl
@[simp] theorem modMc_free : (modMc m f s).free = s.free := rfl
@[simp] theorem modMc_outs : (modMc m f s).outs = s.outs := rfl
@[simp] theorem modMc_regs : (modMc m f s).regs = s.regs := rfl
@[simp] theorem modMc_latches : (modMc m f s).latches = s.latches := rfl
@[simp] theorem modMc_msix : (modMc m f s).msix = s.msix := rfl
@[simp] theorem modMc_uclk : (modMc m f s).uclk = s.uclk := rfl
@[simp] theorem modMc_inTick : (modMc m f s).inTick = s.inTick := rfl
@[simp] theorem modMc_times : (modMc m f s).times = s.times := rfl
@[simp] theorem modMc_fuses : (modMc m f s).fuses = s.fuses := rfl
@[simp] theorem modMc_power : (modMc m f s).power = s.power := rfl
@[simp] theorem modMc_boot : (modMc m f s).boot = s.boot := rfl
@[simp] theorem modMc_blotter : (modMc m f s).blotter = s.blotter := rfl
@[simp] theorem modMc_hbm : (modMc m f s).hbm = s.hbm := rfl
@[simp] theorem modMc_mmu : (modMc m f s).mmu = s.mmu := rfl
@[simp] theorem modMc_groves : (modMc m f s).groves = s.groves := rfl
@[simp] theorem modMc_pnibs : (modMc m f s).pnibs = s.pnibs := rfl
@[simp] theorem modMc_nibs : (modMc m f s).nibs = s.nibs := rfl
@[simp] theorem modMc_canopy : (modMc m f s).canopy = s.canopy := rfl
@[simp] theorem modMc_ctxs : (modMc m f s).ctxs = s.ctxs := rfl
@[simp] theorem modMc_ranger : (modMc m f s).ranger = s.ranger := rfl
@[simp] theorem modMc_supply : (modMc m f s).supply = s.supply := rfl
@[simp] theorem modMc_seedbank : (modMc m f s).seedbank = s.seedbank := rfl
@[simp] theorem modMc_scribes : (modMc m f s).scribes = s.scribes := rfl
@[simp] theorem modMc_lig : (modMc m f s).lig = s.lig := rfl
@[simp] theorem modMc_ports : (modMc m f s).ports = s.ports := rfl
@[simp] theorem modMc_xings : (modMc m f s).xings = s.xings := rfl
end modMc

section setPort
variable (p : Nat) (x : Port)
@[simp] theorem setPort_pending : (setPort p x s).pending = s.pending := rfl
@[simp] theorem setPort_free : (setPort p x s).free = s.free := rfl
@[simp] theorem setPort_outs : (setPort p x s).outs = s.outs := rfl
@[simp] theorem setPort_regs : (setPort p x s).regs = s.regs := rfl
@[simp] theorem setPort_latches : (setPort p x s).latches = s.latches := rfl
@[simp] theorem setPort_msix : (setPort p x s).msix = s.msix := rfl
@[simp] theorem setPort_uclk : (setPort p x s).uclk = s.uclk := rfl
@[simp] theorem setPort_inTick : (setPort p x s).inTick = s.inTick := rfl
@[simp] theorem setPort_times : (setPort p x s).times = s.times := rfl
@[simp] theorem setPort_fuses : (setPort p x s).fuses = s.fuses := rfl
@[simp] theorem setPort_power : (setPort p x s).power = s.power := rfl
@[simp] theorem setPort_boot : (setPort p x s).boot = s.boot := rfl
@[simp] theorem setPort_blotter : (setPort p x s).blotter = s.blotter := rfl
@[simp] theorem setPort_hbm : (setPort p x s).hbm = s.hbm := rfl
@[simp] theorem setPort_mcs : (setPort p x s).mcs = s.mcs := rfl
@[simp] theorem setPort_mmu : (setPort p x s).mmu = s.mmu := rfl
@[simp] theorem setPort_groves : (setPort p x s).groves = s.groves := rfl
@[simp] theorem setPort_pnibs : (setPort p x s).pnibs = s.pnibs := rfl
@[simp] theorem setPort_nibs : (setPort p x s).nibs = s.nibs := rfl
@[simp] theorem setPort_canopy : (setPort p x s).canopy = s.canopy := rfl
@[simp] theorem setPort_ctxs : (setPort p x s).ctxs = s.ctxs := rfl
@[simp] theorem setPort_ranger : (setPort p x s).ranger = s.ranger := rfl
@[simp] theorem setPort_supply : (setPort p x s).supply = s.supply := rfl
@[simp] theorem setPort_seedbank : (setPort p x s).seedbank = s.seedbank := rfl
@[simp] theorem setPort_scribes : (setPort p x s).scribes = s.scribes := rfl
@[simp] theorem setPort_lig : (setPort p x s).lig = s.lig := rfl
@[simp] theorem setPort_xings : (setPort p x s).xings = s.xings := rfl
end setPort

section modPort
variable (p : Nat) (f : Port → Port)
@[simp] theorem modPort_pending : (modPort p f s).pending = s.pending := rfl
@[simp] theorem modPort_free : (modPort p f s).free = s.free := rfl
@[simp] theorem modPort_outs : (modPort p f s).outs = s.outs := rfl
@[simp] theorem modPort_regs : (modPort p f s).regs = s.regs := rfl
@[simp] theorem modPort_latches : (modPort p f s).latches = s.latches := rfl
@[simp] theorem modPort_msix : (modPort p f s).msix = s.msix := rfl
@[simp] theorem modPort_uclk : (modPort p f s).uclk = s.uclk := rfl
@[simp] theorem modPort_inTick : (modPort p f s).inTick = s.inTick := rfl
@[simp] theorem modPort_times : (modPort p f s).times = s.times := rfl
@[simp] theorem modPort_fuses : (modPort p f s).fuses = s.fuses := rfl
@[simp] theorem modPort_power : (modPort p f s).power = s.power := rfl
@[simp] theorem modPort_boot : (modPort p f s).boot = s.boot := rfl
@[simp] theorem modPort_blotter : (modPort p f s).blotter = s.blotter := rfl
@[simp] theorem modPort_hbm : (modPort p f s).hbm = s.hbm := rfl
@[simp] theorem modPort_mcs : (modPort p f s).mcs = s.mcs := rfl
@[simp] theorem modPort_mmu : (modPort p f s).mmu = s.mmu := rfl
@[simp] theorem modPort_groves : (modPort p f s).groves = s.groves := rfl
@[simp] theorem modPort_pnibs : (modPort p f s).pnibs = s.pnibs := rfl
@[simp] theorem modPort_nibs : (modPort p f s).nibs = s.nibs := rfl
@[simp] theorem modPort_canopy : (modPort p f s).canopy = s.canopy := rfl
@[simp] theorem modPort_ctxs : (modPort p f s).ctxs = s.ctxs := rfl
@[simp] theorem modPort_ranger : (modPort p f s).ranger = s.ranger := rfl
@[simp] theorem modPort_supply : (modPort p f s).supply = s.supply := rfl
@[simp] theorem modPort_seedbank : (modPort p f s).seedbank = s.seedbank := rfl
@[simp] theorem modPort_scribes : (modPort p f s).scribes = s.scribes := rfl
@[simp] theorem modPort_lig : (modPort p f s).lig = s.lig := rfl
@[simp] theorem modPort_xings : (modPort p f s).xings = s.xings := rfl
end modPort

section setScribe
variable (m : Nat) (x : Scribe)
@[simp] theorem setScribe_pending : (setScribe m x s).pending = s.pending := rfl
@[simp] theorem setScribe_free : (setScribe m x s).free = s.free := rfl
@[simp] theorem setScribe_outs : (setScribe m x s).outs = s.outs := rfl
@[simp] theorem setScribe_regs : (setScribe m x s).regs = s.regs := rfl
@[simp] theorem setScribe_latches : (setScribe m x s).latches = s.latches := rfl
@[simp] theorem setScribe_msix : (setScribe m x s).msix = s.msix := rfl
@[simp] theorem setScribe_uclk : (setScribe m x s).uclk = s.uclk := rfl
@[simp] theorem setScribe_inTick : (setScribe m x s).inTick = s.inTick := rfl
@[simp] theorem setScribe_times : (setScribe m x s).times = s.times := rfl
@[simp] theorem setScribe_fuses : (setScribe m x s).fuses = s.fuses := rfl
@[simp] theorem setScribe_power : (setScribe m x s).power = s.power := rfl
@[simp] theorem setScribe_boot : (setScribe m x s).boot = s.boot := rfl
@[simp] theorem setScribe_blotter : (setScribe m x s).blotter = s.blotter := rfl
@[simp] theorem setScribe_hbm : (setScribe m x s).hbm = s.hbm := rfl
@[simp] theorem setScribe_mcs : (setScribe m x s).mcs = s.mcs := rfl
@[simp] theorem setScribe_mmu : (setScribe m x s).mmu = s.mmu := rfl
@[simp] theorem setScribe_groves : (setScribe m x s).groves = s.groves := rfl
@[simp] theorem setScribe_pnibs : (setScribe m x s).pnibs = s.pnibs := rfl
@[simp] theorem setScribe_nibs : (setScribe m x s).nibs = s.nibs := rfl
@[simp] theorem setScribe_canopy : (setScribe m x s).canopy = s.canopy := rfl
@[simp] theorem setScribe_ctxs : (setScribe m x s).ctxs = s.ctxs := rfl
@[simp] theorem setScribe_ranger : (setScribe m x s).ranger = s.ranger := rfl
@[simp] theorem setScribe_supply : (setScribe m x s).supply = s.supply := rfl
@[simp] theorem setScribe_seedbank : (setScribe m x s).seedbank = s.seedbank := rfl
@[simp] theorem setScribe_lig : (setScribe m x s).lig = s.lig := rfl
@[simp] theorem setScribe_ports : (setScribe m x s).ports = s.ports := rfl
@[simp] theorem setScribe_xings : (setScribe m x s).xings = s.xings := rfl
end setScribe

section modScribe
variable (m : Nat) (f : Scribe → Scribe)
@[simp] theorem modScribe_pending : (modScribe m f s).pending = s.pending := rfl
@[simp] theorem modScribe_free : (modScribe m f s).free = s.free := rfl
@[simp] theorem modScribe_outs : (modScribe m f s).outs = s.outs := rfl
@[simp] theorem modScribe_regs : (modScribe m f s).regs = s.regs := rfl
@[simp] theorem modScribe_latches : (modScribe m f s).latches = s.latches := rfl
@[simp] theorem modScribe_msix : (modScribe m f s).msix = s.msix := rfl
@[simp] theorem modScribe_uclk : (modScribe m f s).uclk = s.uclk := rfl
@[simp] theorem modScribe_inTick : (modScribe m f s).inTick = s.inTick := rfl
@[simp] theorem modScribe_times : (modScribe m f s).times = s.times := rfl
@[simp] theorem modScribe_fuses : (modScribe m f s).fuses = s.fuses := rfl
@[simp] theorem modScribe_power : (modScribe m f s).power = s.power := rfl
@[simp] theorem modScribe_boot : (modScribe m f s).boot = s.boot := rfl
@[simp] theorem modScribe_blotter : (modScribe m f s).blotter = s.blotter := rfl
@[simp] theorem modScribe_hbm : (modScribe m f s).hbm = s.hbm := rfl
@[simp] theorem modScribe_mcs : (modScribe m f s).mcs = s.mcs := rfl
@[simp] theorem modScribe_mmu : (modScribe m f s).mmu = s.mmu := rfl
@[simp] theorem modScribe_groves : (modScribe m f s).groves = s.groves := rfl
@[simp] theorem modScribe_pnibs : (modScribe m f s).pnibs = s.pnibs := rfl
@[simp] theorem modScribe_nibs : (modScribe m f s).nibs = s.nibs := rfl
@[simp] theorem modScribe_canopy : (modScribe m f s).canopy = s.canopy := rfl
@[simp] theorem modScribe_ctxs : (modScribe m f s).ctxs = s.ctxs := rfl
@[simp] theorem modScribe_ranger : (modScribe m f s).ranger = s.ranger := rfl
@[simp] theorem modScribe_supply : (modScribe m f s).supply = s.supply := rfl
@[simp] theorem modScribe_seedbank : (modScribe m f s).seedbank = s.seedbank := rfl
@[simp] theorem modScribe_lig : (modScribe m f s).lig = s.lig := rfl
@[simp] theorem modScribe_ports : (modScribe m f s).ports = s.ports := rfl
@[simp] theorem modScribe_xings : (modScribe m f s).xings = s.xings := rfl
end modScribe

section setMsix
variable (n : Nat) (x : Msix)
@[simp] theorem setMsix_pending : (setMsix n x s).pending = s.pending := rfl
@[simp] theorem setMsix_free : (setMsix n x s).free = s.free := rfl
@[simp] theorem setMsix_outs : (setMsix n x s).outs = s.outs := rfl
@[simp] theorem setMsix_regs : (setMsix n x s).regs = s.regs := rfl
@[simp] theorem setMsix_latches : (setMsix n x s).latches = s.latches := rfl
@[simp] theorem setMsix_uclk : (setMsix n x s).uclk = s.uclk := rfl
@[simp] theorem setMsix_inTick : (setMsix n x s).inTick = s.inTick := rfl
@[simp] theorem setMsix_times : (setMsix n x s).times = s.times := rfl
@[simp] theorem setMsix_fuses : (setMsix n x s).fuses = s.fuses := rfl
@[simp] theorem setMsix_power : (setMsix n x s).power = s.power := rfl
@[simp] theorem setMsix_boot : (setMsix n x s).boot = s.boot := rfl
@[simp] theorem setMsix_blotter : (setMsix n x s).blotter = s.blotter := rfl
@[simp] theorem setMsix_hbm : (setMsix n x s).hbm = s.hbm := rfl
@[simp] theorem setMsix_mcs : (setMsix n x s).mcs = s.mcs := rfl
@[simp] theorem setMsix_mmu : (setMsix n x s).mmu = s.mmu := rfl
@[simp] theorem setMsix_groves : (setMsix n x s).groves = s.groves := rfl
@[simp] theorem setMsix_pnibs : (setMsix n x s).pnibs = s.pnibs := rfl
@[simp] theorem setMsix_nibs : (setMsix n x s).nibs = s.nibs := rfl
@[simp] theorem setMsix_canopy : (setMsix n x s).canopy = s.canopy := rfl
@[simp] theorem setMsix_ctxs : (setMsix n x s).ctxs = s.ctxs := rfl
@[simp] theorem setMsix_ranger : (setMsix n x s).ranger = s.ranger := rfl
@[simp] theorem setMsix_supply : (setMsix n x s).supply = s.supply := rfl
@[simp] theorem setMsix_seedbank : (setMsix n x s).seedbank = s.seedbank := rfl
@[simp] theorem setMsix_scribes : (setMsix n x s).scribes = s.scribes := rfl
@[simp] theorem setMsix_lig : (setMsix n x s).lig = s.lig := rfl
@[simp] theorem setMsix_ports : (setMsix n x s).ports = s.ports := rfl
@[simp] theorem setMsix_xings : (setMsix n x s).xings = s.xings := rfl
end setMsix

/-! ## What the written field reads as -/

@[simp] theorem takeFree_free : (takeFree s).free = s.free + 1 := rfl
@[simp] theorem takeFree_inTick : (takeFree s).inTick = sinceTick s := rfl
@[simp] theorem emit_outs (o : Out) : (emit o s).outs = o :: s.outs := rfl

/-! ## Time within a tick (R347) -/

theorem sinceTick_le : sinceTick s ≤ 999 := Nat.min_le_left _ _

/-- UCLK_COUNT never reads less after an open value has been taken. -/
theorem now_takeFree_le : now s ≤ now (takeFree s) := by
  have h := sinceTick_le s
  simp only [now, takeFree_uclk, sinceTick, takeFree_inTick] at *
  omega

/-! ## Tables and vectors of units -/

theorem getNib_setNib_ne {n m : Nat} (x : Nib) (h : m ≠ n) : getNib (setNib n x s) m = getNib s m :=
  tabGet_set_ne s.nibs x h
theorem getNib_setNib_self (n : Nat) {x : Nib} (h : x ≠ Nib.cold) : getNib (setNib n x s) n = x := tabGet_set_self s.nibs n h
theorem getCtx_setCtx_ne {n m : Nat} (x : Ctx) (h : m ≠ n) : getCtx (setCtx n x s) m = getCtx s m := tabGet_set_ne s.ctxs x h
theorem getCtx_setCtx_self (n : Nat) {x : Ctx} (h : x ≠ Ctx.free) : getCtx (setCtx n x s) n = x := tabGet_set_self s.ctxs n h
theorem getPNib_setPNib_ne {n m : Nat} (x : PNib) (h : m ≠ n) : getPNib (setPNib n x s) m = getPNib s m :=
  tabGet_set_ne s.pnibs x h

/-- A register keeps its value when another is written. -/
theorem getR_setR_ne {a b : Nat} (v : Nat) (h : b ≠ a) : getR (setR a v s) b = getR s b := by
  simp only [getR, setR, tabGet_set_ne s.regs _ h]

/-- In a canonical register table a register reads as the word just written. -/
theorem getR_setR_self (a v : Nat) (w : tabWf (0 : Word32) s.regs = true) : getR (setR a v s) a = v % 2 ^ 32 := by
  simp only [getR, setR, tabGet_set_wf s.regs a _ w, BitVec.toNat_ofNat]

section vectors
variable {α : Type} {n : Nat} (d : α) (v : Vector α n)

theorem vget_vset_self {i : Nat} (x : α) (h : i < n) : vget d (vset v i x) i = x := by
  simp [vget, vset, h]

theorem vget_vset_ne {i j : Nat} (x : α) (h : j ≠ i) : vget d (vset v i x) j = vget d v j := by
  simp only [vget, vset]
  congr 1
  simp only [Vector.toList_setIfInBounds]
  rw [List.getElem?_set_ne (Ne.symm h)]
end vectors

theorem getGrove_setGrove_self {g : Nat} (x : Grove) (h : g < 64) : getGrove (setGrove g x s) g = x := vget_vset_self _ _ x h
theorem getGrove_setGrove_ne {g k : Nat} (x : Grove) (h : k ≠ g) : getGrove (setGrove g x s) k = getGrove s k := vget_vset_ne _ _ x h
theorem getMc_setMc_self {m : Nat} (x : Mc) (h : m < 8) : getMc (setMc m x s) m = x := vget_vset_self _ _ x h
theorem getMc_setMc_ne {m k : Nat} (x : Mc) (h : k ≠ m) : getMc (setMc m x s) k = getMc s k := vget_vset_ne _ _ x h
theorem getPort_setPort_self {p : Nat} (x : Port) (h : p < 16) : getPort (setPort p x s) p = x := vget_vset_self _ _ x h
theorem getPort_setPort_ne {p k : Nat} (x : Port) (h : k ≠ p) : getPort (setPort p x s) k = getPort s k := vget_vset_ne _ _ x h
theorem getScribe_setScribe_self {m : Nat} (x : Scribe) (h : m < 8) : getScribe (setScribe m x s) m = x := vget_vset_self _ _ x h

end Sys2Proof.Machine
end

