-- ==== Sys2Proof/Laws/Accounts.lean ====
section
/-! SUPPORT. What charging engine time and counting an event can do to the state (R339, R357). -/

namespace Sys2Proof.Machine

/-- Charging a context touches the accounts of engine time and takes open values, nothing else. -/
theorem chargeTime_frame (c : Nat) (s : State) :
    chargeTime c s = { s with times := (chargeTime c s).times, free := (chargeTime c s).free, inTick := (chargeTime c s).inTick } := by
  unfold chargeTime
  dsimp only
  split <;> rfl

/-- The accounts of the other contexts stay. -/
theorem chargeTime_times_ne (c : Nat) (s : State) {d : Nat} (h : d ≠ c) :
    tabGet EngineTime.zero (chargeTime c s).times d = tabGet EngineTime.zero s.times d := by
  unfold chargeTime
  dsimp only
  split
  · simp only [takeFree_times]
    exact tabGet_set_ne s.times _ h
  · rfl

/-- A counter of a family that meets no full accumulator counts one. -/
theorem countEvent_of_room {p : Page} {s : State} (a hi lo : Nat) (h : crossFull p s = false) : countEvent p a hi lo s = bump a hi lo 1 s := by
  simp [countEvent, h]

/-- An accumulator that has not had 255 indications since reset is not full. -/
theorem crossFull_of_few {p : Page} {s : State} (h : ∀ f, xingOf p = some f → vget 0 s.xings f < 255) : crossFull p s = false := by
  unfold crossFull
  split
  · rfl
  · next f hf =>
    have := h f hf
    simp only [Bool.and_eq_false_iff, decide_eq_false_iff_not]
    left
    omega

end Sys2Proof.Machine
end

