-- ==== Sys2Proof/Laws/Memory.lean ====
section
/-! SUPPORT. Laws of HBM: the canonical form is kept by every memory operation, a read gives what was written, and a write leaves every
other byte. -/

namespace Sys2Proof.Machine

/-- Every address of a list of cells lies below a bound. -/
def cellsBelow (b : Nat) (c : List Host.Cell) : Prop := ∀ p ∈ c, p.1 < b

theorem cellsWf_mono {fills : List Fill} {lo hi : Nat} {c : List Host.Cell} (h : lo ≤ hi) (w : cellsWf fills hi c = true) :
    cellsWf fills lo c = true := by
  cases c with
  | nil => rfl
  | cons p t =>
    obtain ⟨k, v⟩ := p
    simp only [cellsWf, Bool.and_eq_true, decide_eq_true_eq] at w ⊢
    exact ⟨⟨by omega, w.1.2⟩, w.2⟩

theorem cellsWf_append {fills : List Fill} {lo m : Nat} {xs ys : List Host.Cell} (hx : cellsWf fills lo xs = true)
    (hb : cellsBelow m xs) (hm : lo ≤ m) (hy : cellsWf fills m ys = true) : cellsWf fills lo (xs ++ ys) = true := by
  induction xs generalizing lo with
  | nil => exact cellsWf_mono hm hy
  | cons p t ih =>
    obtain ⟨k, v⟩ := p
    simp only [List.cons_append, cellsWf, Bool.and_eq_true, decide_eq_true_eq] at hx ⊢
    refine ⟨hx.1, ih hx.2 (fun q hq => hb q (List.mem_cons_of_mem _ hq)) ?_⟩
    have := hb (k, v) List.mem_cons_self
    simpa using this

theorem cellsWf_filter {fills : List Fill} {lo : Nat} {c : List Host.Cell} (f : Host.Cell → Bool) (w : cellsWf fills lo c = true) :
    cellsWf fills lo (c.filter f) = true := by
  induction c generalizing lo with
  | nil => rfl
  | cons p t ih =>
    obtain ⟨k, v⟩ := p
    simp only [cellsWf, Bool.and_eq_true, decide_eq_true_eq] at w
    by_cases h : f (k, v)
    · simp only [List.filter_cons_of_pos h, cellsWf, Bool.and_eq_true, decide_eq_true_eq]
      exact ⟨w.1, ih w.2⟩
    · simp only [List.filter_cons_of_neg h]
      exact cellsWf_mono (by omega) (ih w.2)

theorem cellsWf_from {fills : List Fill} {lo b : Nat} {c : List Host.Cell} (w : cellsWf fills lo c = true) (h : ∀ p ∈ c, b ≤ p.1) :
    cellsWf fills b c = true := by
  cases c with
  | nil => rfl
  | cons p t =>
    obtain ⟨k, v⟩ := p
    simp only [cellsWf, Bool.and_eq_true, decide_eq_true_eq] at w ⊢
    exact ⟨⟨h (k, v) List.mem_cons_self, w.1.2⟩, w.2⟩

theorem freshCells_wf (fills : List Fill) (a : Nat) (data : List Byte) : cellsWf fills a (freshCells fills a data) = true := by
  induction data generalizing a with
  | nil => rfl
  | cons b t ih =>
    unfold freshCells
    split
    · exact cellsWf_mono (by omega) (ih (a + 1))
    · rename_i h
      simp only [cellsWf, Bool.and_eq_true, decide_eq_true_eq]
      exact ⟨⟨le_refl _, h⟩, ih (a + 1)⟩

theorem freshCells_below (fills : List Fill) (a : Nat) (data : List Byte) : cellsBelow (a + data.length) (freshCells fills a data) := by
  induction data generalizing a with
  | nil => intro p hp; simp [freshCells] at hp
  | cons b t ih =>
    intro p hp
    unfold freshCells at hp
    have := ih (a + 1)
    split at hp
    · have := this p hp
      simp only [List.length_cons]
      omega
    · rcases List.mem_cons.mp hp with rfl | hp
      · simp
      · have := this p hp
        simp only [List.length_cons]
        omega

/-- Cells spliced between those below and those above a range. -/
theorem spliceCells_wf {fills : List Fill} {c mid : List Host.Cell} {a n : Nat} (w : cellsWf fills 0 c = true)
    (hm : cellsWf fills a mid = true) (hb : cellsBelow (a + n) mid) : cellsWf fills 0 (spliceCells c a n mid) = true := by
  unfold spliceCells
  rw [List.append_assoc]
  refine cellsWf_append (m := a) (cellsWf_filter _ w) ?_ (Nat.zero_le _) ?_
  · intro p hp
    simpa using (List.mem_filter.mp hp).2
  · refine cellsWf_append (m := a + n) hm hb (by omega) ?_
    refine cellsWf_from (cellsWf_filter _ w) ?_
    intro p hp
    simpa using (List.mem_filter.mp hp).2

theorem hbm_write_wf (h : Hbm) (a : Nat) (data : List Byte) (w : Memory.wf h = true) : Memory.wf (h.write a data) = true :=
  spliceCells_wf w (freshCells_wf _ _ _) (freshCells_below _ _ _)

theorem hbm_zero_wf (h : Hbm) (a n : Nat) (w : Memory.wf h = true) : Memory.wf (h.zero a n) = true := by
  unfold Hbm.zero
  split
  · exact hbm_write_wf h a _ w
  · exact spliceCells_wf w rfl (fun p hp => by simp at hp)

/-- Cells outside a new open range read as before. -/
theorem cellsWf_fill {fills : List Fill} {f : Fill} {lo : Nat} {c : List Host.Cell} (w : cellsWf fills lo c = true)
    (h : ∀ p ∈ c, p.1 < f.lo ∨ f.hi ≤ p.1) : cellsWf (f :: fills) lo c = true := by
  induction c generalizing lo with
  | nil => rfl
  | cons p t ih =>
    obtain ⟨k, v⟩ := p
    simp only [cellsWf, Bool.and_eq_true, decide_eq_true_eq] at w ⊢
    refine ⟨⟨w.1.1, ?_⟩, ih w.2 (fun q hq => h q (List.mem_cons_of_mem _ hq))⟩
    have hk := h (k, v) List.mem_cons_self
    have : ¬ (f.lo ≤ k ∧ k < f.hi) := by simp only at hk; omega
    simp only [hbmFill, this, if_false]
    exact w.1.2

theorem hbm_blur_wf (h : Hbm) (a n tag : Nat) (w : Memory.wf h = true) : Memory.wf (h.blur a n tag) = true := by
  refine cellsWf_fill (spliceCells_wf w rfl (fun p hp => by simp at hp)) ?_
  intro p hp
  have hq : p ∈ spliceCells h.cells a n [] := hp
  simp only [spliceCells, List.append_nil, List.mem_append, List.mem_filter, decide_eq_true_eq] at hq
  rcases hq with hq | hq
  · exact Or.inl hq.2
  · exact Or.inr hq.2

/-! ## The operations of the controllers -/

/-- Every byte and every open range of one state's HBM stands in the other: errors of codewords and locks are no part of it. -/
def SameBytes (s t : State) : Prop := t.hbm.cells = s.hbm.cells ∧ t.hbm.fills = s.hbm.fills

theorem SameBytes.refl (s : State) : SameBytes s s := ⟨rfl, rfl⟩
theorem SameBytes.trans {s t u : State} (a : SameBytes s t) (b : SameBytes t u) : SameBytes s u :=
  ⟨b.1.trans a.1, b.2.trans a.2⟩
theorem SameBytes.of_hbm {s t : State} (h : t.hbm = s.hbm) : SameBytes s t := by rw [SameBytes, h]; exact ⟨rfl, rfl⟩

/-- It keeps the canonical form and what every byte reads as. -/
theorem SameBytes.wf {s t : State} (h : SameBytes s t) (w : Memory.wf s.hbm = true) : Memory.wf t.hbm = true := by
  simpa only [Memory.wf, h.1, h.2] using w
theorem SameBytes.byte {s t : State} (h : SameBytes s t) (a : Nat) : t.hbm.byte a = s.hbm.byte a := by
  simp only [Hbm.byte, h.1, h.2]

theorem forEach_same {α : Type} (f : α → State → State) (hf : ∀ x s, SameBytes s (f x s)) (xs : List α) (s : State) :
    SameBytes s (forEach xs f s) := by
  induction xs generalizing s with
  | nil => exact SameBytes.refl _
  | cons x t ih => exact (hf x s).trans (ih (f x s))

theorem foldl_same {α β : Type} (f : β × State → α → β × State) (hf : ∀ p x, SameBytes p.2 (f p x).2) (xs : List α) (p : β × State) :
    SameBytes p.2 (xs.foldl f p).2 := by
  induction xs generalizing p with
  | nil => exact SameBytes.refl _
  | cons x t ih => exact (hf p x).trans (ih (f p x))

/-- Operations that leave HBM as it is. -/
@[simp] theorem sendMsix_hbm (fn vec : Nat) (s : State) : (sendMsix fn vec s).hbm = s.hbm := by
  unfold sendMsix
  repeat' split
  all_goals rfl

@[simp] theorem sendEvent_hbm (s : State) : (sendEvent s).hbm = s.hbm := by
  unfold sendEvent
  dsimp only
  split
  · exact sendMsix_hbm _ _ _
  · rfl

@[simp] theorem setEvent_hbm (p : Page) (j e : Nat) (s : State) : (setEvent p j e s).hbm = s.hbm := by
  unfold setEvent
  dsimp only
  split
  · rw [sendEvent_hbm, setR_hbm]
  · exact setR_hbm _ _ _

@[simp] theorem logNow_hbm (p : Page) (j e : Nat) (n : Note) (s : State) : (logNow p j e n s).hbm = s.hbm := rfl

@[simp] theorem crossEvent_hbm (full : Bool) (f : Nat) (s : State) : (crossEvent full f s).hbm = s.hbm := by
  unfold crossEvent
  simp only
  repeat' split
  all_goals simp

@[simp] theorem crossOf_hbm (full : Bool) (p : Page) (s : State) : (crossOf full p s).hbm = s.hbm := by
  unfold crossOf
  split
  · rfl
  · exact crossEvent_hbm _ _ _

@[simp] theorem countEvent_hbm (p : Page) (a hi lo : Nat) (s : State) : (countEvent p a hi lo s).hbm = s.hbm := by
  unfold countEvent
  split
  · rfl
  · exact bump_hbm ..

@[simp] theorem raiseWith_hbm (full : Bool) (p : Page) (j e : Nat) (n : Note) (s : State) : (raiseWith full p j e n s).hbm = s.hbm := by
  simp [raiseWith]

@[simp] theorem raise_hbm (p : Page) (j e : Nat) (n : Note) (s : State) : (raise p j e n s).hbm = s.hbm := by
  simp [raise]

@[simp] theorem errLast_hbm (mc dpa cls : Nat) (s : State) : (errLast mc dpa cls s).hbm = s.hbm := rfl

@[simp] theorem startRepair_hbm (mc key : Nat) (ue : Bool) (s : State) : (startRepair mc key ue s).hbm = s.hbm := by
  unfold startRepair
  simp only
  split <;> rfl

@[simp] theorem noteCe_hbm (mc cw : Nat) (s : State) : (noteCe mc cw s).hbm = s.hbm := by
  unfold noteCe
  simp

@[simp] theorem memCe_hbm (mc cw : Nat) (s : State) : (memCe mc cw s).hbm = s.hbm := by
  unfold memCe
  simp only
  split <;> simp

@[simp] theorem memUe_hbm (mc cw : Nat) (p : Bool) (s : State) : (memUe mc cw p s).hbm = s.hbm := by
  unfold memUe
  simp

@[simp] theorem answerBusy_hbm (dpa : Nat) (s : State) : (answerBusy dpa s).hbm = s.hbm := by
  unfold answerBusy
  simp

@[simp] theorem mapAdd_hbm (e : Nat) (s : State) : (mapAdd e s).hbm = s.hbm := by
  unfold mapAdd
  split <;> simp [mapChanged]

@[simp] theorem putLines_hbm (dpa : Nat) (ls : List Line) (s : State) : (putLines dpa ls s).hbm = s.hbm := rfl
@[simp] theorem dropLine_hbm (dpa : Nat) (s : State) : (dropLine dpa s).hbm = s.hbm := rfl
@[simp] theorem useLine_hbm (l : Line) (s : State) : (useLine l s).hbm = s.hbm := rfl
@[simp] theorem openPage_hbm (dpa : Nat) (s : State) : (openPage dpa s).hbm = s.hbm := rfl

@[simp] theorem lineCe_hbm (l : Line) (k : Nat) (s : State) : (lineCe l k s).hbm = s.hbm := by simp [lineCe]

/-! What a controller does to codewords, lines and repairs leaves every byte. -/

theorem injectError_same (row : Nat) (s : State) : SameBytes s (injectError row s) := by
  unfold injectError
  simp only
  split
  · exact ⟨rfl, rfl⟩
  · exact .refl _

theorem stackWrite_same (row : Nat) (keep : Nat → Bool) (s : State) : SameBytes s (stackWrite row keep s) :=
  .trans ⟨rfl, rfl⟩ (injectError_same _ _)

theorem withBad_same (b : Tab CwErr) (s : State) : SameBytes s { s with hbm := { s.hbm with bad := b } } := ⟨rfl, rfl⟩

theorem poisonRow_same (row : Nat) (s : State) : SameBytes s (poisonRow row s) := by
  unfold poisonRow
  generalize List.foldl _ _ _ = b
  exact (withBad_same b s).trans (injectError_same _ _)

theorem checkRow_same (row : Nat) (back : Bool) (s : State) : SameBytes s (checkRow row back s) := by
  unfold checkRow
  simp only
  generalize hs : forEach _ _ s = u
  have hu : SameBytes s u := by
    rw [← hs]
    refine forEach_same _ (fun x t => ?_) _ _
    refine .trans (withBad_same (tabErase t.hbm.bad x.1) t) (.of_hbm ?_)
    exact memCe_hbm _ _ _
  have hv : ∀ (p : Prop) [Decidable p], SameBytes s (if p then injectError row u else u) := by
    intro p _
    split
    · exact hu.trans (injectError_same _ _)
    · exact hu
  split
  · exact hv _
  · exact (hv _).trans (.of_hbm (memUe_hbm _ _ _ _))

theorem noteCes_same (mc : Nat) (found : List (Nat × CwErr)) (s : State) : SameBytes s (forEach found (fun p s =>
    noteCe mc p.1 { s with hbm := { s.hbm with bad := tabErase s.hbm.bad p.1 } }) s) := by
  refine forEach_same _ (fun x t => ?_) _ _
  refine .trans (withBad_same (tabErase t.hbm.bad x.1) t) (.of_hbm ?_)
  exact noteCe_hbm _ _ _

theorem copyDram_same (mc key : Nat) (s : State) : SameBytes s (copyDram mc key s) :=
  forEach_same _ (fun _ _ => .trans (noteCes_same _ _ _) (stackWrite_same _ _ _)) _ _

theorem awaitRepair_same (dpa : Nat) (s : State) : SameBytes s (awaitRepair dpa s) :=
  forEach_same _ (fun _ _ => copyDram_same _ _ _) _ _

theorem lineCe_same (l : Line) (k : Nat) (s : State) : SameBytes s (lineCe l k s) := SameBytes.of_hbm (lineCe_hbm l k s)

theorem dropLine_same (dpa : Nat) (s : State) : SameBytes s (dropLine dpa s) := SameBytes.of_hbm (dropLine_hbm dpa s)

theorem correctLine_same (l : Line) (s : State) : SameBytes s (correctLine l s) := by
  unfold correctLine
  generalize l.errs.filter _ = ks
  refine forEach_same _ (fun p t => ?_) ks s
  exact lineCe_same l p.1 t

theorem spillLine_same (l : Line) (s : State) : SameBytes s (spillLine l s) := by
  unfold spillLine
  simp only
  have h : SameBytes s (dropLine (512 * l.row) (correctLine l s)) := (correctLine_same l s).trans (dropLine_same _ (correctLine l s))
  generalize dropLine (512 * l.row) (correctLine l s) = t at h ⊢
  split
  · exact h
  · split
    · exact h.trans (poisonRow_same _ _)
    · generalize List.foldl _ _ _ = b
      exact h.trans ((withBad_same b t).trans (stackWrite_same _ _ _))

theorem dropWay_same (mc w : Nat) (s : State) : SameBytes s (dropWay mc w s) := .of_hbm (by simp [dropWay])

theorem reserveWay_same (mc slice fuel : Nat) (s : State) : SameBytes s (reserveWay mc slice fuel s) := by
  induction fuel generalizing s with
  | zero => exact .refl _
  | succ n ih =>
    unfold reserveWay
    split
    · exact .refl _
    · rename_i k _
      refine (forEach_same _ spillLine_same (wayLines s mc slice k) s).trans ?_
      dsimp only
      split
      · exact (dropWay_same _ _ _).trans (ih _)
      · exact .refl _

theorem retireWay_same (mc w : Nat) (s : State) : SameBytes s (retireWay mc w s) :=
  (forEach_same _ spillLine_same _ s).trans ((dropWay_same _ _ _).trans (reserveWay_same _ _ _ _))

theorem judgeWay_same (l : Line) (s : State) : SameBytes s (judgeWay l s) := by
  unfold judgeWay
  split
  · exact retireWay_same _ _ _
  · exact .refl _

theorem insertLine_same (al : Alloc) (dpa : Nat) (dirty : Bool) (errs : Tab CwErr) (s : State) :
    SameBytes s (insertLine al dpa dirty errs s) := by
  unfold insertLine
  simp only
  split
  · exact .of_hbm rfl
  · split
    · exact spillLine_same _ _
    · rename_i v _
      exact (SameBytes.of_hbm (takeFree_hbm s)).trans ((spillLine_same v _).trans (.trans (.of_hbm rfl) (judgeWay_same v _)))

theorem reserveWays_same (s : State) : SameBytes s (reserveWays s) := by
  exact forEach_same _ (fun _ _ => forEach_same _ (fun _ _ => reserveWay_same _ _ _ _) _ _) _ _

theorem flushCaches_same (s : State) : SameBytes s (flushCaches s) := by
  refine forEach_same _ (fun _ _ => forEach_same _ (fun l t => ?_) _ _) _ _
  split
  · exact (spillLine_same l t).trans (judgeWay_same _ _)
  · exact .refl _

theorem settleLine_same (dpa : Nat) (s : State) : SameBytes s (settleLine dpa s) := by
  unfold settleLine
  split
  · exact .refl _
  · simp only
    split
    · exact .refl _
    · split
      · exact (spillLine_same _ _).trans (judgeWay_same _ _)
      · rename_i l _ _ _
        exact (correctLine_same l s).trans (SameBytes.trans (SameBytes.of_hbm (putLines_hbm _ _ _)) (judgeWay_same l _))

theorem readRowAt_same (al : Alloc) (row : Nat) (s : State) : SameBytes s (readRowAt al row s).2 := by
  unfold readRowAt
  simp only
  generalize hs : settleLine row (awaitRepair row s) = u
  have hu : SameBytes s u := hs ▸ (awaitRepair_same _ _).trans (settleLine_same _ _)
  refine hu.trans ?_
  split
  · repeat' split
    all_goals exact .of_hbm (by simp)
  · generalize stackBad _ _ = bad
    generalize hv : checkRow row true _ = v
    have : SameBytes u v := by
      rw [← hv]
      refine .trans (.of_hbm ?_) (checkRow_same _ _ _)
      split <;> simp
    split
    · exact this.trans (.trans (.of_hbm rfl) (insertLine_same _ _ _ _ _))
    · exact this.trans (.of_hbm rfl)

theorem writeRowAt_same (al : Alloc) (a n : Nat) (s : State) : SameBytes s (writeRowAt al a n s) := by
  unfold writeRowAt
  simp only
  refine (awaitRepair_same (a / 512 * 512) s).trans ?_
  generalize awaitRepair (a / 512 * 512) s = t
  generalize hu : (if n = 512 then t else settleLine (a / 512 * 512) t) = u
  have hu : SameBytes t u := by
    rw [← hu]
    split
    · exact .refl _
    · exact settleLine_same _ _
  refine hu.trans ?_
  split
  · split
    all_goals exact .of_hbm (by simp)
  · generalize hw : (if (mscMode u (mcOf (a / 512 * 512)) == 1) = true then addPair (regAt .memctl (mcOf (a / 512 * 512)) 0x60) 1 u else u) = w
    have hw : SameBytes u w := by
      rw [← hw]
      split <;> exact .of_hbm (by simp)
    generalize hv : (if n = 512 then w else _) = v
    have : SameBytes u v := by
      rw [← hv]
      split
      · exact hw
      · exact hw.trans (.trans (.of_hbm (openPage_hbm _ w)) (checkRow_same _ _ _))
    split
    · exact this.trans (insertLine_same _ _ _ _ _)
    · exact this.trans (stackWrite_same _ _ _)

theorem serveReads_same (row : Nat) (s : State) : SameBytes s (serveReads row s) := by
  unfold serveReads
  split
  · exact .refl _
  · rename_i x _
    exact (readRowAt_same (xferAlloc x) row s).trans ⟨rfl, rfl⟩

theorem readsFirst_same (lo hi : Nat) (s : State) : SameBytes s (readsFirst lo hi s) := forEach_same _ serveReads_same _ _

theorem leaveTag_same (x : Xfer) (s : State) : SameBytes s (leaveTag x s) := by
  unfold leaveTag
  simp only
  split
  · exact ⟨rfl, rfl⟩
  · exact (serveReads_same x.place s).trans ⟨rfl, rfl⟩

theorem comeToBank_same (dpa : Nat) (s : State) : SameBytes s (comeToBank dpa s) := by
  unfold comeToBank
  simp only
  generalize hu : (if bankFull s dpa = true then answerBusy dpa s else s) = u
  have h : SameBytes s u := by
    rw [← hu]
    split
    · exact .of_hbm (answerBusy_hbm _ _)
    · exact .refl _
  split
  · split
    · exact h.trans (leaveTag_same _ _)
    · exact h
  · exact h

/-- A read leaves every byte. -/
theorem memReadAs_same (al : Alloc) (a n : Nat) (s : State) : SameBytes s (memReadAs al a n s).2 := by
  unfold memReadAs
  simp only
  generalize hr : List.foldl _ _ _ = r
  have h : SameBytes s r.2 := by
    rw [← hr]
    refine foldl_same _ (fun p x => ?_) _ (none, s)
    generalize hb : comeToBank (x.1 / 512 * 512) p.2 = t
    have hs : SameBytes p.2 t := hb ▸ comeToBank_same (x.1 / 512 * 512) p.2
    have hq := readRowAt_same al (x.1 / 512 * 512) t
    generalize readRowAt al (x.1 / 512 * 512) t = q at hq ⊢
    exact hs.trans hq
  exact h

theorem memRead_same (a n : Nat) (s : State) : SameBytes s (memRead a n s).2 := by
  have h := memReadAs_same .usual a n s
  unfold memRead
  generalize memReadAs .usual a n s = p at h ⊢
  exact h

/-- A write is a write of HBM over a state with the same bytes. -/
theorem memWriteAs_bytes (al : Alloc) (a : Nat) (data : List Byte) (s : State) :
    ∃ u, SameBytes s u ∧ (memWriteAs al a data s).hbm = u.hbm.write a data :=
  ⟨_, (readsFirst_same _ _ _).trans (forEach_same _ (fun _ _ => writeRowAt_same _ _ _ _) _ _), rfl⟩

theorem memWrite_bytes (a : Nat) (data : List Byte) (s : State) :
    ∃ u, SameBytes s u ∧ (memWrite a data s).hbm = u.hbm.write a data := by
  obtain ⟨u, hu, h⟩ := memWriteAs_bytes .usual a data (forEach (pieces 512 a data.length) (fun p s => comeToBank (p.1 / 512 * 512) s) s)
  exact ⟨u, (forEach_same _ (fun _ _ => comeToBank_same _ _) _ _).trans hu, h⟩

theorem bypassRows_same (lo hi : Nat) (s : State) : SameBytes s (bypassRows lo hi s) :=
  .trans ⟨rfl, rfl⟩ (forEach_same _ injectError_same _ _)

theorem writeBulk_same (lo hi : Nat) (s : State) : SameBytes s (writeBulk lo hi s) := by
  unfold writeBulk
  simp only
  refine (readsFirst_same lo hi s).trans ?_
  generalize readsFirst lo hi s = u
  split
  · exact .refl _
  split
  · refine (bypassRows_same lo hi u).trans ?_
    split
    · exact .refl _
    · exact forEach_same _ (fun _ _ => writeRowAt_same _ _ _ _) _ _
  · exact forEach_same _ (fun _ _ => (comeToBank_same _ _).trans (writeRowAt_same _ _ _ _)) _ _

/-- A read, a write, zeros and open contents keep the form. -/
theorem memRead_wf (a n : Nat) (s : State) (w : Memory.wf s.hbm = true) : Memory.wf (memRead a n s).2.hbm = true :=
  (memRead_same a n s).wf w

theorem memWrite_wf (a : Nat) (data : List Byte) (s : State) (w : Memory.wf s.hbm = true) : Memory.wf (memWrite a data s).hbm = true := by
  obtain ⟨u, hu, h⟩ := memWrite_bytes a data s
  rw [h]
  exact hbm_write_wf _ _ _ (hu.wf w)

theorem memZero_wf (a n : Nat) (s : State) (w : Memory.wf s.hbm = true) : Memory.wf (memZero a n s).hbm = true :=
  hbm_zero_wf _ _ _ ((writeBulk_same _ _ _).wf w)

theorem memBlur_wf (a n : Nat) (s : State) (w : Memory.wf s.hbm = true) : Memory.wf (memBlur a n s).hbm = true :=
  hbm_blur_wf _ _ _ _ (((writeBulk_same _ _ _).trans (forEach_same _ (fun _ _ => (readsFirst_same _ _ _).trans
    ((comeToBank_same _ _).trans (writeRowAt_same _ _ _ _))) _ _)).wf w)

/-- Reset memory has the form. -/
theorem reset_memory_wf : Memory.wf State.reset.hbm = true := rfl

/-! ## What a read gives after a write -/

theorem lookCell_append (a : Nat) (d : Byte) (xs ys : List Host.Cell) :
    lookCell a d (xs ++ ys) = lookCell a (lookCell a d ys) xs := by
  induction xs with
  | nil => rfl
  | cons p t ih =>
    obtain ⟨k, v⟩ := p
    simp only [List.cons_append, lookCell, ih]

theorem lookCell_none (a : Nat) (d : Byte) (xs : List Host.Cell) (h : ∀ p ∈ xs, p.1 ≠ a) : lookCell a d xs = d := by
  induction xs with
  | nil => rfl
  | cons p t ih =>
    obtain ⟨k, v⟩ := p
    have := h (k, v) List.mem_cons_self
    simp only [lookCell, if_neg (show ¬ k = a from this)]
    exact ih (fun q hq => h q (List.mem_cons_of_mem _ hq))

theorem lookCell_filter (a : Nat) (d : Byte) (xs : List Host.Cell) (f : Host.Cell → Bool) (h : ∀ p ∈ xs, p.1 = a → f p = true) :
    lookCell a d (xs.filter f) = lookCell a d xs := by
  induction xs with
  | nil => rfl
  | cons p t ih =>
    obtain ⟨k, v⟩ := p
    have ht := ih (fun q hq => h q (List.mem_cons_of_mem _ hq))
    by_cases hf : f (k, v)
    · simp only [List.filter_cons_of_pos hf, lookCell, ht]
    · have : k ≠ a := fun e => hf (h (k, v) List.mem_cons_self e)
      simp only [List.filter_cons_of_neg hf, lookCell, if_neg this, ht]

theorem freshCells_from (fills : List Fill) (a : Nat) (data : List Byte) : ∀ p ∈ freshCells fills a data, a ≤ p.1 := by
  induction data generalizing a with
  | nil => intro p hp; simp [freshCells] at hp
  | cons b t ih =>
    intro p hp
    unfold freshCells at hp
    split at hp
    · have := ih (a + 1) p hp
      omega
    · rcases List.mem_cons.mp hp with rfl | hp
      · exact le_refl _
      · have := ih (a + 1) p hp
        omega

/-- A splice leaves every byte outside its range. -/
theorem lookCell_splice_other (cells mid : List Host.Cell) (a n b : Nat) (d : Byte) (hm : ∀ p ∈ mid, a ≤ p.1 ∧ p.1 < a + n)
    (hb : b < a ∨ a + n ≤ b) : lookCell b d (spliceCells cells a n mid) = lookCell b d cells := by
  have hmid : ∀ e, lookCell b e mid = e := fun e => lookCell_none b e mid (fun p hp e => by have := hm p hp; omega)
  simp only [spliceCells, lookCell_append, hmid]
  rcases hb with hb | hb
  · rw [lookCell_none b d (cells.filter (fun c => decide (a + n ≤ c.1))),
      lookCell_filter b d cells _ (fun p _ e => by simp [e, hb])]
    intro p hp e
    have := (List.mem_filter.mp hp).2
    simp at this
    omega
  · rw [lookCell_filter b d cells (fun c => decide (a + n ≤ c.1)) (fun p _ e => by simp [e, hb]),
      lookCell_none b _ (cells.filter (fun c => decide (c.1 < a)))]
    intro p hp e
    have := (List.mem_filter.mp hp).2
    simp at this
    omega

/-- A write leaves every byte outside its range. -/
theorem hbm_write_other (h : Hbm) (a b : Nat) (data : List Byte) (hb : b < a ∨ a + data.length ≤ b) :
    (h.write a data).byte b = h.byte b :=
  lookCell_splice_other _ _ _ _ _ _ (fun p hp => ⟨freshCells_from _ _ _ p hp, freshCells_below _ _ _ p hp⟩) hb

theorem lookCell_fresh (fills : List Fill) (a i : Nat) (data : List Byte) (h : i < data.length) (d : Byte)
    (hd : d = hbmFill fills (a + i)) : lookCell (a + i) d (freshCells fills a data) = data[i] := by
  induction data generalizing a i with
  | nil => simp at h
  | cons b t ih =>
    unfold freshCells
    cases i with
    | zero =>
      split
      · rename_i hb
        rw [lookCell_none]
        · simpa [hb] using hd
        · intro p hp e
          have := freshCells_from fills (a + 1) t p hp
          omega
      · simp [lookCell]
    | succ i =>
      have hi : i < t.length := by simpa using h
      have e : a + (i + 1) = a + 1 + i := by omega
      have := ih (a + 1) i hi (by rw [hd, e])
      split
      · rw [e, this]
        rfl
      · have hne : ¬ a = a + (i + 1) := by omega
        simp only [lookCell, if_neg hne]
        rw [e, this]
        rfl

/-- A write is read back. -/
theorem hbm_write_self (h : Hbm) (a i : Nat) (data : List Byte) (hi : i < data.length) : (h.write a data).byte (a + i) = data[i] := by
  simp only [Hbm.byte, Hbm.write, spliceCells, lookCell_append]
  rw [lookCell_none (a + i) _ (h.cells.filter (fun c => decide (a + data.length ≤ c.1)))]
  · rw [lookCell_none (a + i) _ (h.cells.filter (fun c => decide (c.1 < a)))]
    · exact lookCell_fresh _ _ _ _ hi _ rfl
    · intro p hp e
      have := (List.mem_filter.mp hp).2
      simp at this
      omega
  · intro p hp e
    have := (List.mem_filter.mp hp).2
    simp at this
    omega

/-- A write through the controllers leaves every byte outside its range, and its bytes are read back. -/
theorem memWrite_other (a b : Nat) (data : List Byte) (s : State) (hb : b < a ∨ a + data.length ≤ b) :
    (memWrite a data s).hbm.byte b = s.hbm.byte b := by
  obtain ⟨u, hu, h⟩ := memWrite_bytes a data s
  rw [h, hbm_write_other _ _ _ _ hb, hu.byte]

theorem memWrite_self (a i : Nat) (data : List Byte) (s : State) (hi : i < data.length) :
    (memWrite a data s).hbm.byte (a + i) = data[i] := by
  obtain ⟨u, _, h⟩ := memWrite_bytes a data s
  rw [h, hbm_write_self _ _ _ _ hi]

end Sys2Proof.Machine
end

