-- ==== Sys2Proof/Laws/Ports.lean ====
section
/-! SUPPORT. What announcing can do to the state (R271). -/

namespace Sys2Proof.Machine

/-- Announcing puts one pattern on the lanes, or nothing. -/
theorem announce_cases (p : Nat) (s : State) :
    ((getPort s p).st = .detect ∧ announce p s = { s with outs := .train p 3 511 :: s.outs }) ∨
    ((getPort s p).st ≠ .detect ∧ announce p s = s) := by
  by_cases h : (getPort s p).st = .detect
  · exact .inl ⟨h, by simp [announce, h, emit]⟩
  · exact .inr ⟨h, by simp [announce, h]⟩

@[simp] theorem announce_ports (p : Nat) (s : State) : (announce p s).ports = s.ports := by
  rcases announce_cases p s with ⟨_, h⟩ | ⟨_, h⟩ <;> rw [h]

@[simp] theorem announce_getPort (p q : Nat) (s : State) : getPort (announce p s) q = getPort s q := by
  simp [getPort]

end Sys2Proof.Machine
end

