-- ==== Sys2Proof/Tests/Slice0.lean ====
section
/-! SUPPORT. Tests: ill-formed terms refused, known answers of the spec, and for each statement a state and operands that meet its
hypotheses, with what the command does there. -/

namespace Sys2Proof.Tests

open Sys2Proof Sys2Proof.Machine

-- one theorem after another: the kernel evaluations side by side would need a thread each
set_option Elab.async false

/-! ## Ill-formed terms: one for each check of WellFormed -/

theorem test_aligned_word_is_not_narrow : WellFormed (.narrowAccess 0 0x40 4 false) = false := by decide
theorem test_aligned_pair_is_not_narrow : WellFormed (.narrowAccess 0 0x40 8 true) = false := by decide
theorem test_empty_access_is_not_narrow : WellFormed (.narrowAccess 0 0x41 0 true) = false := by decide
theorem test_narrow_terms : WellFormed (.narrowAccess 0 0x41 4 false) = true ∧ WellFormed (.narrowAccess 0 0x44 8 true) = true ∧
    WellFormed (.narrowAccess 0 0x40 1 true) = true := by decide
theorem test_empty_bar2_read_is_ill_formed : WellFormed (.bar2Read 0 0 0) = false ∧ WellFormed (.bar2Read 0 0 1) = true := by decide
theorem test_empty_bar2_write_is_ill_formed : WellFormed (.bar2Write 0 0 []) = false ∧ WellFormed (.bar2Write 0 0 [0]) = true := by decide
theorem test_ill_formed_stops : exec (.bar2Read 0 0 0) State.reset = .fault .illFormed := rfl

/-! ## Known answers of the spec -/

/-- R184, known answer table: seed 0, layer 0, tensor 0, step 0. -/
theorem test_spatter_known_answer : philox10 0 0 0 0 0 0 = [0x6627E8D5, 0xE169C58D, 0xBC57AC4C, 0x9B00DBD8] := by decide +kernel

/-- Chapter 01, worked example: logical nib 695 stands at (15, 25) and is physical nib 738 without a transplant. -/
theorem test_nib_placing : routerOf 695 = 32 * 25 + 15 ∧ physOf State.reset 695 = 738 := by decide +kernel

/-- `n` hops of a flit. -/
def hops : Nat → Nat → Nat → Nat → Nat
  | 0, _, a, _ => a
  | n + 1, p, a, d => hops n p (nextRouter p a d) d

/-- Chapter 01, worked example: on plane A 16 hops lead from (15, 25) to (31, 25) and 32 to (31, 9). -/
theorem test_request_path : hops 16 0 (32 * 25 + 15) (32 * 9 + 31) = 32 * 25 + 31 ∧
    hops 32 0 (32 * 25 + 15) (32 * 9 + 31) = 32 * 9 + 31 := by decide +kernel

/-- Chapter 08, worked example: DPA 0x61_A812_5200 is MC1's local 0xC_3502_5200, at edge stop (4, 0). -/
theorem test_row_placement : mcOf 0x61A8125200 = 1 ∧ localOf 0x61A8125200 = 0xC35025200 ∧ dpaOf 1 0xC35025200 = 0x61A8125200 ∧
    edgeRouter 0x61A8125200 = 4 := by decide +kernel

/-- Chapter 07, worked example: the words of the MMA and of REG0. -/
theorem test_mma_fields : (let i := Mma.ofWord (0x8043C940 + 2 ^ 32 * 0x32000600 + 2 ^ 96 * 0x00840000)
    i.afmt = 1 ∧ i.wfmt = 1 ∧ i.amask = 15 ∧ i.m = 16 ∧ i.acc = 0 ∧ i.clr = true ∧ i.anchor = 6 ∧ i.aRow = 3200 ∧ i.tag0 = (2, true)) ∧
    regionFirst 0x80E7FC80 = 3200 ∧ regionLast 0x80E7FC80 = 3711 ∧ regionMode 0x80E7FC80 = 0 ∧ regionValid 0x80E7FC80 = true := by
  decide +kernel

/-- Chapter 07, worked example: bytes 0 and 1 of a header are TOTAL 2,500, bytes 14 and 15 ROWCNT[5] 1,900. -/
theorem test_sparse_header : (sparseHead (BitVec.ofNat 4096 (0x09C4 + 2 ^ 112 * 0x076C))).total = 2500 ∧
    (sparseHead (BitVec.ofNat 4096 (0x09C4 + 2 ^ 112 * 0x076C))).cnt.getD 5 0 = 1900 := by decide +kernel

/-- Chapter 02, worked example: 12.5, −4.63, 8.0, 0.61 in BS8. -/
theorem test_bs8_block : toBlock false [(.fin false 25 (-1), .ne), (.fin true 4854907 (-20), .ne), (.fin false 8 0, .ne),
    (.fin false 639632 (-20), .ne)] = ⟨130, [0x64, 0xDB, 0x40, 0x05], false, false⟩ := by decide +kernel

/-- Chapter 02, worked example: −9,000 × 2⁻¹¹ at anchor 3 adds −9,663,676,416,000, and the sum reads 0xC0BD_0800 in FP32. -/
theorem test_anchored_product : (termOfProduct 3 (blockElem false 0x64 0x82) (blockElem false 0xA6 0x7D)).v = -9663676416000 ∧
    (readEntry (some .fp32) false .ne 3 (-12990128586752) false false).bits = 0xC0BD0800 ∧ sumTop 3 (-12990128586752) = 2 := by
  decide +kernel

/-- SHAKE256 of the empty message begins 46 B9 DD 2B (FIPS 202). -/
theorem test_shake256_empty : (shake256 []).take 4 = [0x46, 0xB9, 0xDD, 0x2B] := by decide +kernel

/-- Chapter 16: the ID of the MEMCTL page of MC5. -/
theorem test_memctl_id : wordAt State.reset (regAt .memctl 5 0) = 0x34010518 := by decide +kernel

/-- Chapter 16, worked example: 592 stream bytes; record 53 is MC_CFG of MC5 with 0x101. -/
theorem test_stream : (streamBytes State.reset).length = 592 ∧
    ((streamBytes (setR (regAt .memctl 5 0x40) 0x101 State.reset)).drop 416).take 8 = [0x40, 0x50, 2, 0, 1, 1, 0, 0] := by decide +kernel

/-! ## States that the tests share -/

/-- The state that a command answers. -/
def ans (c : Instr) (s : State) : State := match exec c s with
  | .next t => t
  | _ => s

/-- The machine in RUN, with the repair map applied and the chip powered. -/
def runs (s : State) : State :=
  { s with
    boot := { s.boot with st := .run, mapReady := true, linkReady := true, fclk := true, mclk := true, pclk := true },
    power := { s.power with modEn := true, mainUp := true, pwrgd := true, perst := false } }

/-- A record for one grove: GRID 40, REPLAY 1, no Litter, circle or prediction. -/
def rec0 : Record := { parseRecord 0x1000 [] with grid := 40, energy := 1, plotMin := 1, plotMax := 1, replay := true }

/-- Context 0 with this state, on grove 0, which is awake. -/
def onGrove (x : Ctx) (s : State) : State :=
  setCtx 0 { x with plot := [0], slot := some 0 } { s with groves := vset s.groves 0 { Grove.cold with pw := .awake, owner := some 0 } }

/-- A layer of context 0 that runs on grove 0. -/
def layer (s : State) : State := onGrove { Ctx.free with st := .running, phase := .running, record := some rec0 } (runs s)

/-- Nib 0 as given, its layer running. -/
def nibS (n : Nib) : State := setNib 0 n (layer State.reset)

/-- A nib whose core stands at the instruction `w`. -/
def coreAt (w : Nat) (regs : Tab Word32) : Nib :=
  { Nib.cold with quill := { Quill.cold with imem := [(0, BitVec.ofNat 32 w)], run := .running, sregs := regs } }

/-- A Quill instruction word (R156): OP, RD, RA, RB, and what stands above. -/
def quillWord (op rd ra rb fn : Nat) : Nat := op + 2 ^ 7 * rd + 2 ^ 12 * ra + 2 ^ 17 * rb + 2 ^ 22 * fn

/-! ## The block and its registers -/

theorem witness_StepRunsFrontCommand : { State.reset with pending := [.powerOn, .arm] }.pending = .powerOn :: [.arm] ∧
    State.reset.pending = [] := ⟨rfl, rfl⟩

theorem test_step_takes_the_front : step { State.reset with pending := [.modEnAssert, .arm] } =
    .next { State.reset with pending := [.arm], power := { Power.cold with modEn := true } } := rfl

theorem witness_MemoryFormIsInvariant : MemoryOk (runs State.reset) ∧ Memory.wf ⟨[⟨5, 1⟩], [], [], []⟩ = true ∧
    step State.reset = .next State.reset :=
  ⟨show Memory.wf _ = true by decide, by decide, rfl⟩

theorem witness_QueueAndFusesAreKept : Spec.Answers .modEnAssert State.reset { State.reset with power := { Power.cold with modEn := true } } := rfl

theorem witness_NarrowAccess : (0x41 : BitVec 28).toNat % 4 ≠ 0 ∧ (0x44 : BitVec 28).toNat % 8 ≠ 0 ∧ 0 < 1 ∧ 1 < 4 ∧ (0x40 : BitVec 28).toNat % 4 = 0 := by
  decide

theorem witness_WellFormedCommandsComplete_wide : 4 < 16 ∧ 16 ≠ 8 ∧ (0x40 : BitVec 28).toNat % 16 = 0 := by decide

theorem test_narrow_read : (ans (.narrowAccess 0 0x41 4 false) State.reset).outs = [.bar0 0 0x41 0xFFFFFFFF] := by decide +kernel

/-- A word with RWL fields in HELD, and one with RW fields in RUN. -/
theorem witness_RegisterWriteStores :
    pageAt (regAt .ranger 0 0x48) = some (.ranger, 0) ∧ Spec.plainReg .ranger 0x48 = true ∧
    regInfo .ranger 0x48 = some ⟨0x48, 0, 0x1F, 0, 0, 0, 0⟩ ∧ State.reset.boot.st = .held ∧
    pageAt (regAt .seedbank 0 0x54) = some (.seedbank, 0) ∧ Spec.plainReg .seedbank 0x54 = true ∧
    regInfo .seedbank 0x54 = some ⟨0x54, 0x7FF, 0, 0, 0, 0, 0⟩ ∧ (runs State.reset).boot.st = .run := by decide +kernel

/-- FAST_XING in HELD takes the crossings out of service mode. -/
theorem test_fast_xing : State.reset.boot.service = true ∧
    (ans (.registerWrite 0 (Spec.pf (regAt .understory 0 0x4C)) 1) State.reset).boot.service = false := by decide +kernel

/-- Function 1 is present; context 5 is not its own; its page's register and the ends of what it reaches. -/
theorem witness_RegisterWriteStores_vf : bit ({ State.reset with boot := { Boot.held with vfEn := 2 } } : State).boot.vfEn 1 = true ∧
    ctxFunc State.reset 5 ≠ 1 ∧ tabWf (0 : Word32) State.reset.regs = true ∧ (0x10_1400 : BitVec 28).toNat = 0x10_1400 ∧
    (0x5050 : BitVec 28).toNat / 0x1000 = 5 := by decide +kernel

/-- Window 3 of function 1: its pair comes into effect with the high word. -/
theorem test_vf_window : (let s : State := { State.reset with boot := { Boot.held with vfEn := 2 } }
    let t := ans (.registerWrite 1 (Spec.pf 0x100058) 0xFFFFFFFF) s
    getR t (regAt .vfunc 1 0x58) = 0xFFE00001 ∧ cfgPair t (regAt .vfunc 1 0x58) = 0 ∧
    cfgPair (ans (.registerWrite 1 (Spec.pf 0x10005C) 2) t) (regAt .vfunc 1 0x58) = 0x2FFE00001 ∧
    ans (.registerWrite 1 (Spec.pf 0x5050) 2) s = s) := by decide +kernel

theorem test_register_write : ans (.registerWrite 0 (Spec.pf (regAt .ranger 0 0x48)) 0xFFFFFFE5) State.reset =
    Spec.wrote (regAt .ranger 0 0x48) 5 State.reset ∧
    ans (.registerWrite 0 (Spec.pf (regAt .seedbank 0 0x54)) 0xFFFF) (runs State.reset) =
      Spec.wrote (regAt .seedbank 0 0x54) 0x7FF (runs State.reset) := by decide +kernel

/-- An offset without a register, and a register with reserved bits. -/
theorem witness_ReservedReadsZero : pageAt (regAt .boot 0 0xFFC) = some (.boot, 0) ∧ regInfo .boot 0xFFC = none ∧
    pageAt (regAt .boot 0 0x18) = some (.boot, 0) ∧ regInfo .boot 0x18 = none ∧
    regInfo .ranger 0x48 = some ⟨0x48, 0, 0x1F, 0, 0, 0, 0⟩ := by decide +kernel

/-- UCLK_COUNT's low word. -/
theorem witness_LowWordLatchesHigh : regAt .understory 0 0x40 + 4 < 2 ^ 28 ∧ regAt .understory 0 0x40 % 4 = 0 ∧
    isRoLow (regAt .understory 0 0x40) = true := by decide +kernel

theorem test_pair_read : tabFind? (ans (.lowWordRead 0 (Spec.pf (regAt .ranger 0 0x5C))) State.reset).latches 0 =
    if isRoLow (regAt .ranger 0 0x5C) then some (regAt .ranger 0 0x5C, 0) else none := by decide +kernel

/-- RJCT_COUNT of the BOOT page. -/
theorem witness_CounterReadClears : pageAt (regAt .boot 0 0x70) = some (.boot, 0) ∧
    regInfo .boot 0x70 = some ⟨0x70, 0, 0, 0, 0, 0xFFFFFFFF, 0⟩ ∧ tabWf (0 : Word32) [(regAt .boot 0 0x70, 7)] = true := by
  decide +kernel

theorem test_counter_read : (let t := ans (.counterRead 0 (Spec.pf (regAt .boot 0 0x70)) 3) (setR (regAt .boot 0 0x70) 7 State.reset)
    t.outs = [.bar0 0 (regAt .boot 0 0x70) 7] ∧ getR t (regAt .boot 0 0x70) = 3) := by decide +kernel

theorem witness_EventClear : pageAt (regAt .seedbank 0 0x10) = some (.seedbank, 0) ∧
    tabWf (0 : Word32) (setR (regAt .seedbank 0 0x10) 0x29 State.reset).regs = true := by decide +kernel

theorem test_event_clear : getR (ans (.eventClear (Spec.pf (regAt .seedbank 0 0x10)) 0x21 1)
    (setR (regAt .seedbank 0 0x10) 0x29 State.reset)) (regAt .seedbank 0 0x10) = 9 := by decide +kernel

/-- RUN with vector 3 for page events, unmasked, and event 0 of the SEEDBANK page set. -/
def evS : State :=
  { setR (vecControl 0 3) 1 (setR (regAt .seedbank 0 0x10) 1 (setR (regAt .pcie 0 0x44) 0x43 (runs State.reset))) with msix := [(0, ⟨4, 0x803F, 8⟩)] }

theorem witness_EventMessages_enable : pageAt (regAt .seedbank 0 0x14) = some (.seedbank, 0) ∧ tabWf (0 : Word32) evS.regs = true ∧
    (irqLive evS = true ∧ getF evS (regAt .pcie 0 0x44) 6 6 = 1 ∧ getF evS (regAt .pcie 0 0x44) 5 0 = 3 ∧ vecMasked evS 0 3 = false) ∧
    pend evS .seedbank 0 = false ∧ getR evS (regAt .seedbank 0 0x10) &&& (1 &&& pageCap .seedbank) ≠ 0 := by decide +kernel

theorem test_enable_sends : (ans (.eventEnWrite (Spec.pf (regAt .seedbank 0 0x14)) 1) evS).outs = [.msix 0 3] := by decide +kernel

/-- The page waits and EVT_EN is 0. -/
theorem witness_EventMessages_evtEn : (let s := setR (regAt .pcie 0 0x44) 0 (setR (regAt .seedbank 0 0x14) 1 evS)
    irqLive s = true ∧ bit (getR s (regAt .pcie 0 0x44)) 6 = false ∧ vecMasked s 0 3 = false ∧ tabWf (0 : Word32) s.regs = true ∧
    (ans (.evtEnSet 3) s).outs = [.msix 0 3]) := by decide +kernel

/-- A pending message of vector 3. -/
theorem witness_EventMessages_unmask : irqLive evS = true ∧ (getMsix evS 0).masked = false ∧ bit (getMsix evS 0).pba 3 = true ∧
    tabWf Msix.cold evS.msix = true ∧ (ans (.msixUnmask 0 (.entry 3)) evS).outs = [.msix 0 3] := by decide +kernel

/-- Vector 3 masked by its entry, which EVT_EN uses; function 1 present with vector 9 pending. -/
def evMaskedS : State := setR (vecControl 0 3) 0 evS

def evVfS : State :=
  let s := setR (vecControl 1 9) 1 (runs State.reset)
  { s with msix := [(1, ⟨4, 0x803F, 2 ^ 9⟩)], boot := { s.boot with vfEn := 2 } }

theorem witness_EventMessages_masked : irqLive evMaskedS = true ∧ getF evMaskedS (regAt .pcie 0 0x44) 6 6 = 1 ∧
    getF evMaskedS (regAt .pcie 0 0x44) 5 0 = 3 ∧ vecMasked evMaskedS 0 3 = true ∧ pend evMaskedS .seedbank 0 = false ∧
    tabWf Msix.cold evMaskedS.msix = true ∧ tabWf (0 : Word32) evMaskedS.regs = true ∧
    getR evMaskedS (regAt .seedbank 0 0x10) &&& (1 &&& pageCap .seedbank) ≠ 0 := by decide +kernel

theorem witness_EventMessages_vf : vfOn evVfS 1 = true ∧ irqLive evVfS = true ∧ (getMsix evVfS 1).masked = false ∧
    bit (getMsix evVfS 1).pba 9 = true ∧ tabWf Msix.cold evVfS.msix = true ∧ tabWf (0 : Word32) evVfS.regs = true ∧
    bit (getR evVfS (vecControl 1 9)) 0 = true := by decide +kernel

/-- A masked event becomes pending; function 1 masks and unmasks vector 9 in its own table, by VF BAR0 offset 0x10_109C. -/
theorem test_masks : (let t := ans (.eventEnWrite (Spec.pf (regAt .seedbank 0 0x14)) 1) evMaskedS; t.outs = [] ∧ (getMsix t 0).pba = 8) ∧
    vecMasked (ans (.registerWrite 1 0x10109C 1) evVfS) 1 9 = true ∧
    (ans (.registerWrite 1 0x10109C 0) evVfS).outs = [.msix 1 9] ∧ (ans (.msixUnmask 1 (.control 4 0x8000)) evVfS).outs = [.msix 1 9] ∧
    (getMsix (ans (.msixUnmask 1 (.control 4 0x8000)) evVfS) 1) = ⟨4, 0x803F, 0⟩ ∧
    (ans (.msixUnmask 1 (.control 0 0x8000)) evVfS).outs = [] := by decide +kernel

/-- Vector 3 pends unmasked as RUN is entered: its message goes. A context's ACC_MX is 0 at reset. -/
theorem test_flush_all : (flushAll evS).outs = [.msix 0 3] ∧ ctxValue State.reset 7 0x88 = 0 := by decide +kernel

/-- RUN with ENVELOPE_W 1,800 and BURST 6,000 in force. -/
def pwrS : State := setR (regAt .ranger 0 0x40) 0x1770708 (runs State.reset)

theorem witness_PwrCfgWrite : pwrS.boot.st = .run ∧ tabWf (0 : Word32) pwrS.regs = true ∧ State.reset.boot.st = .held ∧
    { State.reset with boot := { Boot.held with st := .verify } }.boot.st = .verify := by decide +kernel

/-- Chapter 16, worked example: 1,200 W; a zero burst keeps the value in force. -/
theorem test_pwr_cfg : getR (ans (.pwrCfgWrite 0x17704B0) pwrS) (regAt .ranger 0 0x40) = 0x17704B0 ∧
    getR (ans (.pwrCfgWrite 0x4B0) pwrS) (regAt .ranger 0 0x40) = 0x17704B0 ∧
    getR (ans (.pwrCfgWrite 0x1771FFF) pwrS) (regAt .ranger 0 0x40) = 0x1770708 ∧
    getR (ans (.pwrCfgWrite 0) State.reset) (regAt .ranger 0 0x40) = 0 := by decide +kernel

/-! ## Boot, keys, images, map, attestation -/

/-- The device in HELD with its PLLs locked. -/
def lockedS : State := { State.reset with boot := { Boot.held with fclk := true, mclk := true, pclk := true } }

theorem witness_ArmLocksOrIsRecorded : lockedS.boot.st = .held ∧ lockedS.boot.imgBusy = false ∧ lockedS.boot.mapBusy = false ∧
    clocksLocked lockedS = true ∧ clocksLocked State.reset = false ∧ (runs State.reset).boot.st ≠ .held ∧ pageAt (regAt .ranger 0 0x48) = some (.ranger, 0) ∧
    regInfo .ranger 0x48 = some ⟨0x48, 0, 0x1F, 0, 0, 0, 0⟩ := by decide +kernel

theorem test_arm : (ans .arm lockedS).boot.st = .verify ∧ (ans .arm State.reset).boot.fault = 0x0B ∧ (ans .arm (runs State.reset)).boot.fault = 0x0B ∧
    getR (ans .arm (runs State.reset)) (regAt .boot 0 0x70) = 1 := by decide +kernel

/-- A device in VERIFY: four images, the map in force, and every required field valid. -/
def verifyS : State :=
  let s := { State.reset with
    boot := { Boot.held with st := .verify, mapReady := true, images := Vector.replicate 4 (some ⟨1, 0, [], []⟩) },
    supply := { Supply.cold with rails := Vector.replicate 8 { Rail.cold with mv := 800 } } }
  let s := [(0x4040, 3), (0x5040, 20), (0x5044, 0x645F), (0x7040, 0x1770708), (0x7044, 0x32E010), (0x7048, 9), (0x9040, 1), (0xA040, 1),
    (0xC040, 1), (0x1_5040, 0x71005), (0x1_6040, 0x840)].foldl (fun s p => setR p.1 p.2 s) s
  let s := (List.range 8).foldl (fun s i => setR (0x5084 + 8 * i) 0xA2BC (setR (0x5080 + 8 * i) 0x2DA2F3 s)) s
  (List.range 8).foldl (fun s n => setR (0x2_0040 + 0x1000 * n) 0x101 s) s

/-- It passes the checks, and with its digest written it enters RUN; without, code 7. -/
theorem witness_VerifyOutcome_pass : verifyS.boot.st = .verify ∧ verifyChecks verifyS = (0, 0, 0) ∧
    tabWf (0 : Word32) verifyS.regs = true := by decide +kernel

theorem witness_VerifyOutcome_due : ∀ c, (getCtx verifyS c).killDue = none ∧ (getCtx verifyS c).releaseDue = false := fun _ => ⟨rfl, rfl⟩

/-- The same with the digest of its 592 stream bytes, computed outside Lean. -/
def verifyOk : State :=
  [0x5BDD178E, 0xDE7C99FF, 0xCB2099A3, 0x6FDD1FEB, 0x8512C20E, 0x8FE24341, 0x83D4E7FA, 0x8FCF7F35].zipIdx.foldl (fun s p => setR (regAt .boot 0 (0x80 + 4 * p.2)) p.1 s) verifyS

theorem test_verify_run : (fun t : State => (t.boot.st, t.ranger.tokens, getR t (regAt .boot 0 0x10))) (ans .verifyComplete verifyOk) =
    (.run, 6000, 2) := by decide +kernel

/-- A missing image of the last kind, one below its version, no map, THERM_CFG as the worked example of chapter 16 mistypes it, a field
that is zero, a sensor at THERM_HOLD_C. -/
theorem witness_VerifyOutcome_checks :
    verifyChecks { verifyS with boot := { verifyS.boot with images := vset verifyS.boot.images 3 none } } = (1, 4, 0) ∧
    minVersion verifyS 1 ≤ 1 ∧ minVersion (setR (regAt .boot 0 0x54) 2 verifyS) 1 = 2 ∧
    verifyChecks (setR (regAt .boot 0 0x54) 2 verifyS) = (2, 1, 0) ∧
    verifyChecks { verifyS with boot := { verifyS.boot with mapReady := false } } = (6, 0, 0) ∧
    verifyChecks (setR 0x5044 0x3A5F verifyS) = (9, 0, 0x5044) ∧ verifyChecks (setR 0x4040 0 verifyS) = (8, 0, 0x4040) ∧
    verifyChecks { verifyS with supply := { verifyS.supply with temps := vset verifyS.supply.temps 71 100 } } = (0x0C, 71, 0) := by
  decide +kernel

theorem witness_DisarmTearsDown : verifyS.boot.st = .verify ∧ (runs State.reset).boot.st = .run ∧ (runs State.reset).boot.disarming = false ∧
    { State.reset with boot := { Boot.held with st := .stopped, fault := 0x23, disarming := true } }.boot.disarming = true := by
  decide +kernel

theorem test_disarm : (ans .disarm (layer State.reset)).boot.disarming = true ∧
    (ans .disarmDone { layer State.reset with boot := { (layer State.reset).boot with disarming := true } }).boot.fault = 0x13 ∧
    (ans .disarmDone { layer State.reset with boot := { (layer State.reset).boot with disarming := true } }).ctxs = [] ∧
    (ans .disarmDone { State.reset with boot := { Boot.held with st := .stopped, fault := 0x23, disarming := true } }).boot.fault = 0x23 := by
  decide +kernel

theorem witness_KeySlots : State.reset.boot.st = .held ∧ State.reset.boot.keyParse = none ∧ (3 : BitVec 2) ≠ 0 ∧
    { State.reset with boot := { Boot.held with keyParse := some 3 } }.boot.keyParse = some 3 := by decide

theorem test_keys : (ans (.keyLoad 3) State.reset).boot.keyParse = some 3 ∧
    (ans (.keyClear 1) { State.reset with boot := { Boot.held with
      keys := vset Boot.held.keys 1 (some []), images := vset Boot.held.images 2 (some ⟨1, 1, [], []⟩) } }).boot = Boot.held := by
  decide +kernel

/-- A staged image: the magic, a microcode image under slot 0 with 64 payload bytes of zero and a signature of one byte. -/
def imgS : State :=
  let put (off v : Nat) (s : State) : State := setR (imgStage + off) v s
  { put 0x80 1 (put 0x0C 0x40 (put 8 5 (put 4 2 (put 0 0x49464D4E State.reset)))) with boot := { Boot.held with imgBusy := true } }

/-- The signature alone decides: 0 where it verifies, 3 where it does not (falconVerify has no value here), so one clause or the other
is met. -/
theorem witness_ImageInstall : imgS.boot.imgBusy = true ∧ (imageResult imgS = 0 ∨ imageResult imgS = 3) := by
  refine ⟨rfl, ?_⟩
  have h0 : winField imgS imgStage 0 4 = 0x49464D4E := by decide +kernel
  have h4 : winField imgS imgStage 4 1 = 2 := by decide +kernel
  have h5 : winField imgS imgStage 5 1 = 0 := by decide +kernel
  have h6 : winField imgS imgStage 6 2 = 0 := by decide +kernel
  have h8 : winField imgS imgStage 8 4 = 5 := by decide +kernel
  have hC : winField imgS imgStage 0x0C 4 = 0x40 := by decide +kernel
  have hz : winField imgS imgStage 0x10 48 = 0 := by decide +kernel
  have hl : winField imgS imgStage 0x80 2 = 1 := by decide +kernel
  have hk : keyDisabled imgS 0 = false := by decide +kernel
  have hm : minVersion imgS 2 = 0 := by decide +kernel
  have hp : payloadLimit 2 = 2 ^ 18 := by decide
  simp only [imageResult, h0, h4, h5, h6, h8, hC, hz, hl, hk, hm, hp, keyOf]
  cases Config.falconVerify imgS.fuses.rootKey (winRead imgS imgStage 0 (0x40 + 0x40)) (winRead imgS imgStage (0x42 + 0x40) 1) <;> simp


/-- HELD with the supervisor running, and this map staged: entries as 64-bit numbers, with the digest's first eight bytes. -/
def mapS (serial : Nat) (dig : Nat) (es : List Nat) : State :=
  let put (off v : Nat) (s : State) : State := setR (mapStage + off) (v / 2 ^ 32) (setR (mapStage + off - 4) v s)
  let s := es.zipIdx.foldl (fun s p => put (68 + 8 * p.2) p.1 s) State.reset
  { put 0x1C dig (put 0x14 es.length (put 0x0C serial (put 4 (0x50524D4E + 2 ^ 32) s))) with
    boot := { Boot.held with supv := true } }

/-- Wrong magic, wrong serial number, and a map without entries whose digest is SHAKE256 of nothing: 46B9DD2B 0B A8 8D 13. -/
theorem witness_RepairMap_check : mapFree (mapS 0 0 []) = true ∧
    checkMap { State.reset with boot := { Boot.held with supv := true } } = (1, 0x1FFFF) ∧
    winField (mapS 7 0 []) mapStage 0 4 = 0x50524D4E ∧ winField (mapS 7 0 []) mapStage 4 2 = 1 ∧
    winField (mapS 7 0 []) mapStage 0x10 4 = 0 ∧ checkMap (mapS 7 0 []) = (2, 0x1FFFF) ∧
    checkMap (mapS 0 0x138DA80B2BDDB946 []) = (0, 0) := by decide +kernel

/-- Nib 5 and grove 63 retired: both entries take effect; stack 7 fails. -/
def mapBusyS : State :=
  let s := mapS 0 0 [mapEntry 1 5, mapEntry 3 63]
  { s with boot := { s.boot with mapBusy := true } }

theorem witness_RepairMap_apply : mapBusyS.boot.mapBusy = true ∧ mapBusyS.boot.selfBusy = false ∧
    stagedEntries mapBusyS = [mapEntry 1 5, mapEntry 3 63] := by decide +kernel

theorem test_map_applied : (let t := ans (.mapApplied (some 7)) mapBusyS
    t.boot.mapReady = false ∧ (getPNib t 5).retired = true ∧ (getGrove t 63).pw = .retired ∧ (getGrove t 0).spareAt = some 5 ∧
    (getMc t 7).trained = false ∧ (getMc t 6).trained = true) := by decide +kernel

theorem witness_RepairMap_self : { State.reset with boot := { Boot.held with supv := true, mapBusy := true, selfBusy := true } }.boot.selfBusy = true ∧
    (checkList [mapEntry 1 5, mapEntry 3 63]).1 = 0 ∧
    [BitVec.ofNat 64 (mapEntry 1 5), BitVec.ofNat 64 (mapEntry 3 63)].all (fun e => entryKind e.toNat != 7) = true := by decide +kernel

theorem witness_Attestation : State.reset.boot.attNonce = none ∧
    { State.reset with boot := { Boot.held with attNonce := some (List.replicate 32 1) } }.boot.attNonce = some (List.replicate 32 1) :=
  ⟨rfl, rfl⟩

theorem test_attestation_nonce : (ans .attGo (setR (regAt .security 0 0x48) 0x04030201 State.reset)).boot.attNonce =
    some ([1, 2, 3, 4] ++ List.replicate 28 0) := by decide +kernel

theorem witness_SpatterByRegisters : State.reset.mmu.spatter = none ∧
    { State.reset with mmu := ⟨none, some [1, 2, 3, 4]⟩ }.mmu.spatter = some [1, 2, 3, 4] ∧ tabWf (0 : Word32) State.reset.regs = true :=
  ⟨rfl, rfl, rfl⟩

/-- A key written while BUSY is 1 is held and leaves the evaluation alone. -/
theorem test_spatter_key : (let s := { State.reset with mmu := ⟨none, some [1, 2, 3, 4]⟩ };
    let t := ans (.registerWrite 0 (Spec.pf (regAt .spatter 0 0x44)) 7) s;
    wordAt t (regAt .spatter 0 0x44) = 7 ∧ t.mmu = s.mmu ∧ bit (wordAt t (regAt .spatter 0 0x0C)) 0 = true ∧
    (ans (.registerWrite 0 (Spec.pf (regAt .spatter 0 0x58)) 1) State.reset).mmu.spatter.isSome = true) := by decide +kernel

/-- R184's known answer by SPT_GO and SPATTER_DONE. -/
theorem test_spatter_registers : getR (ans .spatterDone (ans .sptGo State.reset)) (regAt .spatter 0 0x5C) = 0x6627E8D5 ∧
    getR (ans .spatterDone (ans .sptGo State.reset)) (regAt .spatter 0 0x68) = 0x9B00DBD8 := by decide +kernel

/-- A nib that has translations of contexts 1 and 2 cached. -/
def tlbS : State := setNib 9 { Nib.cold with tlb := [(2 ^ 27, 0, true), (2 * 2 ^ 27 + 5, 2 ^ 21, false)] } State.reset

theorem witness_TranslationInvalidate : tlbS.mmu.inv = none ∧ tabWf Nib.cold tlbS.nibs = true ∧
    (getNib (ans (.ptInv 1) tlbS) 9).tlb = [(2 * 2 ^ 27 + 5, 2 ^ 21, false)] ∧ (ans (.ptInv 1) tlbS).mmu.inv = some 1 ∧
    (ans .invDone (ans (.ptInv 1) tlbS)).mmu.inv = none := by decide +kernel

/-! ## Contexts -/

/-- Physical pages 1 and up mapped, writable, from virtual address 2 MiB on for a context whose page table lies at 0. -/
def mapped (n : Nat) (s : State) : State :=
  let leaf := (List.range n).flatMap (fun k => bytesOf 8 ((k + 1) * 2 ^ 21 + 7))
  { s with hbm := ((s.hbm.write 0 (bytesOf 8 0x1001)).write 0x1000 (bytesOf 8 0x2001)).write 0x2008 leaf }

/-- Context 5 of function 1, in this state, with slot 0 if it has one. -/
def ctx5 (x : Ctx) : State :=
  { setCtx 5 x (setR (regAt .ctx 5 0x44) 1 (runs State.reset)) with
    ranger := { Ranger.cold with slots := vset Ranger.cold.slots 0 (x.slot.map (fun _ => 5)) } }

theorem witness_ContextEnable : (getCtx State.reset 5).st = .free ∧ ctxFunc (ctx5 Ctx.free) 5 = 1 ∧
    tabWf (0 : Word32) (ctx5 Ctx.free).regs = true ∧ ctxFunc State.reset 5 ≠ 1 := by decide +kernel

theorem test_ctx_enable : (getCtx (ans (.ctxEnable 1 5) (ctx5 Ctx.free)) 5).st = .parked ∧
    ctxEn (ans (.ctxEnable 1 5) (ctx5 Ctx.free)) 5 = true ∧ ans (.ctxEnable 1 5) State.reset = State.reset := by decide +kernel

/-- READY; PARKED without a record address; PARKED with every slot taken; PARKED with a slot free; PARKED and woken in a slot. -/
def allSlots (s : State) : State := { s with ranger := { s.ranger with slots := Vector.replicate 16 (some 9) } }

theorem witness_HeadStartsWorkList :
    (getCtx (ctx5 { Ctx.free with st := .ready }) 5).st ≠ .parked ∧
    (getCtx (ctx5 { Ctx.free with st := .parked }) 5).st = .parked ∧
    getR (ctx5 { Ctx.free with st := .parked }) (regAt .ctx 5 0x68) + 2 ^ 32 * (0 : Word32).toNat = 0 ∧
    getR (ctx5 { Ctx.free with st := .parked }) (regAt .ctx 5 0x68) + 2 ^ 32 * (1 : Word32).toNat ≠ 0 ∧
    (getCtx (ctx5 { Ctx.free with st := .parked }) 5).killDue = none ∧
    (ctx5 { Ctx.free with st := .parked }).boot.st = .run ∧ freeSlot (allSlots (ctx5 { Ctx.free with st := .parked })) = none ∧
    (freeSlot (ctx5 { Ctx.free with st := .parked })).isSome = true ∧
    (getCtx (ctx5 { Ctx.free with st := .parked, woken := true, slot := some 0, curRec := 2 ^ 21 }) 5).woken = true := by decide +kernel

theorem test_head_write : (ans (.headVaWrite 1 5 1) (ctx5 { Ctx.free with st := .ready })).blotter.next = 1 ∧
    (getCtx (ans (.headVaWrite 1 5 0) (ctx5 { Ctx.free with st := .parked })) 5).fresh = true ∧
    (getCtx (ans (.headVaWrite 1 5 1) (allSlots (ctx5 { Ctx.free with st := .parked }))) 5).runnable = true := by decide +kernel

/-- A record address that no page maps faults the context. -/
theorem test_head_unmapped : (getCtx (ans (.headVaWrite 1 5 1) (ctx5 { Ctx.free with st := .parked })) 5).st = .faulted := by decide +kernel

/-- The woken context's NEXT reads zero in the first case, and an address in the second. -/
theorem witness_HeadStartsWorkList_wake :
    (match vRead 5 (2 ^ 21) 8 (mapped 2 (ctx5 { Ctx.free with st := .parked, woken := true, slot := some 0, curRec := 2 ^ 21 })) with
    | (.ok b, _) => b == List.replicate 8 0
    | _ => false) = true := by decide +kernel

theorem test_watch_wake : (getCtx (ans (.watchWake 5)
    (mapped 2 (ctx5 { Ctx.free with st := .parked, woken := true, slot := some 0, curRec := 2 ^ 21 }))) 5).watch = some (2 ^ 21) := by
  decide +kernel

/-- Sixteen residents: contexts 0 to 15, FAULTED, blocked 20 + their number; context 20 runnable; SWAP_GRACE 1. -/
def fullS : State :=
  let s := (List.range 16).foldl (fun s c => setCtx c { Ctx.free with st := .faulted, slot := some c, blocked := 20 + c } s)
    (setR (regAt .ranger 0 0x44) (2 ^ 16) (runs State.reset))
  setCtx 20 { Ctx.free with st := .parked, runnable := true }
    { s with ranger := { Ranger.cold with slots := Vector.ofFn (fun i => some i.val), graceTicks := 1 } }

theorem witness_EvictionOrder : ctxFunc fullS 3 = 0 ∧ (getCtx fullS 3).slot.isSome = true ∧ getF fullS (regAt .ranger 0 0x44) 27 16 = 1 ∧
    freeSlot fullS = none ∧ runnables fullS ≠ [] ∧ 15 ∈ residents fullS ∧ mayEvict fullS 15 = true ∧
    (getCtx fullS 15).phase ≠ .saving := by decide +kernel

theorem test_evict_longest_blocked : (getCtx (ans .ctxEvict fullS) 15).slot = none ∧ (getCtx (ans .ctxEvict fullS) 0).slot = some 0 ∧
    (getCtx (ans (.evict 0 3) fullS) 3).evict = true := by decide +kernel

/-- A running context; outside RUN; a killing one with a clean plot, and one that keeps its plot. -/
theorem witness_KillScrubs : (getCtx (layer State.reset) 0).killDue = none ∧ (getCtx (layer State.reset) 0).slot.isSome = true ∧
    (allSlots (ctx5 { Ctx.free with st := .ready })).boot.st = .run ∧ freeSlot (allSlots (ctx5 { Ctx.free with st := .ready })) = none ∧
    (getCtx (allSlots (ctx5 { Ctx.free with st := .ready })) 5).slot = none ∧
    (setCtx 5 { Ctx.free with st := .ready } State.reset).boot.st ≠ .run ∧ ctxFunc (layer State.reset) 0 = 0 ∧ (getCtx (layer State.reset) 0).st = .running ∧
    rec0.retain = false ∧ 0 ∈ (getCtx (layer State.reset) 0).plot ∧ (getGrove (layer State.reset) 0).owner = some 0 ∧
    (getGrove (layer State.reset) 0).pw = .awake ∧
    (getCtx (onGrove { Ctx.free with st := .killing } (runs State.reset)) 0).st = .killing ∧
    (∀ g ∈ (getCtx (onGrove { Ctx.free with st := .killing } (runs State.reset)) 0).plot,
      (getGrove (onGrove { Ctx.free with st := .killing } (runs State.reset)) g).owner = some 0 →
      (getGrove (onGrove { Ctx.free with st := .killing } (runs State.reset)) g).dirty = false) ∧
    (getCtx (onGrove { Ctx.free with st := .killing, retain := true } (runs State.reset)) 0).retain = true := by decide +kernel

theorem test_kill : (let t := ans (.kill 0 0) (layer State.reset)
    (getCtx t 0).st = .killing ∧ (getCtx t 0).lastCode = 0x0205 ∧ (getGrove t 0).dirty = true) := by decide +kernel

/-- The page table lies beyond HBM, so that no page is scrubbed. -/
theorem test_kill_done : (let t := ans (.killDone 0) (setPair (effAt (regAt .ctx 0 0x48)) 0x9500000000
      (onGrove { Ctx.free with st := .killing } (runs State.reset)))
    (getCtx t 0).st = .parked ∧ (getGrove t 0).owner = none ∧ bit (getR t (regAt .ranger 0 0x10)) 6 = true) := by decide +kernel

theorem witness_ReleaseScrubs : (let s := onGrove { Ctx.free with st := .retained, retain := true } (runs State.reset)
    ctxFunc s 0 = 0 ∧ s.boot.st = .run ∧ (getCtx s 0).st = .retained ∧ 0 ∈ (getCtx s 0).plot ∧ (getGrove s 0).pw = .awake ∧
    (getCtx (ans (.release 0 0) s) 0).st = .parked ∧ (getGrove (ans (.release 0 0) s) 0).dirty = true) := by decide +kernel

/-- A layer being saved, its save area unmapped: the context faults. -/
def savingS : State := modCtx 0 (fun x => { x with phase := .saving }) (layer State.reset)

theorem witness_PlotSave : (getCtx savingS 0).phase = .saving ∧ integrityLost savingS = false ∧
    (getCtx (settlePlot 0 savingS) 0).phase = .saving ∧
    (saveAll 0 (saveNib 0 (saveVa savingS 0)) (ranked [0]) (forEach (plotNibs (heldBy (settlePlot 0 savingS) 0)) (reportBadRows 0)
      (settlePlot 0 savingS))).1.isSome = true ∧ (∀ n ∈ plotNibs [0], badRows (getNib (settlePlot 0 savingS) n) = []) ∧
    (getCtx (ans (.plotSaveDone 0 false) savingS) 0).st = .faulted ∧ (getCtx savingS 0).saved = none ∧
    (let s := modCtx 0 (fun x => { x with saved := some ⟨1, [], true, true, 7, 9⟩ }) savingS;
      (getCtx s 0).saved.isSome = true ∧ (getCtx s 0).evict = false ∧ (getCtx s 0).phase = .saving ∧ integrityLost s = false ∧
      ((getCtx (ans (.plotSaveDone 0 false) s) 0).saved.map (fun v => v.cause)) = some 7) := by decide +kernel

/-! ## BAR2 and the management bus -/

/-- PF window 15 on the last page of HBM, window 1 closed, the byte 0x11 at the page's start; context 0 watches 2 MiB, which is DPA page 1. -/
def barS : State :=
  let s := setR (regAt .pcie 0 0xBC) (2 ^ 31 + 0x4A7FF) (setR (regAt .pcie 0 0x80) (2 ^ 31 + 1) (mapped 2 (runs State.reset)))
  setCtx 0 { Ctx.free with st := .parked, watch := some (2 ^ 21) } { s with hbm := s.hbm.write (0x4A7FF * 2 ^ 21) [0x11] }

theorem witness_Bar2Windows :
    (15 * 2 ^ 32) % 4096 + 4096 ≤ 4096 ∧
    (bar2Window 0 (15 * 2 ^ 32) 1 false barS).1 = .hbm (0x4A7FF * 2 ^ 21) ∧
    (memRead (0x4A7FF * 2 ^ 21) 1 barS).1 = some [0x11] ∧
    (bar2Window 0 (15 * 2 ^ 32 + 2 ^ 21) 1 false barS).1 = .refused ∧ (bar2Window 0 (2 ^ 32) 1 false barS).1 = .refused ∧
    (bar2Window 0 0 8 true barS).1 = .hbm (2 ^ 21) ∧ Memory.wf barS.hbm = true ∧
    watchDpa (memWrite (2 ^ 21) (List.replicate 8 1) barS) 0 = some (2 ^ 21) := by decide +kernel

theorem test_bar2_read : (ans (.bar2Read 0 0xF00000000 1) barS).outs = [.bar2 0 0xF00000000 [0x11] false] ∧
    (ans (.bar2Read 0 0x100000000 1) barS).outs.head? = some (.bar2 0 0x100000000 [0xFF] false) := by decide +kernel

theorem test_bar2_write : (let t := ans (.bar2Write 0 0 [1, 2, 3, 4, 5, 6, 7, 8]) barS
    t.hbm.byte (2 ^ 21) = 1 ∧ t.hbm.byte (2 ^ 21 + 7) = 8 ∧ t.hbm.byte (2 ^ 21 + 8) = 0 ∧ (getCtx t 0).woken = true) := by decide +kernel

theorem witness_ManagementAnswers : State.reset.power.vaon = true ∧ State.reset.power.released = true := ⟨rfl, rfl⟩

/-- Bits 1 and 3 and the count, with the code over 0xC0, 0x86, 4 and the four data bytes computed outside Lean: bit 3's condition is present. A
wrong code and none change nothing. -/
theorem test_mevent_clr : (let s := { State.reset with power := { Power.cold with mevent := 0x1A, brakes := 9, uvNow := true } }
    s.power.vaon = true ∧ s.power.released = true ∧
    (let p := (ans (.meventClr ⟨0x1000A, some 0xD3⟩) s).power; p.mevent = 0x18 ∧ p.brakes = 0) ∧
    ans (.meventClr ⟨0x1000A, some 0⟩) s = s ∧ ans (.meventClr ⟨0x1000A, none⟩) s = s) := by decide +kernel

/-- A byte of CABLES: present, powered, 3.5 W; the draw does not show without the cable. -/
theorem test_cable_byte : cableByte ⟨true, true, 35⟩ = 0x8F ∧ cableByte ⟨false, true, 35⟩ = 2 := by decide

/-- The published check value of this CRC-8: 0xF4 for the characters 1 to 9. -/
theorem test_pec : pec [0x31, 0x32, 0x33, 0x34, 0x35, 0x36, 0x37, 0x38, 0x39] = 0xF4 := by decide +kernel

theorem test_fru : (ans (.fruRead 254) State.reset).outs = [.smbus 0x50 [0, 0, 0x17]] ∧ fruOne.length = 256 := by decide +kernel

/-! ## Power and resets -/

theorem witness_PowerSequenceUp : (let p := State.reset.power
    p.p54v = true ∧ p.released = true ∧ p.perst = true) ∧
    { State.reset with power := { Power.cold with p54v := false } }.power.p54v = false ∧
    { State.reset with power := { Power.cold with released := false } }.power.released = false ∧
    (ans .modEnAssert State.reset).power.modEn = true ∧ (ans .modEnAssert State.reset).power.pwrgd = false ∧
    (ans .modEnAssert State.reset).power.released = true ∧ State.reset.boot.st = .held ∧ clocksLocked State.reset = false ∧
    (ans .pwrgdRelease (ans .modEnAssert State.reset)).power.pwrgd = true ∧ (runs State.reset).power.mainUp = true ∧
    (runs State.reset).power.perst = false := by decide +kernel

/-- From the power-on reset to an answering device. -/
theorem test_power_up : (let s := ans .perstDeassert (ans .pwrgdRelease (ans .modEnAssert State.reset))
    s.power.perst = false ∧ (ans .configReady s).boot.linkReady = true ∧ (ans (.linkTrained 6 16 true) (ans .configReady s)).boot.width = 16 ∧
    bit (getR (ans (.linkTrained 5 16 true) s) (regAt .pcie 0 0x10)) 2 = true) := by decide +kernel

theorem witness_PowerDown : (runs State.reset).power.mainUp = true ∧ (runs State.reset).power.perst = false ∧
    (runs State.reset).power.p54v = true ∧ (runs State.reset).power.vaon = true ∧ (3 : Fin 8).val ≠ 7 ∧
    40000 ≤ (43999 : BitVec 16).toNat ∧ (43999 : BitVec 16).toNat < 44000 ∧ 40000 ≤ (40000 : BitVec 16).toNat := by decide +kernel

theorem test_supply_reset : (let t := ans (.supplyReset 3) (layer State.reset)
    t.boot.fault = 0x10 ∧ t.boot.detail = 3 ∧ t.ctxs = [] ∧ t.power.mainUp = false) := by decide +kernel

theorem test_input_uv : (ans (.inputUv 43999) State.reset).power.uvNow = true ∧ (ans (.inputUv 44000) State.reset).power.uvNow = false := by
  decide +kernel

theorem witness_HostReset : State.reset.power.perst = true ∧ (∀ p, p < 16 → (getPort (runs State.reset) p).st = .off) ∧
    (runs State.reset).power.perst = false ∧ (runs State.reset).power.modEn = true ∧
    { State.reset with power := { Power.cold with perst := false } }.power.modEn = false := by decide +kernel

theorem test_host_reset : (let t := ans (.hostReset .pfFlr) (layer State.reset)
    t.boot.fault = 0x14 ∧ t.boot.st = .held ∧ t.ctxs = [] ∧ t.power.perst = false ∧ t.boot.linkReady = true ∧
    bit (getR t (regAt .boot 0 0x10)) 4 = true) := by decide +kernel

/-- VFs 1 and 3 enabled, VF 1's window 0 open. -/
def vfS : State :=
  let s := setR (regAt .vfunc 1 0x40) 1 (runs State.reset)
  { s with boot := { s.boot with vfEn := 0xA } }

theorem witness_VirtualFunctions : bit vfS.boot.vfEn 1 = true ∧ (∀ c ∈ ctxIds vfS, ctxFunc vfS c ≠ 1) ∧ tabWf (0 : Word32) vfS.regs = true ∧
    bit vfS.boot.vfEn 0 = false := by decide +kernel

theorem test_vfs : bit (getR (ans (.vfFlr 1) vfS) (regAt .vfunc 1 0x40)) 0 = false ∧
    bit (cfgPair (ans (.vfFlr 1) (setPair (effAt (regAt .vfunc 1 0x40)) 1 vfS)) (regAt .vfunc 1 0x40)) 0 = false ∧ (ans (.vfEnable 0xF) vfS).boot.vfEn = 0xE := by
  decide +kernel

/-- Function 1 present and the owner of context 5, which runs on grove 0, or is retained on it, a page locked for it. -/
def vfOwnS (st : CtxSt) : State :=
  let s := ctx5 { Ctx.free with st := st, slot := some 0, plot := [0], retain := st == .retained }
  { s with boot := { s.boot with vfEn := 2 }, groves := vset s.groves 0 { Grove.cold with pw := .awake, owner := some 5 }
           hbm := { s.hbm with locks := [(7, 5)] } }

theorem witness_VirtualFunctions_owner : ctxIds (vfOwnS .running) = [5] ∧ ctxFunc (vfOwnS .running) 5 = 1 ∧ ctxFunc (vfOwnS .running) 5 ≠ 2 ∧
    tabWf Ctx.free (vfOwnS .running).ctxs = true ∧ bit (vfOwnS .running).boot.vfEn 1 = true ∧ (getCtx (vfOwnS .running) 5).killDue = none ∧
    (getCtx (vfOwnS .retained) 5).st = .retained ∧ (getGrove (vfOwnS .retained) 0).pw = .awake := by decide +kernel

theorem test_vf_flr_kills : (let t := ans (.vfFlr 1) (vfOwnS .running); (getCtx t 5).st = .killing ∧ (getGrove t 0).dirty = true) ∧
    (let t := ans (.vfFlr 1) (vfOwnS .retained)
    (getCtx t 5).st = .parked ∧ (getCtx t 5).plot = [] ∧ t.hbm.locks = [] ∧ (getGrove t 0).owner = none ∧ (getGrove t 0).dirty = true) := by
  decide +kernel

/-! ## Supply, clocks, heat -/

/-- A running layer under verifyS's thresholds (WARN 755, INTEG 730, HYST 10 mV on every rail), REPLAY_LIMIT 3. -/
def dipS : State :=
  let s := layer State.reset
  setR (regAt .seedbank 0 0x40) 3 { s with regs := verifyS.regs }

/-- The same with the dip response in force for rail 4. -/
def dippedS : State := { dipS with supply := { dipS.supply with dip := true, recover := true, order := [4] } }

theorem witness_SupplyDip : (754 : BitVec 12).toNat < warnMv dipS 4 ∧ warnMv dipS 4 ≤ (755 : BitVec 12).toNat ∧ dippedS.supply.dip = true ∧
    (∀ k, k < 8 → warnMv dippedS k + hystMv dippedS k < (vget 0 (Vector.replicate 8 (766 : BitVec 12)) k).toNat) ∧
    dippedS.supply.recover = true ∧ dippedS.supply.order ≠ [] ∧ (729 : BitVec 12).toNat < integMv dipS 0 ∧
    (getCtx dipS 0).st = .running ∧ (getCtx dipS 0).phase = .running ∧ (getCtx dipS 0).record = some rec0 ∧ rec0.replay = true ∧
    (getCtx dipS 0).replays < replayLimit dipS ∧ dipS.supply.dip = false := by decide +kernel

theorem witness_SupplyDip_low : (vget 0 (Vector.replicate 8 (765 : BitVec 12)) 0).toNat ≤ warnMv dippedS 0 + hystMv dippedS 0 := by decide +kernel

theorem test_rail_warning : (ans (.railWarning 4 754) dipS).supply.dip = true ∧ ans (.railWarning 4 755) dipS = dipS := by decide +kernel

theorem test_dip_end : (ans (.dipRecoveryEnd (Vector.replicate 8 0)) dippedS).supply.order = [] ∧
    (ans (.railRecover (Vector.replicate 8 765)) dippedS).supply.recover = false ∧
    (getRail (ans (.railRecover (Vector.replicate 8 754)) dippedS) 3).below = true ∧
    (ans (.railRecover (Vector.replicate 8 766)) { dippedS with supply := { dippedS.supply with recover := false } }).supply.recover = true := by
  decide +kernel

theorem test_supply_suspect : (getCtx (ans (.supplySuspect 0 729) dipS) 0).phase = .suspect ∧
    (getCtx (ans (.supplySuspect 0 729) (modCtx 0 (fun x => { x with record := some { rec0 with replay := false } }) dipS)) 0).phase = .suspect ∧
    (getCtx (ans (.supplySuspect 0 729) dipS) 0).cause = 4 := by decide +kernel

/-- Port 4, on connector 1, up. -/
def portS (x : Port) : State := setPort 4 x (runs State.reset)

/-- Grove 0 waking on PLL 0 with PLL 1 good, awake on PLL 1 with PLL 0 bad. -/
def pllS (pw : GrovePower) (pll : Nat) (bad0 : Bool) : State :=
  setGrove 0 { Grove.cold with pw := pw, pll := pll, pllBad0 := bad0 } (runs State.reset)

theorem witness_BrakeAndCables : State.reset.power.brake = false ∧ { State.reset with power := { Power.cold with brake := true } }.power.brake = true ∧
    connectorOf 4 = 1 ∧ (getPort (portS { Port.off with st := .ready }) 4).st ≠ .off ∧ (runs State.reset).boot.st = .run ∧
    (getGrove (layer State.reset) 0).pw = .awake ∧ State.reset.supply.dip = false ∧
    dippedS.supply.dip = true ∧ (getGrove dippedS 0).pw = .awake ∧ (getGrove (pllS .waking 0 false) 0).pw = .waking := by decide +kernel

/-- Grove 0 at its top step, 9, would run at 9; while the dip response holds it runs at DIP_ACLK, here 3, step 1. -/
theorem test_dip_clock : (let s := setGrove 0 { getGrove dippedS 0 with step := 9, therm := 9 } dippedS
    aclk s 0 = stepOf (getF dippedS (regAt .clock 0 0x40) 4 0) ∧ aclk s 0 < 9 ∧
    aclk { s with supply := { s.supply with dip := false } } 0 = 9) := by decide +kernel

theorem test_cable_overload : (let t := ans (.cblOverload 1) (portS { Port.off with st := .ready })
    (getPort t 4).lastDown = 1 ∧ (getPort t 4).st = .off ∧ bit t.power.mevent 4 = true) ∧
    (ans .pwrBrakeAssert State.reset).power.brakes = 1 ∧ (ans .pwrBrakeRelease State.reset) = State.reset := by decide +kernel

theorem witness_ClockLossAndStop : (runs State.reset).boot.st = .run ∧ (getGrove (pllS .waking 0 false) 0).pw = .waking ∧
    (getGrove (pllS .waking 0 false) 0).pll = 0 ∧ (getGrove (pllS .waking 0 false) 0).pllBad1 = false ∧
    (getGrove (pllS .awake 1 true) 0).pw = .awake ∧ (getGrove (pllS .awake 1 true) 0).pllBad0 = true ∧
    (ans (.fabricUnlock .mclk) (runs State.reset)).boot.stopping = some 0x22 ∧
    (ans (.fabricUnlock .mclk) (runs State.reset)).lig.open_ = none := by decide +kernel

theorem witness_ClockLossAndStop_other : (getGrove (pllS .awake 1 true) 0).pll < 2 ∧ (getGrove (pllS .waking 0 false) 0).pll < 2 ∧
    (layer State.reset).lig.open_ = none := by decide +kernel

theorem test_pll_loss : (getGrove (ans (.pllLockTimeout 0) (pllS .waking 0 false)) 0).pll = 1 ∧
    (getGrove (ans (.pllLockLoss 0) (pllS .awake 1 true)) 0).pw = .retired ∧
    bit (getR (ans (.pllLockLoss 0) (pllS .awake 1 true)) (regAt .clock 0 0x10)) 1 = true := by decide +kernel

theorem test_device_stop : (let t := ans .deviceStopped { layer State.reset with boot := { (layer State.reset).boot with stopping := some 0x22 } }
    t.boot.st = .stopped ∧ t.boot.fault = 0x22 ∧ (getGrove t 0).pw = .gated) := by decide +kernel

/-- One tick's samples: 20 mJ drawn. -/
def tick0 : TickIn := ⟨20000, Vector.replicate 64 0, Vector.replicate 72 30, Vector.replicate 8 800, Vector.replicate 8 40, [], 48000, 20000,
  Vector.replicate 4 12, #v[false, true, false, true]⟩

theorem witness_TickAccounts : pwrS.power.released = true ∧ pwrS.boot.st = .run ∧ getF pwrS (regAt .ranger 0 0x40) 11 0 = 1800 := by
  decide +kernel

/-- 1,800 W over 20 µs is 36 mJ: the tokens rise by 36 − 20. -/
theorem test_tick : (ans (.understoryTick tick0) pwrS).ranger.tokens = 16 ∧ (ans (.understoryTick tick0) pwrS).uclk = 1000 := by decide +kernel

/-- Cables draw 1.2 W each, where they are powered; the pins are sensed. -/
theorem test_tick_draws : (let t := ans (.understoryTick tick0) { pwrS with power := { pwrS.power with
      cables := vset (Vector.replicate 4 Cable.none) 1 ⟨true, true, 0⟩ } }
    (List.range 4).map (fun k => (vget Cable.none t.power.cables k).draw) = [0, 12, 0, 0] ∧
    (List.range 4).map (fun k => (vget Cable.none t.power.cables k).present) = [false, true, false, true]) := by decide +kernel

/-! ## Groves -/

/-- Grove 0 free, awake and idle for IDLE_HOLD ticks; the sleep register asks for it after one. -/
theorem witness_GrovePowerStates : (let s := setR (regAt .understory 0 0x48) 1 (setGrove 0 { Grove.cold with pw := .awake, idle := 8191 } (runs State.reset))
    s.boot.st = .run ∧ idleHold s ≠ 0 ∧ idleHold s ≤ (getGrove s 0).idle ∧ (getGrove s 0).owner = none ∧
    (getGrove (ans (.groveSleep 0) s) 0).pw = .entering) ∧
    (getGrove (pllS .entering 0 false) 0).pw = .entering ∧ tabWf Nib.cold (pllS .entering 0 false).nibs = true ∧
    (getGrove (pllS .waking 0 false) 0).pw = .waking ∧
    (getGrove (setGrove 0 { Grove.cold with pw := .awake, dirty := true } State.reset) 0).dirty = true := by decide +kernel

theorem witness_GrovePowerStates_owned : (getGrove (layer State.reset) 0).owner = some 0 ∧ (getCtx (layer State.reset) 0).st = .running ∧
    ans (.groveSleep 0) (layer State.reset) = layer State.reset ∧
    (let s := setR (regAt .understory 0 0x48) (1 + 2 ^ 12) (setGrove 0 { Grove.cold with pw := .awake, idle := 8191, owner := some 0 }
      (setCtx 0 { Ctx.free with st := .parked } (runs State.reset)));
      plotSleep s ≠ 0 ∧ idleHold s ≤ 8191 ∧ idleHold s ≠ 0 ∧ (getCtx s 0).st = .parked ∧ (getCtx s 0).phase = .none ∧
      (getGrove (ans (.groveSleep 0) s) 0).pw = .entering) := by decide +kernel

theorem test_grove_states : (getGrove (ans (.groveSleepDone 0) (pllS .entering 0 false)) 0).pw = .gated ∧
    (getGrove (ans (.groveWakeDone 0 5000) (pllS .waking 0 false)) 0).lock = 1023 ∧
    (getNib (ans (.groveScrubDone 0) (setGrove 0 { Grove.cold with pw := .awake, dirty := true } State.reset)) 15).row 4607 = some ⟨0, []⟩ := by
  decide +kernel

/-! ## Drurid ports -/

/-- Lanes 0 to 7 in use with lane 8 spare. -/
def lanes8 : Lanes9 := ⟨true, 0, 511, 255, some 8, Vector.replicate 4 0⟩

/-- Port 4 of a device with MAX_RATE 3, MIN_WIDTH 2 and LANE_ERR_THRESH 16. -/
def linkS (x : Port) : State := setR (regAt .port 4 0x40) 0xB (setR (regAt .links 0 0x40) (0x1011 + 16 * 2 ^ 20 + 2 ^ 16) (portS x))

theorem witness_PortStates : (getPort (portS { Port.off with st := .ready }) 4).st = .ready ∧
    (getPort (portS { Port.off with st := .ready }) 4).loopback = false ∧ (getPort (portS { Port.off with st := .ready }) 4).clash = false ∧
    (portS { Port.off with st := .ready }).lig.waiting = [] ∧ (getPort (portS { Port.off with clash := true }) 4).clash = true ∧
    (getPort (portS { Port.off with st := .active, enable := true }) 4).enable = true ∧
    (getPort (portS { Port.off with st := .retrain }) 4).st = .retrain := by decide +kernel

theorem witness_PortStates_down : downState (linkS { Port.off with st := .active }) 4 = .detect := by decide +kernel

theorem test_port_enable : (getPort (ans (.portEnable 4 true) (portS { Port.off with st := .ready })) 4).st = .active ∧
    (getPort (ans (.portEnable 4 false) (portS { Port.off with st := .active, enable := true })) 4).st = .ready ∧
    (getPort (ans (.portEnable 4 false) (portS { Port.off with st := .active, enable := true, txQ := [[0]] })) 4).st = .active := by
  decide +kernel

theorem test_port_down : (getPort (ans (.portDownCmd 4) (linkS { Port.off with st := .active })) 4).st = .detect ∧
    (getPort (ans (.lossOfSignal 4) (portS { Port.off with st := .active })) 4).lastDown = 1 ∧
    (getPort (ans (.retrainTimeout 4) (portS { Port.off with st := .retrain })) 4).lastDown = 3 ∧
    (getPort (ans (.portRetrainCmd 4) (portS { Port.off with st := .active })) 4).st = .retrain := by decide +kernel

/-- Chapter 10, worked example: transmitter lane i on receive lane 8 − i, receive lane 2 inverted. -/
def frames9 : List Frame := (List.finRange 9).map (fun i => ⟨i, 8 - i, decide (i = 2)⟩)

def negS : State := linkS { Port.off with st := .negotiate }

theorem test_signal : (getPort (ans (.signalDetect 4) (linkS { Port.off with st := .detect })) 4).st = .negotiate ∧
    (ans (.signalDetect 4) (linkS { Port.off with st := .detect })).outs = [.train 4 0 3] ∧
    (vget Cable.none (ans (.signalDetect 4) (linkS Port.off)).power.cables 1).present = true := by decide +kernel

theorem witness_LinkBringUp : (getPort (linkS { Port.off with st := .detect }) 4).st = .detect ∧ (getPort negS 4).st = .negotiate ∧
    nextCand negS 4 (negotiated negS 4 frames9 ⟨3, 2, 511⟩ (getPort negS 4)) 0 = some 0 ∧
    nextCand negS 4 (negotiated negS 4 [] ⟨3, 2, 511⟩ (getPort negS 4)) 0 = none ∧
    failing (getPort (linkS { Port.off with st := .equalize, train := .equalize, tx := lanes8, rx := lanes8 }) 4).tx.active
      (Vector.replicate 9 64) id ≠ 0 ∧
    (getPort (linkS { Port.off with st := .identify, train := .identify, idBytes := List.replicate 4096 0 }) 4).idBytes.length = 4096 ∧
    (getPort (linkS { Port.off with st := .identify, hold := true }) 4).hold = true := by decide +kernel

theorem test_training_frames : (let x := getPort (ans (.trainingFrame 4 frames9 ⟨3, 2, 511⟩) negS) 4
    x.st = .equalize ∧ x.reversed = true ∧ x.inverted = 4 ∧ x.tx.active = 255 ∧ x.tx.spare = some 8) := by decide +kernel

theorem test_equalized : (let x := getPort (ans (.equalizeCandidateEnd 4 (Vector.replicate 9 63) (Vector.replicate 9 0))
      (linkS { Port.off with st := .equalize, train := .equalize, tx := lanes8, rx := lanes8, peerRate := 3 })) 4
    x.st = .identify ∧ x.rate = 3 ∧ x.width = 8) := by decide +kernel

/-- A block without a nonce of this port is refused, whatever its signature. -/
theorem test_identity_refused : (let x := getPort (ans (.identityBlock 4)
      (linkS { Port.off with st := .identify, train := .identify, idBytes := List.replicate 4096 0 })) 4
    x.st = .identify ∧ x.hold = true) ∧
    (getPort (ans (.idHoldEnd 4) (linkS { Port.off with st := .identify, hold := true })) 4).st = .detect ∧
    (getPort (ans (.negotiateTimeout 4) negS) 4).st = .detect ∧ (ans (.negotiateTimeout 4) negS).outs = [.train 4 3 511] := by decide +kernel

/-- A block that answers the nonce is accepted or refused by its signature alone (falconVerify has no value here), so one clause or the
other is met. -/
theorem witness_LinkBringUp_block : blockOk { Port.off with nonceOut := some 0, idBytes := List.replicate 4096 0 } =
    Config.falconVerify (List.replicate 1793 0) (List.replicate 0x788 0) [] := by
  simp only [blockOk, List.drop_replicate, List.take_replicate]
  congr 1

/-- A shortened message and its parity are a multiple of the generator: every syndrome is zero. -/
theorem test_parity : (let c := [1, 0, 777] ++ rsParity [1, 0, 777]
    c.length = 33 ∧ (List.range 30).all (fun j => gfEval c (gfPow j) == 0) = true) := by decide +kernel

/-- With lanes 1 and 3 active, symbols 0, 2, 4 go on lane 1, the others on lane 3. -/
theorem test_striping : stripe 10 [5, 6, 7, 8, 9] = [(1, [5, 7, 9]), (3, [6, 8])] := by decide

/-- An ACTIVE port with eight lanes and a spare each way, its lanes crossed. -/
def servS : State := linkS { Port.off with st := .active, enable := true, tx := lanes8, rx := lanes8, rate := 3, width := 8, reversed := true }

def cw0 (good : Bool) : Codeword := ⟨good, false, false, Vector.replicate 9 0, 0, 511, false, Vector.replicate 10 0⟩

theorem witness_LinkService : (getPort servS 4).st = .active ∧ (cw0 true).seq.val = ((getPort servS 4).ack + 1) % 512 ∧
    laneThresh servS ≠ 0 ∧ bit ((getPort servS 4).rx.goodAt 3) (laneAt true 6) = true ∧
    bit (getPort servS 4).rx.active (laneAt true 6) = true ∧ (getPort servS 4).spareOut = none ∧
    (getPort servS 4).rx.spare.isSome = true ∧ bit ((getPort servS 4).rx.goodAt 3) (laneAt true 0) = true ∧
    bit (getPort servS 4).rx.active (laneAt true 0) = false ∧
    bit (getPort servS 4).tx.active 2 = true ∧ txSparing (getPort servS 4) = [] ∧
    (getPort servS 4).tx.spare.isSome = true ∧
    (getPort (linkS { Port.off with st := .active, spareOut := some 2 }) 4).spareOut = some (2 : Fin 9).val := by decide +kernel

theorem test_codeword : (getPort (ans (.codewordReceive 4 (cw0 true)) servS) 4).ack = 0 ∧
    (getPort (ans (.codewordReceive 4 (cw0 false)) servS) 4).nak = true := by decide +kernel

/-- A NAK has the codewords after ACK sent again; one that has been RETRY_LIMIT times (1 here) leads to RETRAIN. The lane of a sparing that a
retrain abandons is not reported good. -/
theorem test_resend : (let s n := linkS { Port.off with st := .active, enable := true, tx := lanes8, rx := lanes8, replayBuf := [⟨0, [], n, 255⟩], seq := 1 }
    let nak : Codeword := { cw0 true with nak := true }
    ((getPort (ans (.codewordReceive 4 nak) (s 0)) 4).replayBuf.map (fun e => e.resent) = [1] ∧
      (getPort (ans (.codewordReceive 4 nak) (s 1)) 4).st = .retrain) ∧
    (ans (.trainingFrame 4 frames9 ⟨3, 2, 511⟩) (ans (.portRetrainCmd 4)
      (linkS { Port.off with st := .active, tx := lanes8, rx := lanes8, spareOut := some 2 }))).outs.contains (.train 4 1 0x1FB) = true) := by
  decide +kernel

/-- Chapter 10, worked example: receive lane 6 carries transmitter lane 2. -/
theorem test_sparing : (getPort (ans (.laneErrorThreshold 4 6) servS) 4).spareOut = some 2 ∧
    (getPort (ans (.laneErrorThreshold 4 6) servS) 4).txQ = [[controlUnit 1 2 0]] ∧
    (getPort (ans (.laneErrorThreshold 4 0) servS) 4).rx.bad = 256 ∧
    (getPort (ans (.spareReq 4 2) servS) 4).txSwitch = none ∧ (getPort (ans (.spareReq 4 2) servS) 4).txQ = [[controlUnit 2 2 0]] ∧
    (getPort (ans (.spareAck 4 2 8) (linkS { Port.off with st := .active, spareOut := some 2 })) 4).rxSwitch = some (2, 8) ∧
    (getPort (ans (.spareAck 4 2 0) (linkS { Port.off with st := .active, spareOut := some 2 })) 4).rxSwitch = none ∧
    (getPort (ans (.laneErrorThreshold 4 6) (linkS { Port.off with st := .active, rx := { lanes8 with spare := none } })) 4).st = .retrain := by
  decide +kernel

/-- A port that has a SPARE_ACK for lane 2 to send, in codeword 5, behind nothing; it owes three units. -/
def ackS (part : List LinkUnit) : State :=
  linkS { Port.off with st := .active, enable := true, tx := lanes8, rx := lanes8, rate := 3, width := 8, seq := 5, credit := 4, owed := 3
                        txPart := part, txQ := [[controlUnit 2 2 0], [7]] }

theorem witness_LinkService_ack : (getPort (ackS []) 4).txQ = [controlUnit 2 2 0] :: [[7]] ∧ isAck 7 = false ∧
    (getPort (ackS []) 4).txPart = [] ∧ (getPort (ackS []) 4).txSwitch = none ∧ (getPort (ackS []) 4).resend = 0 ∧
    (getPort (ackS []) 4).replayBuf.length < 256 ∧ 1 ≤ (getPort (ackS []) 4).credit := by decide +kernel

/-- The answer names codeword 13, eight after codeword 5 that carries it; behind ten units of another packet it leaves in codeword 6 and names
14. -/
theorem test_spare_ack_leaves : (getPort (ans (.codewordReceive 4 (cw0 false)) (ackS [])) 4).txSwitch = some (2, 13) ∧
    (match (ans (.codewordReceive 4 (cw0 false)) (ackS [])).outs with
      | .link _ q _ _ us _ :: _ => q == 5 && us.head? == some (withCredit 3 (controlUnit 2 2 13))
      | _ => false) = true ∧
    (let t := ans (.codewordReceive 4 (cw0 false)) (ackS (List.replicate 10 9))
    (getPort t 4).txSwitch = none ∧ (getPort (ans (.codewordReceive 4 (cw0 false)) t) 4).txSwitch = some (2, 14)) := by decide +kernel

/-- A port in IDENTIFY whose last good codeword was 4, the next one of its own being 9; and one in a retrain's IDENTIFY with a whole block. -/
def identS : State := linkS { Port.off with st := .identify, train := .identify, idSeq := 9, idAck := some 4, tx := lanes8, rx := lanes8 }

def reidentS : State := linkS { Port.off with
  st := .retrain, train := .identify, wasActive := true, enable := true, nonceOut := some 0, idBytes := List.replicate 4096 0 }

theorem witness_LinkBringUp_ident : (getPort identS 4).st = .identify ∧ (getPort identS 4).hold = false ∧
    identDue (getPort identS 4) 5 = true ∧ identDue (getPort identS 4) 6 = false ∧ identDue Port.off 7 = true ∧
    (getPort reidentS 4).st = .retrain ∧ (getPort reidentS 4).train = .identify ∧ (getPort reidentS 4).hold = false ∧
    4096 ≤ (getPort reidentS 4).idBytes.length := by decide +kernel

/-- The block of zeros has the ordinal of a port that has met none; whether its signature stands, falconVerify has no value for, and its key's
digest is the partner's or another. -/
theorem witness_LinkBringUp_reident : (peerOf (List.replicate 4096 0)).ordinal = (getPort reidentS 4).peer.ordinal ∧
    blockOk (getPort reidentS 4) = Config.falconVerify (List.replicate 1793 0) (List.replicate 0x788 0) [] := by
  refine ⟨by decide +kernel, ?_⟩
  have h : getPort reidentS 4 = { Port.off with
    st := .retrain, train := .identify, wasActive := true, enable := true, nonceOut := some 0, idBytes := List.replicate 4096 0 } :=
    getPort_setPort_self _ _ (by decide)
  rw [h]
  simp only [blockOk, List.drop_replicate, List.take_replicate]
  congr 1

/-- Codeword 5 is due; 6 is not and is left; one of the link is asked for again; an uncorrectable one is answered by codeword 9 with NAK. -/
theorem test_ident_codewords : (let cw good q : Codeword := { cw0 good with seq := q, ident := true }
    (getPort (ans (.codewordReceive 4 (cw true 5)) identS) 4).idAck = some 5 ∧
    (getPort (ans (.codewordReceive 4 (cw true 6)) identS) 4).idAck = some 4 ∧
    (getPort (ans (.codewordReceive 4 { cw true 5 with ident := false }) identS) 4).nak = true ∧
    (getPort (ans (.codewordReceive 4 (cw false 5)) identS) 4).idNak = true ∧
    (ans (.codewordReceive 4 (cw false 5)) identS).outs = [.ident 4 (controlBits 9 4 true) (List.replicate 10 0) 255]) := by decide +kernel

/-! ## Quill -/

/-- Spec.atQuill as a test. -/
def atQuill (s : State) (w : Nat) : Bool :=
  nibRuns s 0 && decide ((getNib s 0).quill.run = .running) && (getNib s 0).fetch == w && qDefined w &&
  decide ((getNib s 0).quill.pc % 4 = 0) && decide ((getNib s 0).quill.pc + 4 < 16384)

theorem atQuill_spec {s : State} {w : Nat} (h : atQuill s w = true) : Spec.atQuill s 0 w := by
  simp only [atQuill, Bool.and_eq_true, decide_eq_true_eq, beq_iff_eq] at h
  obtain ⟨⟨⟨⟨⟨a, b⟩, c⟩, d⟩, e⟩, f⟩ := h
  exact ⟨a, b, c, d, e, f⟩

/-- Nib 0 at the instruction `w`, these registers set. -/
def coreS (w : Nat) (regs : Tab Word32) : State := nibS (coreAt w regs)

/-- The registers that a command leaves in nib 0. -/
def sreg (c : Instr) (s : State) (r : Nat) : Word32 := tabGet 0 (getNib (ans c s) 0).quill.sregs r

/-- The PC that a command leaves. -/
def pcOf (c : Instr) (s : State) : Nat := (getNib (ans c s) 0).quill.pc

/-- Every ALU word, OP 1, RD 1, RA 2, RB 3. -/
theorem witness_QuillAlu : (List.range 15).all (fun fn =>
    atQuill (coreS (quillWord 1 1 2 3 fn) []) (quillWord 1 1 2 3 fn) && qOp (quillWord 1 1 2 3 fn) == 1 && qFn (quillWord 1 1 2 3 fn) == fn) = true := by
  decide +kernel

/-- Integer functions of 0xFFFF_FFFB (−5) and 34: shifts are by 2, 34 × −5 = −170. -/
theorem test_alu_integer : (let r c fn := sreg c (coreS (quillWord 1 1 2 3 fn) [(2, 0xFFFFFFFB), (3, 34)]) 1
    r (.aluAdd 0) 0 = 29 ∧ r (.aluSub 0) 1 = 0xFFFFFFD9 ∧ r (.aluAnd 0) 2 = 34 ∧ r (.aluOr 0) 3 = 0xFFFFFFFB ∧
    r (.aluXor 0) 4 = 0xFFFFFFD9 ∧ r (.aluSll 0) 5 = 0xFFFFFFEC ∧ r (.aluSrl 0) 6 = 0x3FFFFFFE ∧ r (.aluSra 0) 7 = 0xFFFFFFFE ∧
    r (.aluMul 0) 8 = 0xFFFFFF56 ∧ r (.aluSlt 0) 9 = 1 ∧ r (.aluSltu 0) 10 = 0) := by decide +kernel

/-- FP32: 1.5 and −0.25, then NaN and −0 against 0. -/
theorem test_alu_float : (let r c fn a b := sreg c (coreS (quillWord 1 1 2 3 fn) [(2, a), (3, b)]) 1
    r (.aluFadd 0) 13 0x3FC00000 0xBE800000 = 0x3FA00000 ∧ r (.aluFmul 0) 14 0x3FC00000 0xBE800000 = 0xBEC00000 ∧
    r (.aluFlt 0) 11 0xBE800000 0x3FC00000 = 1 ∧ r (.aluFlt 0) 11 0x7FC00000 0x3FC00000 = 0 ∧
    r (.aluFeq 0) 12 0x7FC00000 0x7FC00000 = 0 ∧ r (.aluFeq 0) 12 0x80000000 0 = 1) := by decide +kernel

/-- s0 stays zero, and the core goes on. -/
theorem test_alu_s0 : (ans (.aluAdd 0) (coreS (quillWord 1 0 2 3 0) [(2, 5)])) =
    setNib 0 (Spec.stepped 4 (coreAt (quillWord 1 0 2 3 0) [(2, 5)])) (layer State.reset) := by decide +kernel

/-- OP, RD 1, RA 2 and a 15-bit immediate. -/
def immWord (op rd ra imm : Nat) : Nat := op + 2 ^ 7 * rd + 2 ^ 12 * ra + 2 ^ 17 * imm

theorem witness_QuillImmediateAndMemory : atQuill (coreS (immWord 2 1 2 0x7FFF) []) (immWord 2 1 2 0x7FFF) = true ∧
    atQuill (coreS (immWord 3 1 2 0) []) (immWord 3 1 2 0) = true ∧ atQuill (coreS (immWord 4 1 2 0x1FFC) []) (immWord 4 1 2 0x1FFC) = true ∧
    atQuill (coreS (immWord 5 1 2 0x1FFE) []) (immWord 5 1 2 0x1FFE) = true ∧
    ((0 : Word32) + BitVec.ofInt 32 (qImm15 (immWord 4 1 2 0x1FFC))).toNat = 8188 ∧
    ((0 : Word32) + BitVec.ofInt 32 (qImm15 (immWord 5 1 2 0x1FFE))).toNat % 4 ≠ 0 ∧
    8192 ≤ ((4 : Word32) + BitVec.ofInt 32 (qImm15 (immWord 4 1 2 0x1FFC))).toNat := by decide +kernel

theorem test_immediate_and_memory : sreg (.addi 0) (coreS (immWord 2 1 2 0x7FFF) [(2, 5)]) 1 = 4 ∧
    sreg (.lui 0) (coreS (3 + 2 ^ 7 + 2 ^ 12 * 0x80001) []) 1 = 0x80001000 ∧
    tabGet 0 (getNib (ans (.sw 0) (coreS (immWord 5 1 2 0x1FFC) [(1, 0xABCD)])) 0).quill.dmem 2047 = 0xABCD ∧
    (getNib (ans (.sw 0) (coreS (immWord 5 1 2 0x1FFE) [])) 0).count.qReason = 2 ∧
    (getNib (ans (.lw 0) (coreS (immWord 4 1 2 0x1FFC) [(2, 4)])) 0).quill.run = .faulted := by decide +kernel

theorem test_load : sreg (.lw 0) (nibS { coreAt (immWord 4 1 2 4) [] with quill := { (coreAt (immWord 4 1 2 4) []).quill with dmem := [(1, 77)] } }) 1 = 77 := by
  decide +kernel

/-- Branches back by 0 words from PC 0 are taken to themselves; JAL by +4095 words ends at the last word; JALR to 16,380. -/
theorem witness_QuillControl : [6, 7, 8, 9].all (fun op => atQuill (coreS (immWord op 3 2 0) []) (immWord op 3 2 0)) = true ∧
    atQuill (coreS (0xA + 2 ^ 7 + 2 ^ 12 * 4095) []) (0xA + 2 ^ 7 + 2 ^ 12 * 4095) = true ∧
    (BitVec.ofNat 32 0 + 4 * BitVec.ofInt 32 (qImm20 (0xA + 2 ^ 7 + 2 ^ 12 * 4095))).toNat = 16380 ∧
    atQuill (coreS (immWord 0xB 1 2 0x3FFC) []) (immWord 0xB 1 2 0x3FFC) = true ∧
    ((0 : Word32) + BitVec.ofInt 32 (qImm15 (immWord 0xB 1 2 0x3FFC))).toNat = 16380 := by decide +kernel

theorem test_control : (let s op := coreS (immWord op 3 2 8) [(2, 0xFFFFFFFF), (3, 1)]
    pcOf (.beq 0) (s 6) = 4 ∧ pcOf (.bne 0) (s 7) = 32 ∧ pcOf (.blt 0) (s 8) = 32 ∧ pcOf (.bge 0) (s 9) = 4) ∧
    pcOf (.jal 0) (coreS (0xA + 2 ^ 7 + 2 ^ 12 * 4095) []) = 16380 ∧ sreg (.jal 0) (coreS (0xA + 2 ^ 7 + 2 ^ 12 * 4095) []) 1 = 4 ∧
    pcOf (.jalr 0) (coreS (immWord 0xB 2 2 0) [(2, 64)]) = 64 ∧ sreg (.jalr 0) (coreS (immWord 0xB 2 2 0) [(2, 64)]) 2 = 4 := by decide +kernel

/-- MXQ, VXQ with W0 to W3 in registers 1 to 4: an idle MMA and a VADD; full queues. -/
def fullMq (w : Nat) : Nib := { coreAt w [] with mq := List.replicate 16 ⟨0, 0, 0x40, 0, 0, 0⟩, vq := List.replicate 16 ⟨0, 0, 0x60, 0⟩ }

theorem witness_QuillIssue_queues : atQuill (coreS (quillWord 0x10 1 2 3 4) [(1, 0x40)]) (quillWord 0x10 1 2 3 4) = true ∧
    storeOrder (getNib (coreS (quillWord 0x10 1 2 3 4) [(1, 0x40)]) 0) 0x40 = false ∧
    atQuill (nibS (fullMq (quillWord 0x10 1 2 3 4))) (quillWord 0x10 1 2 3 4) = true ∧ (fullMq 0).mq.length = 16 ∧ (fullMq 0).vq.length = 16 ∧
    atQuill (coreS (quillWord 0x11 1 2 3 4) [(1, 0x60)]) (quillWord 0x11 1 2 3 4) = true := by decide +kernel

theorem test_queue : ((getNib (ans (.mxq 0) (coreS (quillWord 0x10 1 2 3 4) [(1, 0x40), (4, 5)])) 0).mq.map (fun e => e.word)) = [0x40 + 5 * 2 ^ 96] ∧
    ((getNib (ans (.vxq 0) (coreS (quillWord 0x11 1 2 3 4) [(1, 0x60)])) 0).vq.map (fun e => e.word)) = [0x60] ∧
    ans (.mxq 0) (nibS (fullMq (quillWord 0x10 1 2 3 4))) = nibS (fullMq (quillWord 0x10 1 2 3 4)) := by decide +kernel

/-- A descriptor of one row, HBM read on tag 5, at data memory address 0. -/
def dmaS : State := nibS { coreAt (immWord 0x12 0 2 0) [] with
  quill := { (coreAt (immWord 0x12 0 2 0) []).quill with dmem := [(0, BitVec.ofNat 32 (2 ^ 8 * 5 + 2 ^ 19))] } }

theorem witness_QuillIssue_dma : atQuill dmaS (immWord 0x12 0 2 0) = true ∧ descWord (getNib dmaS 0) 0 = 2 ^ 8 * 5 + 2 ^ 19 ∧
    (getNib dmaS 0).inFlight < 32 ∧ (rankOfNib [0] 0).getD 0 = 0 ∧
    (⟨0, 0, 2 ^ 8 * 5 + 2 ^ 19, 1, false, [], [], false, false, false, none, false⟩ : Desc).reason 0 = 0 ∧
    (getNib (ans (.dma 0) dmaS) 0).descs = [⟨0, 0, 2 ^ 8 * 5 + 2 ^ 19, 1, false, [], [], false, false, false, none, false⟩] ∧
    tagOf (getNib (ans (.dma 0) dmaS) 0) 5 = (1, 0) := by decide +kernel

/-- CSRR of STRAND (0), of UCLK's high word after its low one, CSRW of the flags and of MX_FB_BASE's high word. -/
theorem witness_QuillIssue_csr : atQuill (coreS (immWord 0x16 1 0 0) []) (immWord 0x16 1 0 0) = true ∧
    (csrValue (coreS (immWord 0x16 1 0 0) []) 0 0).isSome = true ∧ atQuill (coreS (immWord 0x17 0 2 7) [(2, 3)]) (immWord 0x17 0 2 7) = true ∧
    qField (immWord 0x17 0 2 7) 11 0 = 7 ∧ qField (immWord 0x17 0 2 0x11) 11 0 = 0x11 ∧
    (getNib (ans (.csrw 0) (coreS (immWord 0x17 0 2 7) [(2, 3)])) 0).tileNf = true := by decide +kernel

/-- Nib 0's core with this read latch and this low word of MX_FB_BASE. -/
def coreWith (w : Nat) (regs : Tab Word32) (l : Option (Nat × Word32)) (lo : Option Word32) : State :=
  nibS { coreAt w regs with quill := { (coreAt w regs).quill with latch := l, fbLow := lo } }

theorem test_csr : sreg (.csrr 0) (coreWith (immWord 0x16 1 0 6) [] (some (5, 99)) none) 1 = 99 ∧
    (getNib (ans (.csrw 0) (coreWith (immWord 0x17 0 2 0x11) [(2, 1)] none (some 0x200))) 0).quill.fbBase = 2 ^ 32 + 0x200 := by
  decide +kernel

/-- WSIG of counter 3, WTAG of tag 5, RSUM of field 2 of slot 1, VWAIT; what they wait for is there, or not. -/
theorem witness_QuillWaits : atQuill (coreS (immWord 0x13 3 2 0) []) (immWord 0x13 3 2 0) = true ∧ qRd (immWord 0x13 3 2 0) ≤ 15 ∧
    atQuill (coreS (immWord 0x14 0 0 5) []) (immWord 0x14 0 0 5) = true ∧ atQuill (coreS (immWord 0x15 1 0 9) []) (immWord 0x15 1 0 9) = true ∧
    atQuill (coreS (immWord 0x18 0 0 0) []) (immWord 0x18 0 0 0) = true ∧
    sigReached (coreAt 0 []) 3 0 = true ∧ sigReached (coreAt 0 []) 3 1 = false ∧ tagDone (coreAt 0 []) 5 0 = true ∧
    slotReady { coreAt 0 [] with slots := [(1, ⟨1, 2, 3, 4⟩)] } 1 = true := by decide +kernel

/-- A wait that begins, a counter that has wrapped round, and the four waits' ends. -/
theorem test_waits : (getNib (ans (.wsig 0) (coreS (immWord 0x13 3 2 0) [(2, 1)])) 0).quill.run = .waiting 4 3 1 ∧
    sigReached { coreAt 0 [] with signals := [(3, 1)] } 3 0xFFFF = true ∧
    pcOf (.wsigDone 0) (nibS { coreAt 0 [] with quill := { Quill.cold with run := .waiting 4 3 0 } }) = 4 ∧
    pcOf (.wtag 0) (coreS (immWord 0x14 0 0 5) []) = 4 ∧
    pcOf (.wtagDone 0) (nibS { coreAt 0 [] with quill := { Quill.cold with run := .waiting 5 5 0 } }) = 4 ∧
    pcOf (.vwait 0) (coreS (immWord 0x18 0 0 0) []) = 4 ∧
    pcOf (.vwaitDone 0) (nibS { coreAt 0 [] with quill := { Quill.cold with run := .waiting 7 0 0 } }) = 4 := by decide +kernel

theorem test_rsum : sreg (.rsum 0) (nibS { coreAt (immWord 0x15 1 0 9) [] with slots := [(1, ⟨1, 2, 3, 4⟩)] }) 1 = 3 ∧
    sreg (.rsumDone 0) (nibS { coreAt 0 [] with slots := [(1, ⟨1, 2, 3, 4⟩)], quill := { Quill.cold with run := .waiting 6 9 7 } }) 7 = 3 := by
  decide +kernel

/-- END of strand 0 of 40; the last strand of nib 0's; a waiting core, a head that waits on a tag, each with its watchdog set. -/
def stallS (n : Nib) : State :=
  setNib 0 n (setR (regAt .quill 0 0x40) 1 (setR (regAt .matrix 0 0x40) (2 ^ 12) (setR (regAt .vector 0 0x40) 1 (layer State.reset))))

/-- An MMA and a VLD whose tag 2 has not completed. -/
def mqWait : MxEntry := ⟨0, 0, 0x0044C040 + 2 ^ 96 * 0x840000, 1, 0, 0⟩
def vqWait : VecEntry := ⟨0, 0, 0x72 + 2 ^ 64 * 0x42, 1⟩

theorem witness_StrandEndAndStalls : atQuill (coreS 0x19 []) 0x19 = true ∧ ctxOfNib (coreS 0x19 []) 0 = some 0 ∧
    (getCtx (coreS 0x19 []) 0).record = some rec0 ∧ (getCtx (coreS 0x19 []) 0).plot = [0] ∧ (coreAt 0x19 []).pred = none ∧
    getF (stallS Nib.cold) (regAt .quill 0 0x40) 11 0 ≠ 0 ∧ getF (stallS Nib.cold) (regAt .matrix 0 0x40) 23 12 ≠ 0 ∧
    getF (stallS Nib.cold) (regAt .vector 0 0x40) 11 0 ≠ 0 ∧
    mxEntryWait { coreAt 0 [] with mq := [mqWait], tags := [(2, (1, 0))] } mqWait ≠ 0 ∧
    vxEntryWait { coreAt 0 [] with vq := [vqWait], tags := [(2, (1, 0))] } vqWait ≠ 0 := by decide +kernel

theorem test_strand_end : (getNib (ans (.strandEnd 0) (coreS 0x19 [(1, 5)])) 0).quill.strand = 16 ∧
    (getNib (ans (.strandEnd 0) (coreS 0x19 [(1, 5)])) 0).quill.sregs = [] ∧
    (getNib (ans (.strandEnd 0) (nibS { coreAt 0x19 [] with quill := { (coreAt 0x19 []).quill with strand := 32 } })) 0).quill.finished = true := by
  decide +kernel

theorem test_stalls : (getNib (ans (.quillWait 0) (stallS { coreAt 0 [] with quill := { Quill.cold with run := .waiting 4 3 1 } })) 0).quill.stalled = true ∧
    (getNib (ans (.issueStall 0) (stallS { coreAt 0 [] with mq := [mqWait], tags := [(2, (1, 0))] })) 0).mqStall = some 0 ∧
    (getNib (ans (.vecStall 0) (stallS { coreAt 0 [] with vq := [vqWait], tags := [(2, (1, 0))] })) 0).vqStall = some 0 := by decide +kernel

/-! ## Layers -/

/-- A layer about to start on grove 0: its image at 2 MiB + 0x40 has one instruction word, END, and then these bytes of data; its
control block is at 2 MiB + 4 KiB, or unmapped. -/
def startS (img : Vector Nat 5) (data : List Byte) (scb : Nat) : State :=
  let s := setPair (effAt (regAt .ctx 0 0x50)) scb (mapped 2 (onGrove { Ctx.free with st := .running, phase := .starting, record := some { rec0 with prog := 2 ^ 21 }, image := img } (runs State.reset)))
  { s with hbm := s.hbm.write (2 ^ 21 + 0x40) ([0x19, 0, 0, 0] ++ data) }

def recP : Record := { rec0 with prog := 2 ^ 21 }

/-- The state in which LAYER_START takes the image. -/
def started (s : State) : State :=
  modCtx 0 (fun y => { y with started := true }) (takeFree (modCtx 0 (fun x => { x with since := now s }) s))

/-- Whether loading is refused, or the control block, or the thinning table, or nothing. -/
def startOutcome (s : State) : Nat :=
  match loadImage 0 recP (started s) with
  | (none, _) => 1
  | (some (_, d), u) =>
    match openLitter 0 recP u with
    | (false, _) => 2
    | (true, v) =>
      match loadThin 0 recP d v with
      | (none, _) => 3
      | (some (_, p), z) => if p.isNone && (startCircle 0 recP z).1 then 4 else 5

/-- Refused as the image, the control block or the thinning table is bad; and one that starts. -/
theorem witness_LayerSequence_start :
    (getCtx (startS #v[4, 0, 0, 0, 0] [] (2 ^ 21 + 4096)) 0).record = some recP ∧
    (getCtx (startS #v[4, 0, 0, 0, 0] [] (2 ^ 21 + 4096)) 0).phase = .starting ∧
    plotReady (startS #v[4, 0, 0, 0, 0] [] (2 ^ 21 + 4096)) 0 = true ∧
    startOutcome { startS #v[4, 0, 0, 0, 0] [] (2 ^ 21 + 4096) with hbm := ⟨[], [], [], []⟩ } = 1 ∧
    startOutcome (startS #v[4, 0, 0, 0, 0] [] 0) = 2 ∧ startOutcome (startS #v[4, 4, 0, 0, 2 ^ 31] [1, 0, 0, 0x80] (2 ^ 21 + 4096)) = 3 ∧
    startOutcome (startS #v[4, 0, 0, 0, 0] [] (2 ^ 21 + 4096)) = 4 := by decide +kernel

theorem test_layer_start : (fun t : State => ((getCtx t 0).phase, (getNib t 3).quill.strand, (getNib t 3).quill.run, (getNib t 3).quill.imem))
    (ans (.layerStart 0) (startS #v[4, 0, 0, 0, 0] [] (2 ^ 21 + 4096))) = (.running, 3, .running, [(0, 0x19)]) := by decide +kernel

/-- Every nib of grove 0 has finished; three of them guessed, and missed 2 each where RERUN allows 5. -/
def endedS (pred : Option PredTable) (r : Record) : State :=
  (List.range 16).foldl (fun s n => setNib n { Nib.cold with
    quill := { Quill.cold with finished := true },
    pred := (if n < 3 then pred else none),
    actives := (if n < 3 ∧ pred.isSome then 2 else 0) } s) (onGrove { Ctx.free with st := .running, phase := .running, record := some r } (runs State.reset))

theorem witness_LayerSequence_end : (∀ n ∈ plotNibs (getCtx (endedS none rec0) 0).plot, nibEnded (getNib (endedS none rec0) n) = true) ∧
    missSum (drainPlot [0] (endedS none rec0)) [0] = none ∧ rec0.ligOp ≠ 2 ∧
    missSum (drainPlot [0] (endedS (some ⟨0, 0, 0, 0, 0⟩) { rec0 with rerun := 5 })) [0] = some 6 := by decide +kernel

/-- The completion cannot be written (VA 0 is unmapped), so the context faults with 0x0205; the dense rerun starts again. -/
theorem test_layer_end : (getCtx (ans (.layerEnd 0) (endedS none rec0)) 0).lastCode = 0x0205 ∧
    (getCtx (ans (.layerEnd 0) (endedS (some ⟨0, 0, 0, 0, 0⟩) { rec0 with rerun := 5 })) 0).phase = .starting ∧
    (getCtx (ans (.layerEnd 0) (endedS (some ⟨0, 0, 0, 0, 0⟩) { rec0 with rerun := 5 })) 0).dense = true := by decide +kernel

theorem witness_LayerSequence_replay : (getCtx (modCtx 0 (fun x => { x with phase := .replaying }) (layer State.reset)) 0).phase = .replaying ∧
    autoSpare (layer State.reset) = false ∧ awaitsReplacement (modCtx 0 (fun x => { x with phase := .replaying }) (layer State.reset)) 0 = false ∧
    (getCtx (ans (.replay 0 []) (modCtx 0 (fun x => { x with phase := .replaying }) (layer State.reset))) 0).replays = 1 := by decide +kernel

/-- A suspect layer with REPLAY = 0, the dip response over. -/
def barredS : State :=
  modCtx 0 (fun x => { x with phase := .suspect, cause := 4, record := some { rec0 with replay := false } }) (layer State.reset)

theorem witness_LayerSequence_barred : (getCtx barredS 0).st = .running ∧ (getCtx barredS 0).phase = .suspect ∧ barredS.supply.dip = false ∧
    (getCtx (ans (.replay 0 []) barredS) 0).st = .faulted ∧
    (ans (.replay 0 []) { barredS with supply := { barredS.supply with dip := true } }) =
      { barredS with supply := { barredS.supply with dip := true } } := by decide +kernel

/-! ## Wear and replacement -/

/-- SB_CFG with these values of MARGIN_PCT, AUTO_SPARE and SWEEP_SECS. -/
def bankS (cfg : Nat) : State := setR (regAt .seedbank 0 0x40) cfg (runs State.reset)

/-- Nib 5 of grove 0 retiring, its spare swept, the grove awake, free, clean, at a boundary. -/
def wearS : State :=
  setPNib 16 { PNib.cold with sweptOk := true }
    (setPNib 5 { PNib.cold with retiring := true } (setGrove 0 { Grove.cold with pw := .awake } (bankS 0x10)))

/-- The same with the grove's spare in use for nib 3. -/
def wornS : State := setGrove 0 { Grove.cold with pw := .awake, spareAt := some 3 } wearS

/-- Grove 0 retired in a plot that no layer uses; grove 1 awake and free. -/
def replaceS : State :=
  setGrove 1 { Grove.cold with pw := .awake } (setGrove 0 { Grove.cold with pw := .retired, owner := some 0 }
    (onGrove { Ctx.free with st := .parked } (bankS 0x10)))

/-- Physical nib 1087, the spare in use of grove 63, reports low for 16 ticks. -/
def lowS : State := setPNib 1087 { PNib.cold with lowTicks := 16 } (setGrove 63 { Grove.cold with spareAt := some 3 } (bankS 0x20))

/-- Grove 2 under its sweep. -/
def sweepingS : State := setGrove 2 { Grove.cold with pw := .awake } { bankS 0 with seedbank := { Seedbank.cold with sweeping := some 2 } }

/-- A sweep is due: SWEEP_SECS 1 and 50,000,000 UCLK cycles gone. -/
def sweepS : State := { bankS 0x1000 with uclk := 50000000 }

theorem witness_SeedbankUpkeep :
    getF lowS (regAt .seedbank 0 0x40) 11 5 ≠ 0 ∧ 16 ≤ (getPNib lowS 1087).lowTicks ∧ pnibServes lowS 1087 = true ∧
    (getPNib lowS 1087).retiring = false ∧ autoSpare lowS = false ∧
    autoSpare wearS = true ∧ atBoundary wearS 0 = true ∧ (∀ k, k < 17 → (getPNib wearS (17 * 0 + k)).rowsDue = []) ∧
    (getPNib wearS (physOf wearS 5)).retiring = true ∧ noSpare wearS 0 = false ∧ (getPNib wearS (17 * 0 + 16)).sweptOk = true ∧
    noSpare wornS 0 = true ∧ (getPNib wornS (physOf wornS 5)).retiring = true ∧ atBoundary wornS 0 = true ∧ autoSpare wornS = true ∧
    wornS.supply.dip = false ∧ (getPNib lowS 1087).failed = false ∧ (getGrove wearS 0).pw ≠ .retired ∧ heirOf replaceS 1 = none ∧
    (getCtx replaceS 0).phase = .none ∧ groveFree sweepS 63 = true ∧ tabWf Nib.cold wearS.nibs = true ∧
    (getGrove replaceS 0).owner = some 0 ∧ (getGrove replaceS 0).pw = .retired ∧ 0 ∈ (getCtx replaceS 0).plot ∧
    groveAvail replaceS 1 = true ∧ (getGrove replaceS 1).owner = none ∧ replaceS.seedbank.sweeping ≠ some 1 ∧
    getF sweepS (regAt .seedbank 0 0x40) 23 12 = 1 ∧ sweepS.seedbank.sweepAt + 1 * 50000000 ≤ sweepS.uclk ∧
    groveAvail sweepS 63 = true ∧ (getGrove sweepS 63).owner = none ∧ (getGrove sweepS 63).dirty = false ∧
    (∀ g, g < 64 → groveFree { sweepS with groves := Vector.replicate 64 { Grove.cold with dirty := true } } g = false) ∧
    (getGrove sweepingS 2).pw = .awake ∧ autoSpare sweepingS = false := by
  decide +kernel

theorem test_transplant : physOf (ans (.nibTransplant 5) wearS) 5 = 16 ∧ (getPNib (ans (.nibTransplant 5) wearS) 5).retired = true ∧
    (getGrove (ans (.nibTransplant 5) wornS) 0).pw = .retired ∧ (getPNib (ans (.marginLow 1087) lowS) 1087).retiring = true := by decide +kernel

theorem test_replace : (getCtx (ans (.groveReplace 0 1) replaceS) 0).plot = [1] ∧
    (getGrove (ans (.groveReplace 0 1) replaceS) 1).owner = some 0 ∧ (getGrove (ans (.groveReplace 0 1) replaceS) 0).owner = none := by
  decide +kernel

theorem test_sweep : (ans .sweep sweepS).seedbank.sweeping = some 0 ∧ (ans .sweep sweepS).seedbank.sweepAt = 50000000 ∧
    (ans (.sweepEnd 2 ⟨[], [], []⟩) sweepingS).seedbank.lastOk = true ∧ (ans (.sweepEnd 2 ⟨[], [], [34]⟩) sweepingS).seedbank.lastOk = false ∧
    (getPNib (ans (.sweepEnd 2 ⟨[(50, 7)], [], []⟩) sweepingS) 50).failed = true ∧
    (getPNib (ans (.sweepEnd 2 ⟨[(50, 7)], [], []⟩) sweepingS) 50).remap = [] := by
  decide +kernel

/-! ## The matrix queue -/

/-- Nib 0 scrubbed, with these rows and this matrix queue; GATHER_TIMEOUT 4. -/
def mxNib (rows : List (Nat × Nat)) (ws : List Nat) : Nib :=
  { Nib.cold with
    zeroed := true
    rows := rows.map (fun p => (p.1, some ⟨BitVec.ofNat 4096 p.2, []⟩))
    mq := ws.zipIdx.map (fun p => ⟨p.2, 0, p.1, 0, 0, 0⟩) }

def mxS (n : Nib) : State := setNib 0 n (setR (regAt .matrix 0 0x40) 4 (layer State.reset))

/-- Array 3's accumulator row 63 holds 1 in entry 0, anchor 5. -/
def acc3 : AccRow := ⟨some 5, 1, false, 0, vset AccRow.clear.entries 0 ⟨1, false, false, false⟩⟩

/-- Spec.mxHead as a test. -/
def mxHead (s : State) (o : Nat) : Bool := match (getNib s 0).mq with
  | [] => false
  | e :: _ => nibRuns s 0 && mxOp e.word == o && (getNib s 0).gather == 0 && mxEntryWait (getNib s 0) e == 0

/-- ACCCLR of rows 60 to 63 of arrays 2 and 3. -/
def clrWord : Nat := 0x49 + 2 ^ 8 * 12 + 2 ^ 12 * 60 + 2 ^ 18 * 4
def clrS : State := mxS { mxNib [] [clrWord] with acc := [(3 * 64 + 63, acc3), (3 * 64 + 59, acc3)].reverse }

/-- BF16, one row into row 63 of array 3, CLR, W_ROW 16, anchor 0. -/
def mmaWord (m : Nat) (gather : Bool) : Nat :=
  0x40 + 2 ^ 8 + 2 ^ 11 + 2 ^ 14 * 8 + 2 ^ 18 * m + 2 ^ 25 * (64 - m) + 2 ^ 31 + (if gather then 2 ^ 38 else 0) + 2 ^ 64 * 16
/-- Activation 1.0 against weights 2.0 and −0.5 (BF16 0x3F80, 0x4000, 0xBF00). -/
def mmaS (gather : Bool) (m : Nat) : State := mxS (mxNib [(0, 0x3F80), (19, 0x4000 + 2 ^ 256 * 0xBF00)] [mmaWord m gather])

theorem witness_MatrixIssue_clear : tabWf Nib.cold clrS.nibs = true ∧ tabWf AccRow.clear (getNib clrS 0).acc = true ∧ mxHead clrS 0x49 = true ∧
    (AccClr.ofWord clrWord).reason = 0 ∧ (AccClr.ofWord clrWord).acc + (AccClr.ofWord clrWord).n = 64 := by decide +kernel

theorem test_accclr : (getNib (ans (.accclrIssue 0) clrS) 0).accRow 3 63 = AccRow.clear ∧
    (getNib (ans (.accclrIssue 0) clrS) 0).accRow 3 59 = acc3 := by decide +kernel

theorem witness_MatrixIssue_mma : mxHead (mmaS false 1) 0x40 = true ∧ isSparse [] (mmaWord 1 false) = false ∧
    opensGroup (mmaS false 1) (getNib (mmaS false 1) 0) (mmaWord 1 false) = false ∧
    (Mma.ofWord (mmaWord 1 false)).reason (holds (getNib (mmaS false 1) 0)) = 0 ∧ (Mma.ofWord (mmaWord 1 false)).idle = false ∧
    (Mma.ofWord (mmaWord 1 false)).clr = true ∧
    (match (getNib (mmaS false 1) 0).feedRows (Mma.ofWord (mmaWord 1 false)).rows with
      | .ok ds => ds.length == 2
      | _ => false) = true ∧ opensGroup (mmaS true 1) (getNib (mmaS true 1) 0) (mmaWord 1 true) = true ∧
    opensGroup (mmaS true 16) (getNib (mmaS true 16) 0) (mmaWord 16 true) = false := by decide +kernel

/-- The same without CLR over a row of anchor 5, or of anchor 0 with 2²⁰ instructions in it. -/
def mmaBad (r : AccRow) : State :=
  mxS { mxNib [(0, 0x3F80), (19, 0x4000 + 2 ^ 256 * 0xBF00)] [mmaWord 1 false - 2 ^ 31] with acc := [(3 * 64 + 63, r)] }

theorem witness_MatrixIssue_refused : mxHead (mmaBad acc3) 0x40 = true ∧ (Mma.ofWord (mmaWord 1 false - 2 ^ 31)).clr = false ∧
    (Mma.ofWord (mmaWord 1 false - 2 ^ 31)).reason (holds (getNib (mmaBad acc3) 0)) = 0 ∧ (Mma.ofWord (mmaWord 1 false - 2 ^ 31)).idle = false ∧
    accCheck ((getNib (mmaBad acc3) 0).mmaRows (Mma.ofWord (mmaWord 1 false - 2 ^ 31))) 0 1 = some .anchor ∧
    accCheck ((getNib (mmaBad { acc3 with tag := some 0, depth := 2 ^ 20 }) 0).mmaRows (Mma.ofWord (mmaWord 1 false - 2 ^ 31))) 0 1 = some .depth := by
  decide +kernel

theorem test_mma_refused : bit (getR (ans (.mmaIssue 0 []) (mmaBad acc3)) (regAt .numeric 0 0x10)) 2 = true ∧
    bit (getR (ans (.mmaIssue 0 []) (mmaBad { acc3 with tag := some 0, depth := 2 ^ 20 })) (regAt .numeric 0 0x10)) 3 = true := by
  decide +kernel

/-- 1 × 2 and 1 × −0.5 with anchor 0: 2 × 2⁴⁴ and −2⁴³. -/
theorem test_mma : (fun r : AccRow => (r.tag, r.depth, (vget AccEntry.clear r.entries 0).sum.toInt, (vget AccEntry.clear r.entries 1).sum.toInt, r.maxProd))
    ((getNib (ans (.mmaIssue 0 []) (mmaS false 1)) 0).accRow 3 63) = (some 0, 1, 2 * 2 ^ 44, -2 ^ 43, 1) := by decide +kernel

/-- An open group with two members, the second joining; it is due when its time is out. -/
def groupS : State := mxS { mxNib [(0, 0x3F80), (19, 0x4000)] [mmaWord 1 true, mmaWord 1 true] with gather := 1 }

theorem witness_MatrixIssue_group : nibRuns groupS 0 = true ∧ (getNib groupS 0).gather ≠ 0 ∧
    groupDue (growGroup { mxNib [] [mmaWord 1 true, mmaWord 1 false] with gather := 1 } 16) = true := by decide +kernel

theorem test_gather : (getNib (ans (.mmaIssue 0 []) (mmaS true 1)) 0).gather = 1 ∧
    (getNib (ans (.gatherPass 0 true []) groupS) 0).mq.length + (getNib (ans (.gatherPass 0 true []) groupS) 0).count.mmas = 2 ∧
    (getNib (ans (.gatherPass 0 true []) groupS) 0).gather = 0 := by decide +kernel

/-- A compacted tile of one entry: header at row 3,200 with TOTAL 1 and ROWCNT[0] 1, run 0, value 1.0; the record at position 0 of GB 0
has 2.0 first. The MMA is the worked example's of chapter 07. -/
def hubWord : Nat := 0x8043C940 + 2 ^ 32 * 0x32000600 + 2 ^ 96 * 0x00840000
def sparseS : State := mxS { mxNib [(0, 0x4000), (3200, 1 + 2 ^ 32), (3201, 0), (3202, 0x3F80)] [hubWord] with regions := [0x81E7FC80] }

theorem witness_MatrixIssue_sparse : mxHead sparseS 0x40 = true ∧ regionOf [0x81E7FC80] (Mma.ofWord hubWord).aRow = some 0x81E7FC80 ∧
    (Mma.ofWord hubWord).shapeReason = 0 ∧ (Mma.ofWord hubWord).sparseReason = 0 ∧ (Mma.ofWord hubWord).idle = false ∧
    streamRows (Mma.ofWord hubWord) (sparseHead (BitVec.ofNat 4096 (1 + 2 ^ 32))) = [3201, 3202] ∧
    runsCompacted sparseS 0x81E7FC80 1 = true := by decide +kernel

theorem test_sparse_mma : (vget AccEntry.clear ((getNib (ans (.sparseMmaIssue 0 []) sparseS) 0).accRow 0 0).entries 0).sum.toInt = 2 ^ 39 ∧
    ((getNib (ans (.sparseMmaIssue 0 []) sparseS) 0).accRow 0 0).depth = 128 := by decide +kernel

/-- READOUT of row 63 of array 3 with CLR, to the finished-tile queue, and to row 4,095 in FP32. -/
def readWord (dest : Bool) : Nat := 0x48 + 2 ^ 8 * 3 + 2 ^ 10 * 63 + 2 ^ 16 + (if dest then 2 ^ 26 else 0) + 2 ^ 27 + 2 ^ 32 * 4095
def readS (dest : Bool) : State :=
  mxS { mxNib [] [readWord dest] with acc := [(3 * 64 + 63, { acc3 with entries := vset AccRow.clear.entries 15 ⟨2 ^ 39, false, false, false⟩ })] }

theorem witness_MatrixIssue_readout : mxHead (readS false) 0x48 = true ∧ mxHead (readS true) 0x48 = true ∧ (Readout.ofWord (readWord true)).reason = 0 ∧
    (Readout.ofWord (readWord false)).reason = 0 ∧ (Readout.ofWord (readWord true)).n = 1 ∧ (Readout.ofWord (readWord true)).sr = false ∧
    wantFeedback (readS true) 0 = false ∧ tabWf (some (⟨0, []⟩ : RowCell)) (getNib (readS true) 0).rows = true := by decide +kernel

/-- 2³⁹ at anchor 5 is 2⁰. -/
theorem test_readout : ((getNib (ans (.readoutIssue 0) (readS false)) 0).ftq.map (fun t => t.rows)) = [[BitVec.ofNat 512 (0x3F800000 * 2 ^ 480)]] ∧
    (getNib (ans (.readoutIssue 0) (readS true)) 0).readRow 4095 = .ok (BitVec.ofNat 4096 (0x3F800000 * 2 ^ 480)) ∧
    (getNib (ans (.readoutIssue 0) (readS true)) 0).accRow 3 63 = AccRow.clear := by decide +kernel

/-! ## The vector engine -/

/-- A vector word: OP, DST 4, SRCA 1, SRCB 2, SRCC 3, one row, with words 1 to 3. -/
def vecWord (op w1 w2 w3 : Nat) : Nat := op + 2 ^ 8 * 4 + 2 ^ 12 + 2 ^ 16 * 2 + 2 ^ 20 * 3 + 2 ^ 24 + 2 ^ 32 * w1 + 2 ^ 64 * w2 + 2 ^ 96 * w3

/-- Nib 0 with this vector queue and a, b, c in lane 0 of row 0 of tile registers 1, 2 and 3. -/
def vecNib (w a b c : Nat) : Nib :=
  { Nib.cold with
    zeroed := true
    vq := [⟨0, 0, w, 0⟩]
    tiles := [(16, BitVec.ofNat 2048 a), (32, BitVec.ofNat 2048 b), (48, BitVec.ofNat 2048 c)] }

/-- Spec.vecHead as a test. -/
def vecHead (n : Nib) (o : Nat) : Bool := match n.vq with
  | [] => false
  | e :: _ => nibRuns (nibS n) 0 && vxOp e.word == o && vxEntryWait n e == 0 && vxReason n e.word == 0 &&
      tabWf Nib.cold (nibS n).nibs && tabWf (0 : Lanes) n.tiles

/-- Lane 0 of row 0 of DST after a command. -/
def dst0 (c : Instr) (n : Nib) : Nat := lane ((getNib (ans c (nibS n)) 0).tileRow 4 0) 0

/-- A function table whose c0 is 2.0 in segment 0. -/
def table2 : List Row := [0x3F80000000000000, 0x40000000, 0, 0, 0, 0, 0]

theorem witness_VectorElements : ((List.range 17).all (fun k => k == 15 || vecHead (vecNib (vecWord (0x60 + k) 0 0 0) 1 1 1) (0x60 + k)) &&
    vecHead { vecNib (vecWord 0x6F 0 0 0) 1 1 1 with fn0 := some table2 } 0x6F && vecHead (vecNib (vecWord 0x71 0 0 0) 1 1 1) 0x71 &&
    vecHead (vecNib (vecWord 0x70 0 0 0 + 2 ^ 24 * 15) 1 1 1) 0x70) = true := by decide +kernel

/-- R133 on 1.5, −0.25 and 2.0, with −0 and NaN where they are special. -/
theorem test_vec_arith : dst0 (.vadd 0) (vecNib (vecWord 0x60 0 0 0) 0x3FC00000 0xBE800000 0) = 0x3FA00000 ∧
    dst0 (.vsub 0) (vecNib (vecWord 0x61 0 0 0) 0x3FC00000 0xBE800000 0) = 0x3FE00000 ∧
    dst0 (.vmul 0) (vecNib (vecWord 0x62 0 0 0) 0x3FC00000 0xBE800000 0) = 0xBEC00000 ∧
    dst0 (.vfma 0) (vecNib (vecWord 0x63 0 0 0) 0x3FC00000 0xBE800000 0x40000000) = 0x3FD00000 ∧
    dst0 (.vmax 0) (vecNib (vecWord 0x64 0 0 0) 0x80000000 0 0) = 0 ∧ dst0 (.vmin 0) (vecNib (vecWord 0x65 0 0 0) 0 0x80000000 0) = 0x80000000 ∧
    dst0 (.vabs 0) (vecNib (vecWord 0x66 0 0 0) 0xBFC00000 0 0) = 0x3FC00000 ∧ dst0 (.vneg 0) (vecNib (vecWord 0x67 0 0 0) 0 0 0) = 0x80000000 := by
  decide +kernel

/-- 1/3, √2, 1/√4, 2⁻³, log₂ 8 (the other lanes 1.0: of ±0 VLOG2 states no result), and the rest. -/
theorem test_vec_functions : dst0 (.vrcp 0) (vecNib (vecWord 0x68 0 0 0) 0x40400000 0 0) = 0x3EAAAAAB ∧
    dst0 (.vsqrt 0) (vecNib (vecWord 0x69 0 0 0) 0x40000000 0 0) = 0x3FB504F3 ∧
    dst0 (.vrsqrt 0) (vecNib (vecWord 0x6A 0 0 0) 0x40800000 0 0) = 0x3F000000 ∧
    dst0 (.vexp2 0) (vecNib (vecWord 0x6B 0 0 0) 0xC0400000 0 0) = 0x3E000000 ∧
    dst0 (.vlog2 0) (vecNib (vecWord 0x6C 0 0 0) (0x1800000 + 0x3F800000 * ((2 ^ 2048 - 1) / (2 ^ 32 - 1))) 0 0) = 0x40400000 ∧
    dst0 (.vcmplt 0) (vecNib (vecWord 0x6D 0 0 0) 0xBF800000 0x7FC00000 0) = 0 ∧
    dst0 (.vsel 0) (vecNib (vecWord 0x6E 0 0 0) 5 6 0x7FC00000) = 5 ∧ dst0 (.vmov 0) (vecNib (vecWord 0x70 0 0 0) 7 0 0) = 7 ∧
    dst0 (.vfn 0) { vecNib (vecWord 0x6F 0 0 0) 0 0 0 with fn0 := some table2 } = 0x40000000 := by decide +kernel

/-- With BSCAL the scalar of word 2 stands for SRCB. -/
theorem test_vec_scalar : dst0 (.vadd 0) (vecNib (vecWord 0x60 0 0x40000000 0 + 2 ^ 29) 0x3FC00000 0xBE800000 0) = 0x40600000 := by decide +kernel

/-- VRNG of tensor 0 at seed, layer and step 0: the known answer's high 24 bits, 0x6627E8 × 2⁻²⁴. -/
theorem test_vrng : dst0 (.vrng 0) (vecNib (vecWord 0x71 0 0 0) 0 0 0) = round32 (.fin false 0x6627E8 (-24)) := by decide +kernel

/-- VLD and VST of BF16 at row 8; VTLOAD of table 1 from row 20. -/
theorem witness_VectorTransfers_rows : vecHead (vecNib (vecWord 0x72 (8 + 2 ^ 12) 0 0) 1 1 1) 0x72 = true ∧
    vecHead (vecNib (vecWord 0x73 (8 + 2 ^ 12) 0 0) 1 1 1) 0x73 = true ∧ vxScaleRows (vecWord 0x73 (8 + 2 ^ 12) 0 0) = [] ∧
    vxRows (vecWord 0x73 (8 + 2 ^ 12) 0 0) ≠ 0 ∧ vxSr (vecWord 0x73 (8 + 2 ^ 12) 0 0) = false ∧
    tabWf (some (⟨0, []⟩ : RowCell)) (vecNib 0 1 1 1).rows = true ∧ vecHead (vecNib (vecWord 0x78 (20 + 2 ^ 12) 0 0) 1 1 1) 0x78 = true ∧
    vxReads (vecWord 0x78 (20 + 2 ^ 12) 0 0) = [20, 21, 22, 23, 24, 25, 26] ∧
    (match (vecNib 0 1 1 1).readRows [20, 21] with
      | .ok ds => ds.length == 2
      | _ => false) = true := by decide +kernel

theorem test_vld_vst : dst0 (.vld 0 []) { vecNib (vecWord 0x72 (8 + 2 ^ 12) 0 0) 0 0 0 with rows := [(8, some ⟨0x3FC0, []⟩)] } = 0x3FC00000 ∧
    (getNib (ans (.vst 0 []) (nibS (vecNib (vecWord 0x73 (8 + 2 ^ 12) 0 0) 0x3FC00000 0 0))) 0).readRow 8 = .ok 0x3FC0 ∧
    (getNib (ans (.vtload 0 []) (nibS (vecNib (vecWord 0x78 (20 + 2 ^ 12) 0 0) 0 0 0))) 0).fn1 = some (List.replicate 7 0) := by decide +kernel

/-- A finished tile of array 1 with one row. -/
def tile1 : Tile := ⟨1, [BitVec.ofNat 512 0x3F800000], true, false⟩

theorem witness_VectorTransfers_vpop : vecHead { vecNib (vecWord 0x74 0 0 0) 1 1 1 with ftq := [tile1] } 0x74 = true ∧
    lane ((getNib (ans (.vpop 0) (nibS { vecNib (vecWord 0x74 0 0 0) 0 0 0 with ftq := [tile1] })) 0).tileRow 4 0) 16 = 0x3F800000 ∧
    (getNib (ans (.vpop 0) (nibS { vecNib (vecWord 0x74 0 0 0) 0 0 0 with ftq := [tile1] })) 0).tileOvf = true := by decide +kernel

/-- SUM alone, and into the accumulator after a clear, with anchor 5; a MAX; a VSUM into slot 3 with CLRF. -/
theorem witness_VectorTransfers_reduce : vecHead (vecNib (vecWord 0x75 (2 ^ 6 * 5) 0 0) 1 1 1) 0x75 = true ∧
    vecHead (vecNib (vecWord 0x76 (2 ^ 3 * 2 + 2 ^ 5 + 2 ^ 6 * 5) 0 0) 1 1 1) 0x76 = true ∧
    redCheck (vecWord 0x75 (2 ^ 6 * 5) 0 0) ((redInputs true (vecNib 0 1 1 1) (vecWord 0x75 (2 ^ 6 * 5) 0 0)).map (fun p => (RedEntry.clear, p.2.length))) = none ∧
    tabWf RedEntry.clear (vecNib 0 1 1 1).red = true ∧ vecHead (vecNib (vecWord 0x77 7 0 0) 1 1 1) 0x77 = true := by decide +kernel

theorem test_reduce : dst0 (.vredr 0) (vecNib (vecWord 0x75 (2 ^ 6 * 5) 0 0) (0x3FC00000 + 2 ^ 32 * 0x40000000) 0 0) = 0x40600000 ∧
    dst0 (.vredc 0) (vecNib (vecWord 0x76 (2 ^ 3 * 2 + 2 ^ 5 + 2 ^ 6 * 5) 0 0) (0x3FC00000 + 2 ^ 32 * 0x40000000) 0 0) = 0x3FC00000 ∧
    ((getNib (ans (.vredc 0) (nibS (vecNib (vecWord 0x76 (2 ^ 3 + 2 ^ 6 * 5) 0 0) 0x3FC00000 0 0))) 0).redEntry 0).count = 1 := by decide +kernel

theorem test_vsum : (fun x : Summary => (x.sum, x.count, x.flags)) ((tabFind? (getNib (ans (.vsum 0)
    (nibS (vecNib (vecWord 0x77 (7 + 2 ^ 3 * 5) 0 0) (0x3FC00000 + 2 ^ 32 * 0x40000000) 0 0))) 0).slots 3).getD ⟨0, 0, 0, 0⟩) = (0x40600000, 2, 0) := by
  decide +kernel

/-! ## DMA -/

/-- A descriptor of one row with place 7 in program order: KIND, local row 9, remote row 11 of rank 3, virtual address 2 MiB + 512. -/
def desc1 (kind : Nat) : Desc :=
  ⟨7, 0, kind + 2 ^ 8 * 5 + 2 ^ 19 + 2 ^ 32 * 9 + 2 ^ 64 * 11 + 2 ^ 80 * 3 + 2 ^ 128 * (2 ^ 21 + 512), 1, false, [], [], false, false, false, none, false⟩

/-- Nib 0 with one descriptor, page 1 of HBM cached writable at 2 MiB, and 0xAB in row 9, 0xCD in row 11. -/
def dmaNib (d : Desc) : Nib :=
  { Nib.cold with
    zeroed := true
    rows := [(9, some ⟨0xAB, []⟩), (11, some ⟨0xCD, []⟩)]
    descs := [d]
    tags := [(5, (1, 0))]
    tlb := [(1, 3 * 2 ^ 21, true)] }
def dma1 (kind : Nat) : State := nibS (dmaNib (desc1 kind))

theorem witness_DmaIssue : (List.range 5).all (fun k => nibRuns (dma1 k) 0 && mayStart (dmaNib (desc1 k)) (desc1 k) && (desc1 k).rows == 1 &&
      !(desc1 k).signal && (desc1 k).kind == k && decide (nextRow (dma1 k) 0 (desc1 k) = some 0) && tagFree (dma1 k) 0 (desc1 k) 0 &&
      !sourceWaits (dmaNib (desc1 k)) (desc1 k) 9) = true ∧
    ctxOfNib (dma1 0) 0 = some 0 ∧ (dmaNib (desc1 0)).desc? 7 = some (desc1 0) ∧
    rowGo (dma1 0) 0 0 (desc1 0) 0 = .hbm (3 * 2 ^ 21 + 512) ∧ rowGo (dma1 1) 0 0 (desc1 1) 0 = .hbm (3 * 2 ^ 21 + 512) ∧
    ((desc1 0).addr 0).toNat < aperture ∧ getF (dma1 0) (regAt .dma 0 0x40) 7 0 = 0 ∧ (dmaNib (desc1 1)).readRow 9 = .ok 0xAB ∧
    (dmaNib (desc1 2)).readRow 11 = .ok 0xCD ∧ nibOfRank (getCtx (dma1 3) 0).plot 3 = some 3 := by decide +kernel

/-- What is under way after a row has gone out: (kind, state, place, flits). -/
def under (s : State) : List (XKind × XSt × Nat × Nat) := s.canopy.xfers.map (fun x => (x.kind, x.st, x.place, s.canopy.flits.length))

theorem test_dma_issue : under (ans (.descHbmRead 0 7) (dma1 0)) = [(.read, .req, 3 * 2 ^ 21 + 512, 1)] ∧
    under (ans (.descHbmWrite 0 7 []) (dma1 1)) = [(.write, .flying, 3 * 2 ^ 21 + 512, 8)] := by decide +kernel

theorem test_dma_issue_nibs : under (ans (.descLocalCopy 0 7 []) (dma1 2)) = [(.local, .arrived, 0, 0)] ∧
    under (ans (.push 0 7 []) (dma1 3)) = [(.push, .flying, 3, 8)] ∧ under (ans (.pull 0 7) (dma1 4)) = [(.pull, .req, 3, 1)] := by decide +kernel

/-- The same descriptor, started, with no translation cached, its context's table mapping 2 MiB. -/
def walkS : State :=
  setNib 0 { dmaNib { desc1 0 with started := true } with tlb := [] } (mapped 2 (layer State.reset))

theorem witness_DmaIssue_walk : nextRow walkS 0 { desc1 0 with started := true } = some 0 ∧
    rowGo walkS 0 0 { desc1 0 with started := true } 0 = .walk (2 ^ 21 + 512) ∧
    (walk 0 (2 ^ 21 + 512) walkS).1 = .ok (2 ^ 21 + 512) true true ∧
    (getNib (ans (.ptWalk 0 7) walkS) 0).cached 0 (2 ^ 21) = some (2 ^ 21, true) := by decide +kernel

/-- A read's row that has come; a push that has come to nib 3; a pull's request at nib 3. -/
def landS (kind : Nat) (x : XKind) (st : XSt) (place : Nat) : State :=
  { nibS (dmaNib { desc1 kind with started := true }) with canopy := ⟨[], 0, [], [⟨0, 7, 0, 0, x, st, place, 11, 0x55, 0, none⟩], []⟩ }

theorem witness_DmaLanding : nibMoves (landS 0 .read .arrived 0) 0 = true ∧ (dmaNib { desc1 0 with started := true }).mayLand { desc1 0 with started := true } 0 = true ∧
    (findXfer (landS 0 .read .arrived 0) 0 7 0).isSome = true ∧ (desc1 0).transpose = false ∧
    tabWf (some (⟨0, []⟩ : RowCell)) (dmaNib (desc1 0)).rows = true ∧ descReady { desc1 0 with started := true, landed := [0] } = true ∧
    tabWf ((0, 0) : Nat × Nat) (dmaNib (desc1 0)).tags = true ∧ (desc1 3).signal = false ∧
    tabWf (none : Option RowCell) (getNib (landS 3 .push .arrived 3) 3).rows = true ∧
    (getNib (setNib 3 (dmaNib (desc1 0)) (landS 4 .pull .travel 3)) 3).readRow 11 = .ok 0xCD ∧
    getF (setR (regAt .dma 0 0x40) (2 ^ 8) (dma1 0)) (regAt .dma 0 0x40) 19 8 = 1 := by decide +kernel

theorem test_dma_land : (getNib (ans (.dmaRowLand 0 7 0) (landS 0 .read .arrived 0)) 0).readRow 9 = .ok 0x55 ∧
    tagOf (getNib (ans (.descriptorComplete 0 7) (nibS (dmaNib { desc1 0 with started := true, landed := [0] }))) 0) 5 = (1, 1) ∧
    (getNib (ans (.remotePushArrive 0 7 0) (landS 3 .push .arrived 3)) 3).readRow 11 = .ok 0x55 ∧
    (ans (.pullServe 0 7 0 []) (setNib 3 (dmaNib (desc1 0)) (landS 4 .pull .travel 3))).canopy.flits.length = 8 ∧
    ((getNib (ans (.dmaStall 0 7) (setR (regAt .dma 0 0x40) (2 ^ 8) (dma1 0))) 0).descs.map (fun d => d.stalled)) = [true] := by decide +kernel

/-! ## The Canopy and the memory controllers -/

/-- Part 0 of nib 0's row, at the west input of (15, 4) on plane A, on its way to `dst`. -/
def flit0 (dst : Nat) : Flit := ⟨0, 0, 7, 0, 0, 0, 32 * 4, 32 * 4 + 15, dst, 0, 0, 4⟩

def flitS (dst : Nat) : State :=
  let s := landS 0 .read .flying 0
  { s with canopy := { s.canopy with flits := [flit0 dst] } }

theorem witness_CanopyTransport_flit : flitBehind (flitS (32 * 4 + 16)) (flit0 (32 * 4 + 16)) = false ∧
    portServed (flitS (32 * 4 + 16)) (flit0 (32 * 4 + 16)) = true ∧
    seamOf 0 (32 * 4 + 15) (nextRouter 0 (32 * 4 + 15) (32 * 4 + 31)) = some 8 ∧ seamShut (flitS (32 * 4 + 31)) 8 = false ∧
    seamThresh (flitS (32 * 4 + 31)) = 0 ∧ nextRouter 0 (32 * 4 + 15) (32 * 4 + 31) ≠ 32 * 4 + 31 ∧
    seamOf 0 (32 * 4 + 15) (nextRouter 0 (32 * 4 + 15) (32 * 4)) = none ∧ (flit0 (32 * 4 + 15)).at_ = (flit0 (32 * 4 + 15)).dst ∧
    flitBehind (flitS (32 * 4 + 15)) (flit0 (32 * 4 + 15)) = false ∧ portServed (flitS (32 * 4 + 15)) (flit0 (32 * 4 + 15)) = true ∧
    (findXfer (flitS (32 * 4 + 15)) 0 7 0).isSome = true ∧
    (let s := { flitS (32 * 4 + 31) with canopy := { (flitS (32 * 4 + 31)).canopy with seams := [(8, { SeamDir.zero with drain := some 1 })] } };
      seamShut s 8 = true ∧ portServed s (flit0 (32 * 4 + 31)) = true ∧ flitBehind s (flit0 (32 * 4 + 31)) = false) := by decide +kernel

theorem test_flit : ((ans (.flitArrive 0 true 0) (flitS (32 * 4))).canopy.flits.map (fun f => f.at_)) = [32 * 4 + 14] ∧
    ((ans (.flitArrive 0 true 0) (flitS (32 * 4 + 15))).canopy.xfers.map (fun x => x.parts)) = [1] ∧
    (ans (.flitArrive 0 false 0) (flitS (32 * 4))).canopy.xfers = [] ∧
    (getSeam (ans (.flitArrive 0 true 0) (flitS (32 * 4 + 31))) 8).flits = 1 := by decide +kernel

/-- Link-direction 8 at a threshold of 2 with two failures among its last flits; with every spare used; draining for wire 567. -/
def seamS (d : SeamDir) : State :=
  let s := setR (regAt .canopy 0 0x40) (2 * 2 ^ 8) (runs State.reset)
  { s with canopy := ⟨[], 0, [(8, d), (72, { SeamDir.zero with failed := true })], [], []⟩ }

theorem witness_CanopyTransport_seam : seamDue (seamS ⟨7, false, 2, 9, [3, 9], none⟩) 8 = true ∧ seamDue (seamS ⟨255, false, 2, 9, [3, 9], none⟩) 8 = true ∧
    (freeSpare ⟨7, false, 2, 9, [3, 9], none⟩).isSome = true ∧ freeSpare ⟨255, false, 2, 9, [3, 9], none⟩ = none ∧
    (getSeam (seamS ⟨255, false, 2, 9, [3, 9], none⟩) (otherPlane 8)).failed = true ∧
    (getSeam (seamS ⟨5, false, 2, 9, [], some 567⟩) 8).drain = some 567 ∧ freeSpare ⟨5, false, 2, 9, [], some 567⟩ = some 1 := by decide +kernel

theorem test_seam : (getSeam (ans (.seamErrorThreshold 8 567) (seamS ⟨7, false, 2, 9, [3, 9], none⟩)) 8).drain = some 567 ∧
    (ans (.seamErrorThreshold 8 567) (seamS ⟨255, false, 2, 9, [3, 9], none⟩)).boot.stopping = some 0x20 ∧
    (ans (.seamSwitch 8) (seamS ⟨5, false, 2, 9, [], some 567⟩)).seedbank.entries =
      [BitVec.ofNat 64 (mapEntry 5 (8 + 2 ^ 8 * 567 + 2 ^ 18))] := by decide +kernel

/-- A request's flit leaves its last router. -/
theorem test_request_flit : ((ans (.flitArrive 0 true 0) (let s := landS 0 .read .req 0
    { s with canopy := { s.canopy with flits := [{ flit0 (32 * 4 + 15) with part := 8 }] } })).canopy.xfers.map (fun x => x.st)) = [.travel] := by
  decide +kernel

/-- Two flits for one output port: the port served last was input 0, so input 4 is next, and then input 0 again. -/
theorem test_round_robin : (let g : Flit := { flit0 (32 * 4) with id := 1, port := 0, src := 32 * 4 + 15 }
    let s := { flitS (32 * 4) with canopy := { (flitS (32 * 4)).canopy with flits := [flit0 (32 * 4), g] } }
    portServed s g = false ∧ portServed s (flit0 (32 * 4)) = true ∧
    portServed { s with canopy := { s.canopy with robin := [(robinKey s g, 4)] } } g = true) := by decide +kernel

/-- R30, R37: over a failed link-direction a flit is served by the other plane's router, at the port for detours, and a CRC failure names the
link-direction that it crossed, 72 for 8. -/
theorem test_detour : (let s := { flitS (32 * 4 + 31) with canopy := { (flitS (32 * 4 + 31)).canopy with seams := [(8, { SeamDir.zero with failed := true })] } }
    inPort s (flit0 (32 * 4 + 31)) = 5 ∧ robinKey s (flit0 (32 * 4 + 31)) = 8 * (1024 + 32 * 4 + 15) + 2 ∧
    (tabGet BlotEntry.empty (ans (.flitArrive 0 false 0) s).blotter.ring 0).arg0 = 72) := by decide +kernel

/-- A transfer to HBM row 3 × 2²¹ + 512 with every controller at BANK_TAG_CAP 1. -/
def mcS (x : XKind) (st : XSt) : State :=
  (List.range 8).foldl (fun s n => setMc n { Mc.off with trained := true } (setR (regAt .memctl n 0x44) 1 (setR (regAt .memctl n 0x40) (1 + 2 ^ 2) s)))
    (landS 0 x st (3 * 2 ^ 21 + 512))

/-- The same with the bank's one tag taken. -/
def fullBankS : State :=
  let s := mcS .read .busy
  { s with canopy := { s.canopy with xfers := s.canopy.xfers ++ [⟨5, 1, 0, 0, .read, .tag 0, 3 * 2 ^ 21 + 512, 0, 0, 0, none⟩] } }

/-- Two reads of one bank, the second of its open page; `limit` is AGE_LIMIT. -/
def pagesS (limit : Nat) : State × Xfer × Xfer :=
  let x : Xfer := ⟨0, 7, 0, 0, .read, .tag 0, 0, 0, 0, 0, none⟩
  let y : Xfer := ⟨0, 8, 0, 0, .read, .tag 1, dpaOf 0 (2 ^ 20), 0, 0, 0, none⟩
  let s := setR (regAt .memctl 0 0x44) (limit * 2 ^ 12) (mcS .read .travel)
  let s := { s with canopy := { s.canopy with xfers := [x, y] } }
  (modMc 0 (fun m => { m with pages := [(bankAt y.place, dramOf (localOf y.place))] }) s, x, y)

theorem test_open_page_first : (let (s, x, y) := pagesS 5
    bankAt x.place = bankAt y.place ∧ readDue false s x = false ∧ readDue false s y = true ∧ readDue true s x = true ∧
    readDue true s y = false) ∧ (let (s, x, y) := pagesS 0; readDue true s x = false ∧ readDue true s y = true) := by decide +kernel

/-- Codeword 3 of that row lost. -/
def badRowS (s : State) : State := { s with hbm := { s.hbm with bad := [((3 * 2 ^ 21 + 512) / 16 + 3, .double)] } }

theorem witness_MemoryControllers : (oldestRequest (mcS .read .travel) 0 7 .travel).isSome = true ∧ mcOf (3 * 2 ^ 21 + 512) = 3 ∧
    bankCap (mcS .read .travel) 3 = 1 ∧ bankTags (mcS .read .travel) 3 (bankOf (dramOf (localOf (3 * 2 ^ 21 + 512)))) = 0 ∧
    freeTag (mcS .read .travel) 3 = some 0 ∧ Memory.wf (mcS .write .travel).hbm = true ∧
    bankTags fullBankS 3 (bankOf (dramOf (localOf (3 * 2 ^ 21 + 512)))) = 1 ∧ (oldestRequest fullBankS 0 7 .busy).isSome = true ∧
    mcWaiting (mcS .read .travel) 3 = true ∧ mcWaiting (mcS .read .arrived) 3 = false ∧
    (mcS .read (.tag 4095)).canopy.xfers.all (fun x => x.st != .left 4095) = true ∧
    (mcS .read (.tag 4095)).canopy.xfers.all (fun x => readDue false (mcS .read (.tag 4095)) x && readDue true (mcS .read (.tag 4095)) x && x.early.isNone) = true ∧
    (findXfer (serveReads (3 * 2 ^ 21 + 512) (mcS .read (.tag 4095))) 0 7 0).map (fun x => x.early) = some (some (some 0)) ∧
    (findXfer (serveReads (3 * 2 ^ 21 + 512) (badRowS (mcS .read (.tag 4095)))) 0 7 0).map (fun x => x.early) = some (some none) ∧
    mscMode (mcS .hint .travel) 3 = 1 ∧ mscMode (setR (regAt .memctl 3 0x40) 4 (mcS .hint .travel)) 3 ≠ 1 ∧
    (getMc (mcS .read .travel) 3).repairs = [] ∧
    mcLive (mcS .read .travel) 3 = true ∧ getF (mcS .read .travel) (regAt .memctl 3 0x44) 11 0 = 1 := by decide +kernel

theorem test_mc_request : ((ans (.mcRequest 0 7) (mcS .read .travel)).canopy.xfers.map (fun x => x.st)) = [.tag 0] ∧
    (ans (.mcRequest 0 7) (mcS .write .travel)).hbm.byte (3 * 2 ^ 21 + 512) = 0x55 ∧ (ans (.mcRequest 0 7) (mcS .write .travel)).canopy.xfers = [] ∧
    bit (getR (ans (.bankBusyRetry 0 7) fullBankS) (regAt .memctl 3 0x10)) 4 = true := by decide +kernel

theorem test_mc_read : ((ans (.mcRead 3 4095 false []) (mcS .read (.tag 4095))).canopy.xfers.map (fun x => (x.st, x.data))) = [(.flying, 0)] ∧
    bit (getR (ans (.mcRead 3 4095 false []) (badRowS (mcS .read (.tag 4095)))) (regAt .memctl 3 0x10)) 1 = true ∧
    (ans (.mcRead 3 4095 false []) (badRowS (mcS .read (.tag 4095)))).canopy.xfers = [] ∧
    (getMc (ans (.patrolRead 3 []) (mcS .read .arrived)) 3).patrol = 1 ∧ (getMc (ans (.patrolRead 3 []) (mcS .read .travel)) 3).patrol = 0 ∧ (getMc (ans (.refresh 3 0 300) (mcS .read .travel)) 3).tempC = 255 := by
  decide +kernel

/-- Repairs: a soft one of a row not repaired before; a remap into the last slot; none left. -/
def pprS (slots : Nat) : State := setMc 3 { Mc.off with trained := true, repairs := [⟨5, false⟩], slots := slots } (runs State.reset)

theorem witness_MemoryControllers_repair : softUsed (getMc (pprS 0) 3) (bankOf 5) = false ∧
    softUsed { getMc (pprS 0) 3 with softBanks := [(bankOf 5, true)] } (bankOf 5) = true ∧ freeRemap (pprS 0) 3 = some 0 := by decide +kernel

theorem test_ppr : (getMc (ans (.pprDone 3 true) (pprS 0)) 3).soft = 1 ∧ (getMc (ans (.pprDone 3 false) (pprS 4095)) 3).slots = 4096 ∧
     (ans (.stackFail 3) (pprS 0)).boot.stopping = some 0x21 := by decide +kernel

/-! ## The Scribe -/

/-- Chapter 11, worked example: momentum SGD, header 0x101, μ 0.875, LR 2⁻¹⁰, D 2⁻¹³; one element, gradients in FP32 at 2 MiB + 8 KiB. -/
def sgd (clip : Nat) : UpdDesc :=
  { p := 2 ^ 21, s := #v[2 ^ 21 + 0x1000, 0, 0], g := 2 ^ 21 + 0x2000, sh := 0, tableVa := 0, stampVa := 0, listVa := 0, n := 1, listLen := 0,
    clipMax := clip, gexp := 0, clipAnchor := 7, gfmt := 1, shfmt := 0, copper := false, isLazy := false,
    table := [0x101, 0x3A800000, 0x39000000, 0, 0x3F600000, 0, 0, 0, 0, 0, 0, 0, 0, 0x3F800000] }

/-- Master 0.5, state 0.0625, G 96.0, LS_EXP 10. -/
theorem test_scribe_element : (fun o : ElemOut => (o.x.p, o.x.ms, o.unchanged))
    (updElem (sgd 0) none none 10 0x3F800000 (some (.fin false 96 0)) ⟨0x3F000000, [0x3D800000]⟩) = (0x3EFFE500, [0x3E180000], false) := by
  decide +kernel

/-- An update layer of context 0 in this phase, with that tensor's rows in HBM. -/
def updS (phase clip : Nat) : State :=
  let s := setPair (effAt (regAt .ctx 0 0x58)) (2 ^ 21 + 0x4000) (mapped 2 (setCtx 0 { Ctx.free with
    st := .running, phase := .running, record := some { rec0 with update := true, updCount := 1, updList := 2 ^ 21 + 0x8000, step := 7000 },
    upd := some ⟨phase, 10, [newTensor 7000 (sgd clip)], List.replicate 48 0⟩ } (runs State.reset)))
  { s with hbm := ((s.hbm.write (2 ^ 21) (bytesOf 4 0x3F000000)).write (2 ^ 21 + 0x1000) (bytesOf 4 0x3D800000)).write (2 ^ 21 + 0x2000) (bytesOf 4 0x42C00000) }

theorem witness_ScribeWork : (newTensor 7000 (sgd 0)).work = 1 ∧ (listedGroup 0 (sgd 0) 0 (updS 4 0)).1 = .ok 0 ∧
    (groupOwner 0 (sgd 0) 0 (updS 4 0)).1 = .ok 1 ∧ (newTensor 7000 (sgd 0x40000000)).normDue = true ∧
    (readGrads 0 (sgd 0) 0 1 (updS 3 0)).1 = .ok [some (val32 0x42C00000)] ∧ (sgd 0).isLazy = false ∧ (newTensor 7000 (sgd 0)).done = [] ∧
    (scrWrite 0 (ucbVa (updS 5 0) 0) (Ucb.commit (List.replicate 48 0) 7000) (updS 5 0)).1 = none ∧
    getF (setR (regAt .scribe 0 0x40) 1 (updS 4 0)) (regAt .scribe 0 0x40) 11 0 = 1 ∧
    scribeAt (updS 4 0) 1 = some (0, 4, 0, 0) ∧ scribeAt (updS 4 0) 2 = none ∧ (getScribe (updS 4 0) 1).stalled = none := by decide +kernel

/-- The same on rows of zeros, its one state ephemeral (header 0x105). -/
def sgd0 : UpdDesc := { sgd 0 with table := (sgd 0).table.set 0 0x105 }

def updZ : State :=
  mapped 2 (setCtx 0 { Ctx.free with
    st := .running, phase := .running, record := some { rec0 with update := true, updCount := 1, updList := 2 ^ 21 + 0x8000, step := 7000 },
    upd := some ⟨4, 10, [newTensor 7000 sgd0], List.replicate 48 0⟩ } (runs State.reset))

theorem witness_ScribeWork_apply : (match readWork 0 sgd0 0 0 updZ with
    | (.ok g, q) =>
      let ry := imageRows 0 sgd0 0 g.data q
      let o := computeGroup sgd0 none none 10 0x3F800000 1 g.grads g.data
      decide ((writeAll 0 (groupWrites (fp8Sat q) sgd0 0 g.data o) (keepImage 1 ⟨false, 0, 0, 0, ry.1, none⟩ ry.2)).1 = none)
    | _ => false) = true := by decide +kernel

/-- The norm term of 96 × 2⁻¹⁰ at anchor 7; CLIP_MAX 2.0 is not passed, so phase 4 begins. -/
theorem test_scribe_norm : ((getCtx (ans (.scribeGroupDone 1 0 0 0) (updS 3 0x40000000)) 0).upd.map (fun w => (w.phase, w.tensors.map (fun t => t.factor)))) =
    some (4, [0x3F800000]) := by decide +kernel

theorem test_update_commit : ((ans (.updateCommit 0) (updS 5 0)).hbm.read (2 ^ 21 + 0x4000 + 0x20) 12).length = 12 ∧
    getF (ans (.updateCommit 0) (updS 5 0)) (regAt .scribe 0 0x50) 31 16 = 1 ∧
    (getScribe (ans (.scrStall 1) (setR (regAt .scribe 0 0x40) 1 (updS 4 0))) 1).stalled = some 0 := by
  decide +kernel

/-! ## The Ligature engine -/

/-- A packet without payload, in the receive buffer of port 0. -/
def arrived (h : LigHead) (s : State) : State := modPort 0 (fun x => { x with rxBuf := [buildPacket h []] }) s

/-- A header of LOP 6 (VERDICT) from member 1, at STEP 7 and epoch 0, towards `dst`. -/
def verdictHead (dst : Nat) : LigHead := { LigHead.zero with lop := 6, src := 1, dst := dst, root := 1, step := 7 }

/-- A circle of ordinals 0 and 1, this device at rank 0. -/
def circle2 : Machine.Circle := ⟨0, 0, 2 ^ 21, 1024, 0, 2 ^ 22, 64, 0, [(0, 0), (1, 1)], 0⟩

/-- An open step 7 of context 0 without tensors. -/
def step7 : LigStep :=
  { ctx := 0, step := 7, lsExp := 0, bs8 := false, mark := 0, tensors := [], list := 0, taken := 0, buckets := [], early := [], owner := [],
    ownerTop := 0, closing := false, closeReady := false, closeSent := false, veto := none, closes := [], verdict := 0, votes := 0,
    factors := [], vparts := [], final := [] }

/-- The engine with this circle and step; the latest step is 7. -/
def ligS (ci : Option Machine.Circle) (w : Option LigStep) : State :=
  modLig (fun l => { l with circle := ci, open_ := w, lastStep := 7 }) (runs State.reset)

def stateOf (b : BucketSt) : Bucket := { newBucket 0 with st := b }

/-- The command VERDICT finds the packet at the head, and the commands of the other LOPs do not. -/
theorem witness_LigaturePackets_head : ownOrdinal State.reset = 0 ∧
    (rxHead 6 0 (arrived (verdictHead 0) State.reset)).map (fun x => (x.1.dst, x.1.step)) = some (0, 7) ∧
    rxHead 2 0 (arrived (verdictHead 0) State.reset) = none ∧
    (getPort (popPacket 0 (arrived (verdictHead 0) State.reset)) 0).rxBuf = [] := by decide +kernel

/-- Without a circle the packet is held; without an open step it is held when its step is to come, and discarded else. -/
theorem witness_LigaturePackets_idle : (ans (.verdict 0) (arrived (verdictHead 0) (ligS none none))).lig.held = [buildPacket (verdictHead 0) []] ∧
    (ans (.verdict 0) (arrived { verdictHead 0 with step := 8 } (ligS (some circle2) none))).lig.held =
      [buildPacket { verdictHead 0 with step := 8 } []] ∧
    (ans (.verdict 0) (arrived (verdictHead 0) (ligS (some circle2) none))).lig.held = [] ∧
    getF (ans (.verdict 0) (arrived (verdictHead 0) (ligS (some circle2) none))) (regAt .ligature 0 0x68) 31 16 = 0 := by decide +kernel

/-- With a step open: the next step's packet is held unless it is a CLOSE, another step's or epoch's abandons it, as does a CLOSE of another loss
scale. -/
theorem witness_LigaturePackets_open : (ans (.verdict 0) (arrived { verdictHead 0 with step := 8 } (ligS (some circle2) (some step7)))).lig.held.length = 1 ∧
    (let t := ans (.verdict 0) (arrived { verdictHead 0 with step := 6 } (ligS (some circle2) (some step7)))
    (t.lig.open_, t.lig.reason, t.lig.outcome) = (none, 1, 3)) ∧
    (let t := ans (.verdict 0) (arrived { verdictHead 0 with epoch := 1 } (ligS (some circle2) (some step7)))
    (t.lig.open_, t.lig.reason, t.lig.detOrd) = (none, 2, 0)) ∧
    getF (ans (.verdict 0) (arrived (verdictHead 0) (ligS (some circle2) (some step7)))) (regAt .ligature 0 0x68) 31 16 = 1 ∧
    ((ans (.close 0) (arrived { verdictHead 0 with lop := 5, step := 8 } (ligS (some circle2) (some step7)))).lig.open_.map (fun w => w.veto)) =
      some (some 1) ∧
    (let t := ans (.close 0) (arrived { verdictHead 0 with lop := 5, ls := 1 } (ligS (some circle2) (some step7)))
    (t.lig.open_, t.lig.reason) = (none, 3)) := by decide +kernel

/-- A port 2 that reaches ordinal 1. -/
def reaches (s : State) : State := modPort 2 (fun x => { x with st := .active, enable := true, peer := { x.peer with valid := true, ordinal := 1 } }) s

/-- A packet for ordinal 1 leaves on port 2 with its hop count raised; after 32 hops, or without a circle, it is lost. -/
theorem witness_LigaturePackets_forward : circle2.hop 1 = some 1 ∧
    (getPort (ans (.verdict 0) (arrived (verdictHead 1) (reaches (ligS (some circle2) none)))) 2).txQ =
      [buildPacket { verdictHead 1 with hops := 1 } []] ∧
    (ans (.verdict 0) (arrived (verdictHead 1) (reaches (ligS (some circle2) none)))).lig.fwd = 1 ∧
    getF (ans (.verdict 0) (arrived { verdictHead 1 with hops := 32 } (reaches (ligS (some circle2) none)))) (regAt .ligature 0 0x68) 15 0 = 1 ∧
    getF (ans (.verdict 0) (arrived (verdictHead 1) (ligS none none))) (regAt .ligature 0 0x68) 15 0 = 1 := by decide +kernel

/-- A READY bucket of no groups starts to agree beside another; with two buckets under way it waits. -/
theorem witness_LigatureSteps_agree :
    (ans .bucketAgreeing (ligS (some circle2) (some { step7 with buckets := [stateOf .agreeing, stateOf .ready] }))).lig.open_.map
      (fun w => w.buckets.map (fun b => b.st)) ≠ some [.agreeing, .ready] ∧
    (ans .bucketAgreeing (ligS (some circle2) (some { step7 with buckets := [stateOf .agreeing, stateOf .reducing, stateOf .ready] }))).lig.open_.map
      (fun w => w.buckets.map (fun b => b.st)) = some [.agreeing, .reducing, .ready] := by decide +kernel

/-- A close layer waits for the children; one that is not closing does nothing. -/
theorem witness_LigatureSteps_close : allContributed circle2 { step7 with closing := true } = true ∧
    (ans .stepClose (ligS (some circle2) (some { step7 with closing := true }))).lig.open_.map (fun w => (w.closeReady, w.closeSent)) = some (true, false) ∧
    (ans .stepClose (ligS (some circle2) (some step7))).lig.open_ = some step7 := by decide +kernel

/-- An ABORT of member 1 closes the step; after a COMMIT it is ignored. -/
theorem witness_LigatureSteps_abort :
    (let t := ans (.abort 0) (arrived { verdictHead 0 with lop := 7 } (ligS (some circle2) (some step7)))
    (t.lig.open_, t.lig.reason, t.lig.outcome, t.lig.detOrd, t.lig.seen) = (none, 9, 3, 1, [(1, 7)])) ∧
    (ans (.abort 0) (arrived { verdictHead 0 with lop := 7 } (ligS (some circle2) (some { step7 with verdict := 1 })))).lig.open_ =
      some { step7 with verdict := 1 } := by decide +kernel

/-- The engine waits for member 1 while a bucket is agreeing: STEP_TIMEOUT abandons; with nothing awaited it does nothing. -/
theorem witness_LigatureSteps_timeout : ligWaits circle2 { step7 with buckets := [stateOf .agreeing] } = true ∧ ligWaits circle2 step7 = false ∧
    (let t := ans .stepTimeout (ligS (some circle2) (some { step7 with buckets := [stateOf .agreeing] }))
    (t.lig.open_, t.lig.reason, t.lig.outcome) = (none, 6, 3)) := by decide +kernel

/-- A packet with payload, in the receive buffer of port 0. -/
def carried (h : LigHead) (b : List Byte) (s : State) : State := modPort 0 (fun x => { x with rxBuf := [buildPacket h b] }) s

/-- Circles with this device, ordinal 0, at rank 1 of two, and at rank 2 of four. -/
def circle1 : Machine.Circle := { circle2 with members := [(5, 5), (0, 0)], rank := 1 }
def circle4 : Machine.Circle := { circle2 with members := [(7, 7), (8, 8), (0, 0), (9, 9)], rank := 2 }

/-- SCALE with one exponent, 9, for bucket 0 of one group without elements. -/
def scaleHead (root : Nat) : LigHead := { LigHead.zero with lop := 1, src := 1, root := root, step := 7, count := 1, groups := 1 }

def agreeingB : Bucket := { newBucket 0 with st := .agreeing, groups := 1, mine := [5] }

/-- What each receives is at the head; rank 0 of circle2 hears rank 1 at level 0, rank 2 of circle4 hears rank 3 and sends to rank 0. -/
theorem witness_LigaturePackets_scale : (rxHead 1 0 (carried (scaleHead 0) [9, 0] (ligS (some circle2) (some step7)))).map (fun x => x.1) =
      some (scaleHead 0) ∧ circle2.ord 0 = 0 ∧ circle4.ord 0 = 7 ∧ (childAt 2 0 0 0).isSome = true ∧ (childAt 4 0 2 0).isSome = true ∧
    parentOf 2 0 0 = none ∧ (parentOf 4 0 2).isSome = true ∧ circle2.rankOf 0 = some 0 ∧
    closedHere { step7 with buckets := [agreeingB] } 0 = some agreeingB ∧ closedHere step7 0 = none ∧
    bucketElems { step7 with buckets := [agreeingB] } agreeingB = 0 ∧ payloadVals (scaleHead 0) 2 true (buildPacket (scaleHead 0) [9, 0]) = [9] ∧
    (childLevels 2 0 0).all (fun l => partCount (partsAt (Spec.joined agreeingB ⟨1, 0, 0, 0, 0, [9]⟩) 1 0 l 0) == 1) = true := by
  decide +kernel

/-- Kept for a bucket to come; another shape; another loss scale; the maximum of 5 and 9 agreed by the leader, or sent up; an OWNED bucket only takes
it. -/
theorem test_scale : (let run c b h := (ans (.scale 0) (carried h [9, 0] (ligS (some c) (some { step7 with buckets := b })))).lig
    let first (l : Lig) : Option Bucket := l.open_.bind (fun w => w.buckets[0]?)
    ((run circle2 [] (scaleHead 0)).open_.map (fun w => w.early.length)) = some 1 ∧
    (run circle2 [agreeingB] { scaleHead 0 with groups := 2 }).reason = 4 ∧
    (run circle2 [agreeingB] { scaleHead 0 with ls := 1 }).reason = 3 ∧
    ((first (run circle2 [agreeingB] (scaleHead 0))).map (fun b => (b.st, b.agreed))) = some (.owned, [9]) ∧
    ((first (run circle4 [agreeingB] (scaleHead 7))).map (fun b => (b.st, b.scaled, b.parts.length))) = some (.agreeing, true, 1) ∧
    ((first (run circle2 [{ agreeingB with st := .owned }] (scaleHead 0))).map (fun b => (b.st, b.parts.length))) = some (.owned, 1)) := by
  decide +kernel

/-- AGREED for rank 1, which owns the one group and awaits the partial of rank 0: the last exponent starts the reduction, a first of two does
not, and no bucket agrees twice. -/
theorem test_agreed : (let h : LigHead := { scaleHead 5 with lop := 2 }
    let run b := ((ans (.agreed 0) (carried h [9, 0] (ligS (some circle1) (some { step7 with buckets := [b] })))).lig.open_.bind
      (fun w => w.buckets[0]?)).map (fun b => (b.st, b.agreed, b.down.length))
    circle1.rank ≠ 0 ∧ circle1.ord 0 = 5 ∧ stopLevel 2 (treePos 2 0 1) = 0 ∧
    run agreeingB = some (.reducing, [9], 1) ∧ run { agreeingB with groups := 2 } = some (.agreeing, [], 1) ∧
    run { agreeingB with st := .owned } = some (.owned, [], 0)) := by decide +kernel

/-- A bucket of two groups, one owned by each of two members, that reduces: of the 512 items of member 1's partial, `k` have come. -/
def reducingB (k : Nat) : Bucket :=
  { newBucket 0 with st := .reducing, groups := 2, agreed := [0, 0], sent := [1], parts := [⟨3, 0, 0, 0, 0, List.replicate k 0⟩] }

def partialHead : LigHead := { LigHead.zero with lop := 3, src := 1, root := 0, step := 7, offset := 511, count := 1 }

theorem witness_LigaturePackets_partial : circle2.rank < circle2.n ∧ circle2.rankOf 0 = some 0 ∧ ownedBy 2 2 0 = (0, 1) ∧
    (let b' := Spec.joined (reducingB 511) ⟨3, 0, 0, 0, 511, [0]⟩
    let w' := Spec.setBucket { step7 with buckets := [reducingB 511] } 0 b'
    childrenIn circle2 w' b' 0 = true ∧ (match (bucketGrads 0 w' b' [0] (ligS (some circle2) (some w'))).1 with
      | .ok gs => gs == [[]]
      | .error _ => false) = true) ∧
    (let b' := Spec.joined (reducingB 510) ⟨3, 0, 0, 0, 511, [0]⟩
    childrenIn circle2 (Spec.setBucket { step7 with buckets := [reducingB 510] } 0 b') b' 0 = false) :=
  ⟨by decide, by decide, by decide, ⟨by decide +kernel, by decide +kernel⟩, by decide +kernel⟩

/-- The last item of the child's partial completes the owned sums; one before it does not. -/
theorem test_partial : (let run k := ((ans (.partialPkt 0) (carried partialHead (List.replicate 8 0)
      (ligS (some circle2) (some { step7 with buckets := [reducingB k] })))).lig.open_.bind (fun w => w.buckets[0]?)).map (fun b => (b.st, b.sent))
    run 511 = some (.owned, [1, 0]) ∧ run 510 = some (.reducing, [1])) := by decide +kernel

/-- A closed bucket in which all but the last of member 1's 512 parameters have come; the step has a tensor of 1,024 elements or none. -/
def closedB : Bucket := { newBucket 0 with st := .closed, groups := 2, sent := [0, 1], parts := [⟨4, 1, 0, 0, 512, List.replicate 511 0⟩] }

def paramHead : LigHead := { LigHead.zero with lop := 4, src := 1, root := 1, step := 7, offset := 1023, count := 1 }

def commit7 : LigStep := { step7 with verdict := 1, tensors := [newTensor 7 { sgd 0 with n := 1024 }], buckets := [closedB] }

def large7 : LigStep := { commit7 with
  tensors := [newTensor 7 { sgd 0 with n := 1024 }, newTensor 7 { sgd 0 with n := 1024 }]
  buckets := [closedB, { closedB with first := 2, parts := [] }] }

theorem witness_LigaturePackets_param : circle2.rankOf 1 = some 1 ∧ stopLevel 2 (treePos 2 1 0) = 0 ∧ ownedBy 2 2 1 = (1, 2) ∧
    partCount (partsAt (Spec.joined closedB ⟨4, 1, 0, 0, 1023, [0]⟩) 4 1 0 0) = 512 ∧ allFinal circle2 { commit7 with final := [(0, 1, 0)] } = true ∧
    allFinal circle2 large7 = false ∧ allFinal circle2 { large7 with final := [(0, 1, 0)] } = false := by decide +kernel

/-- With no other group to come the step closes with COMMIT; the groups of one bucket are final while another's are not. -/
theorem test_param : (let run w := (ans (.param 0) (carried paramHead (List.replicate 4 0) (ligS (some circle2) (some w)))).lig
    ((run commit7).open_, (run commit7).outcome) = (none, 1) ∧
    ((run large7).open_.map (fun w => w.final)) = some [(0, 1, 0)] ∧
    ((run { commit7 with verdict := 0 }).open_.map (fun w => (w.verdict, w.final))) = some (0, [])) := by decide +kernel

/-- A step that is ready to close, its update control block of zeros at 2 MiB + 16 KiB; CLOSE of member 1 with its vote word. -/
def closeS (ci : Machine.Circle) (w : LigStep) (h : LigHead) (b : List Byte) : State :=
  carried h b (modLig (fun l => { l with circle := some ci, open_ := some w, lastStep := 7 })
    (setPair (effAt (regAt .ctx 0 0x58)) (2 ^ 21 + 0x4000) (mapped 2 (setCtx 0 { Ctx.free with st := .parked } (runs State.reset)))))

def closeHead : LigHead := { LigHead.zero with lop := 5, src := 1, root := 0, step := 7 }

def ready7 : LigStep := { step7 with closing := true, closeReady := true }

theorem witness_LigatureSteps_closing : (let s := closeS circle2 ready7 closeHead (bytesOf 8 (2 ^ 32 + 1))
    (rxHead 5 0 s).map (fun x => x.1) = some closeHead ∧ ucbOk s 0 = true ∧
    (match (scrRead 0 (ucbVa s 0) 48 s).1 with
      | .ok b => b == List.replicate 48 0
      | .error _ => false) = true ∧
    (childLevels 2 0 0).all (closeIn { ready7 with closes := [⟨0, 1, 1, []⟩] }) = true ∧ foldedVote { ready7 with closes := [⟨0, 1, 1, []⟩] } 0 = 1) ∧
    (childLevels 4 0 2).all (closeIn { ready7 with closes := [⟨0, 0, 1, []⟩] }) = true := by decide +kernel

/-- The leader: COMMIT without a vote, SKIP for vote bit 0, VETO for bit 4, with reason 0 where none is known. Rank 2 of four sends its own up. One
that is not ready only records it. -/
theorem test_close : (let run ci w h v := (ans (.close 0) (closeS ci w h (bytesOf 8 (2 ^ 32 + v)))).lig
    let ends l : Bool × Nat := (l.open_.isSome, l.outcome)
    ends (run circle2 ready7 closeHead 0) = (false, 1) ∧ ends (run circle2 ready7 closeHead 1) = (false, 2) ∧
    ends (run circle2 { ready7 with veto := some 1 } closeHead 17) = (false, 3) ∧ (run circle2 { ready7 with veto := some 1 } closeHead 1).reason = 1 ∧
    ((run circle4 ready7 { closeHead with root := 7 } 0).open_.map (fun w => (w.closeSent, w.closes.length))) = some (true, 1) ∧
    ((run circle2 step7 closeHead 0).open_.map (fun w => (w.closeSent, w.closes.length))) = some (false, 1)) := by decide +kernel

/-- VERDICT for rank 1: acted on at once, or kept until the factor of the one descriptor has come. -/
theorem test_verdict : (let h : LigHead := { LigHead.zero with lop := 6, src := 1, root := 5, step := 7 }
    let run w n v := (ans (.verdict 0) (closeS circle1 w { h with count := n } (bytesOf 8 v ++ bytesOf 4 0x3F000000))).lig
    ((run step7 0 1).open_, (run step7 0 1).outcome) = (none, 1) ∧ ((run step7 0 2).open_, (run step7 0 2).outcome) = (none, 2) ∧
    ((run step7 0 0x13).outcome, (run step7 0 0x13).reason) = (3, 1) ∧
    ((run { step7 with tensors := [newTensor 7 (sgd 0)] } 0 1).open_.map (fun w => (w.verdict, w.vparts))) = some (0, [(0, [])]) ∧
    ((run { step7 with tensors := [newTensor 7 (sgd 0)] } 1 2).open_, (run { step7 with tensors := [newTensor 7 (sgd 0)] } 1 2).outcome) =
      (none, 2)) := by decide +kernel

/-- The trees of R289: with five members and root 0, rank 0 hears ranks 1, 2 and 4; rank 3 sends to rank 2, rank 4 to rank 0. -/
theorem test_tree : (childLevels 5 0 0).filterMap (childAt 5 0 0) = [1, 2, 4] ∧ parentOf 5 0 3 = some 2 ∧ parentOf 5 0 4 = some 0 := by decide

end Sys2Proof.Tests
end

/-! SUPPORT. The scope family: places of registers in BAR0, reads, stores and events, and which commands answer a next state. -/

namespace Sys2Proof.Machine

open Sys2Proof.Spec

/-! ## Places of registers (R428, R433) -/

theorem pageBase_mod (p : Page) : pageBase p % 0x1000 = 0 := by cases p <;> rfl

/-- The offset within its page of a register. -/
theorem regAt_mod (p : Page) (j : Nat) {off : Nat} (h : off < 0x1000) : regAt p j off % 0x1000 = off := by
  have := pageBase_mod p
  unfold regAt
  omega

theorem regAt_aligned (p : Page) (j : Nat) {off : Nat} (h : off % 4 = 0) : regAt p j off % 4 = 0 := by
  have := pageBase_mod p
  unfold regAt
  omega

/-- The page at an offset depends on the 4 KiB block alone. -/
theorem pageAt_congr {a b : Nat} (h : a / 0x1000 = b / 0x1000) : pageAt a = pageAt b := by
  unfold pageAt
  rw [h]

/-- The catalogue ends below the MSI-X table. -/
theorem pageAt_lt {a : Nat} {x : Page × Nat} (h : pageAt a = some x) : a < 0x20_0000 := by
  by_contra hn
  have h0 : 0x200 ≤ a / 0x1000 := by omega
  unfold pageAt at h
  dsimp only at h
  rw [if_neg (by omega), if_neg (by omega), if_neg (by omega), if_neg (by omega), if_neg (by omega)] at h
  cases h

/-- A virtual function's own page is in the catalogue. -/
theorem pageAt_vfunc {fn off : Nat} (h0 : fn ≠ 0) (h16 : fn < 16) (hoff : off < 0x1000) :
    pageAt (regAt .vfunc fn off) = some (.vfunc, fn) := by
  have hk : regAt .vfunc fn off / 0x1000 = 0x40 + fn := by simp only [regAt, pageBase]; omega
  unfold pageAt
  rw [hk]
  dsimp only
  rw [if_neg (by omega), if_neg (by omega), if_neg (by omega), if_pos (by omega), Nat.add_sub_cancel_left]

theorem pf_toNat {a : Nat} (h : a < 2 ^ 28) : (pf a).toNat = a := by
  simp only [pf, BitVec.toNat_ofNat]
  exact Nat.mod_eq_of_lt h

@[simp] theorem place_pf (s : State) (a : Nat) : place s 0 a = some a := rfl

/-- No window lies among the pages. -/
theorem windowValue_page (s : State) {a : Nat} (h : a < 0x20_0000) : windowValue s a = none := by
  unfold windowValue
  dsimp only
  rw [Nat.div_eq_of_lt (by omega : a < 0x1000_0000), Nat.mod_eq_of_lt (by omega : a < 0x1000_0000), if_neg (by simp), if_pos h]

theorem wordAt_page (s : State) {a j : Nat} {p : Page} (h : pageAt a = some (p, j)) :
    wordAt s a = word32 (pageValue s p j (a % 0x1000)) := by
  unfold wordAt
  rw [windowValue_page s (pageAt_lt h), h]

/-! ## Words -/

theorem getR_lt (s : State) (a : Nat) : getR s a < 2 ^ 32 := (tabGet (0 : Word32) s.regs a).isLt

/-- In a canonical register table a register reads as the word of 32 bits just written. -/
theorem getR_setR_word {s : State} (a : Nat) {v : Nat} (w : tabWf (0 : Word32) s.regs = true) (h : v < 2 ^ 32) :
    getR (setR a v s) a = v := by
  rw [getR_setR_self s a v w, Nat.mod_eq_of_lt h]

theorem setR_wf {s : State} (a v : Nat) (w : tabWf (0 : Word32) s.regs = true) : tabWf (0 : Word32) (setR a v s).regs = true :=
  tabSet_wf s.regs a _ w

/-- Some bits of a register kept, others set: a word again. -/
theorem clearSet_lt (s : State) (a m n : Nat) (x : Word32) : (getR s a &&& m) ||| (x.toNat &&& n) < 2 ^ 32 :=
  Nat.or_lt_two_pow (lt_of_le_of_lt Nat.and_le_left (getR_lt s a)) (lt_of_le_of_lt Nat.and_le_left x.isLt)

/-! ## The read (R7, R8, R10, R429) -/

/-- Clearing RC bits touches register words alone. -/
theorem clearRc_frame (a inc : Nat) (s : State) : clearRc a inc s = { s with regs := (clearRc a inc s).regs } := by
  unfold clearRc
  repeat' split
  all_goals rfl

section clearRc
variable (a inc : Nat) (s : State)
@[simp] theorem clearRc_outs : (clearRc a inc s).outs = s.outs := by rw [clearRc_frame]
@[simp] theorem clearRc_latches : (clearRc a inc s).latches = s.latches := by rw [clearRc_frame]
@[simp] theorem clearRc_hbm : (clearRc a inc s).hbm = s.hbm := by rw [clearRc_frame]
@[simp] theorem clearRc_nibs : (clearRc a inc s).nibs = s.nibs := by rw [clearRc_frame]
end clearRc

/-- A register with RC bits keeps its other bits and takes what the hardware adds. -/
theorem clearRc_of_rc {a inc j : Nat} {p : Page} {r : RegInfo} (s : State) (hp : pageAt a = some (p, j))
    (hr : regInfo p (a % 0x1000) = some r) (h : r.rc ≠ 0) :
    clearRc a inc s = setR a ((getR s a &&& (0xFFFF_FFFF ^^^ r.rc)) ||| (inc &&& r.rc)) s := by
  unfold clearRc
  rw [hp]
  dsimp only
  rw [hr]
  exact if_neg h

/-- What an aligned read by the physical function does. -/
theorem readReg_pf (s : State) {a : Nat} (inc : Nat) (h : a % 4 = 0) :
    readReg 0 a inc s = takeFree (takeFree (clearRc a inc
      (emit (.bar0 0 a (BitVec.ofNat 32 (latchedWord s 0 a))) { s with latches := latchAfter s 0 a }))) := by
  unfold readReg
  rw [if_neg (by simp [h])]
  rfl

/-- Every aligned read sends one word. -/
theorem readReg_sends (fn : Nat) {off : Nat} (inc : Nat) (s : State) (h : off % 4 = 0) :
    ∃ v : Word32, (readReg fn off inc s).outs = .bar0 fn off v :: s.outs := by
  unfold readReg
  rw [if_neg (by simp [h])]
  split
  · exact ⟨_, rfl⟩
  · next a _ => exact ⟨BitVec.ofNat 32 (latchedWord s fn a), by simp⟩

/-! ## Events (R10, R431, R432) -/

/-- Sending the message of an event touches MSI-X state and what is sent, nothing else. -/
theorem sendEvent_frame (s : State) : sendEvent s = { s with msix := (sendEvent s).msix, outs := (sendEvent s).outs } := by
  unfold sendEvent sendMsix
  dsimp only
  repeat' split
  all_goals rfl

@[simp] theorem sendEvent_regs (s : State) : (sendEvent s).regs = s.regs := by rw [sendEvent_frame]
@[simp] theorem sendEvent_boot (s : State) : (sendEvent s).boot = s.boot := by rw [sendEvent_frame]
@[simp] theorem sendEvent_blotter (s : State) : (sendEvent s).blotter = s.blotter := by rw [sendEvent_frame]

/-- A write of EVENT stores its word, and may send a message. -/
theorem writeEvent_cases (p : Page) (j v set : Nat) (s : State) :
    let u := setR (regAt p j 0x10) ((getR s (regAt p j 0x10) &&& (0xFFFF_FFFF ^^^ v)) ||| (set &&& pageCap p)) s
    writeEvent p j v set s = u ∨ writeEvent p j v set s = sendEvent u := by
  unfold writeEvent
  dsimp only
  split
  · exact .inr rfl
  · exact .inl rfl

/-! ## Stores (R8, R10, R11) -/

/-- Storing a register that is no high word of a written pair changes its word alone. -/
theorem storeReg_word {a v : Nat} {r : RegInfo} (s : State) (hw : r.w1c = 0) (hc : r.rc = 0) (ho : r.ro = 0) (h : r.wo = 0)
    (hlow : isRwLow (a - 4) = false) : storeReg a v r s = setR a (v &&& (r.rw ||| r.rwl)) s := by
  simp [storeReg, hw, hc, ho, h, hlow]

/-! ## Narrow accesses and reset (R7, R12) -/

/-- A narrow or unaligned access has no effect, or reads all ones. -/
theorem narrowAccess_answers (fn : Fin 16) (off : BitVec 28) {size : Nat} (s : State) (h : narrowOk off.toNat size = true) :
    Answers (.narrowAccess fn off size true) s s ∧
    Answers (.narrowAccess fn off size false) s (emit (.bar0 fn.val off.toNat 0xFFFF_FFFF) s) := by
  constructor <;> simp [Answers, exec, execNarrowAccess, h]

/-- One narrower than 32 bits, or unaligned. -/
theorem narrowOk_of_narrow {off size : Nat} (h0 : 0 < size) (h : size < 4 ∨ off % size ≠ 0) : narrowOk off size = true := by
  have h4 : ¬ size = 4 ∨ ¬ off % 4 = 0 := not_and_or.mp (by rintro ⟨rfl, e⟩; omega)
  have h8 : ¬ size = 8 ∨ ¬ off % 8 = 0 := not_and_or.mp (by rintro ⟨rfl, e⟩; omega)
  simp [narrowOk, h0, h4, h8]

/-- One wider than 32 bits that is not of 64. -/
theorem narrowOk_of_wide {off size : Nat} (h4 : 4 < size) (h8 : size ≠ 8) : narrowOk off size = true := by
  have h0 : 0 < size := by omega
  have hne : size ≠ 4 := by omega
  simp [narrowOk, h0, h8, hne]

/-- Settles O6: width and alignment decide; an aligned read of 32 bits sends its word. -/
theorem narrowAccess : Obligations.NarrowAccess := by
  unfold Obligations.NarrowAccess
  intro fn off s
  refine ⟨fun size h0 h => narrowAccess_answers fn off s (narrowOk_of_narrow h0 h), fun h => ⟨?_, fun v => ⟨_, rfl⟩⟩⟩
  obtain ⟨v, hv⟩ := readReg_sends fn.val 0 s h
  exact ⟨_, v, rfl, hv⟩

/-- Every unit of a replicated array is the one replicated. -/
theorem vget_replicate {α : Type} (d x : α) {n i : Nat} (h : i < n) : vget d (Vector.replicate n x) i = x := by
  simp [vget, h]

/-- Settles O4: the fields of the reset state, one by one. -/
theorem resetState : Obligations.ResetState := by
  unfold Obligations.ResetState
  refine ⟨reset_memory_wf, rfl, rfl, rfl, rfl, rfl, fun _ => rfl, rfl, fun _ => rfl, fun p hp => ?_, fun g hg => ?_, rfl⟩
  · exact congrArg Port.st (vget_replicate Port.off Port.off hp)
  · exact congrArg Grove.pw (vget_replicate Grove.cold Grove.cold hg)

/-! ## Reads with a latch or a clearing (R8, R10, R429) -/

/-- A read of a high word that the latch of the physical function holds returns it. -/
theorem latchedWord_of_latch {s : State} {a : Nat} {hi : Word32} (h : tabFind? s.latches 0 = some (a, hi)) :
    BitVec.ofNat 32 (latchedWord s 0 (a + 4)) = hi := by
  unfold latchedWord
  rw [h]
  simp

/-- Settles O9: the latch is written by the read and only read afterwards. -/
theorem lowWordLatchesHigh : Obligations.LowWordLatchesHigh := by
  unfold Obligations.LowWordLatchesHigh
  intro s a ha h4 hlow
  have hlatch : tabFind? (readReg 0 a 0 s).latches 0 = some (a, BitVec.ofNat 32 (wordAt s (a + 4))) := by
    simp [readReg_pf s 0 h4, latchAfter, hlow, tabFind_insert_self]
  refine ⟨readReg 0 a 0 s, ?_, by simp [readReg_pf s 0 h4], hlatch, by simp [readReg_pf s 0 h4], by simp [readReg_pf s 0 h4],
    fun u hu => ⟨readReg 0 (a + 4) 0 u, ?_, ?_⟩⟩
  · simp [Answers, exec, execLowWordRead, pf_toNat (by omega : a < 2 ^ 28)]
  · simp [Answers, exec, execLowWordRead, pf_toNat ha]
  · have hword := latchedWord_of_latch (hu ▸ hlatch)
    simp [readReg_pf u 0 (by omega : (a + 4) % 4 = 0), hword]

/-- Settles O10: the read clears the RC bits of its own word, and only there what the hardware adds stays. -/
theorem counterReadClears : Obligations.CounterReadClears := by
  unfold Obligations.CounterReadClears
  intro s p j off r inc hp hoff h4 hr hrc w
  have hread := readReg_pf s inc.toNat (regAt_aligned p j h4)
  rw [clearRc_of_rc _ hp ((regAt_mod p j hoff).symm ▸ hr) hrc] at hread
  have hlt := pageAt_lt hp
  refine ⟨readReg 0 (regAt p j off) inc.toNat s, ?_, ?_, ?_, fun b hb => ?_, ?_, ?_, ?_, ?_⟩
  · simp [Answers, exec, execCounterRead, pf_toNat (by omega : regAt p j off < 2 ^ 28)]
  · simp [hread]
  · rw [hread]
    exact getR_setR_word _ w (clearSet_lt s _ _ _ inc)
  · rw [hread]
    exact getR_setR_ne s _ hb
  all_goals simp [hread]

/-! ## The event bits (R10, R431) -/

/-- EVENT_CLEAR of a page's EVENT register is the write of that register. -/
theorem exec_eventClear {p : Page} {j : Nat} (v set : Word32) (s : State) (hp : pageAt (regAt p j 0x10) = some (p, j)) :
    exec (.eventClear (pf (regAt p j 0x10)) v set) s = .next (writeEvent p j v.toNat set.toNat s) := by
  have hlt := pageAt_lt hp
  simp [exec, execEventClear, pf_toNat (by omega : regAt p j 0x10 < 2 ^ 28), hp, regAt_mod p j (by omega : 0x10 < 0x1000)]

/-- Settles O11: the stored word is the one stated; a message that leaves with it touches no register. -/
theorem eventClear : Obligations.EventClear := by
  unfold Obligations.EventClear
  intro s p j v set hp w
  refine ⟨_, exec_eventClear v set s hp, ?_⟩
  have hself := getR_setR_word (regAt p j 0x10) w (clearSet_lt s (regAt p j 0x10) (0xFFFF_FFFF ^^^ v.toNat) (pageCap p) set)
  have hother := fun b (hb : b ≠ regAt p j 0x10) => getR_setR_ne s
    ((getR s (regAt p j 0x10) &&& (0xFFFF_FFFF ^^^ v.toNat)) ||| (set.toNat &&& pageCap p)) hb
  obtain h | h := writeEvent_cases p j v.toNat set.toNat s <;> rw [h]
  · exact ⟨hself, hother, rfl, rfl, rfl⟩
  · simpa [getR] using And.intro hself hother

/-! ## Reserved offsets and bits (R11) -/

/-- The bits of a register that a read may return; WO bits read as zero (R10). -/
def RegInfo.fields (r : RegInfo) : Nat := r.rw ||| r.rwl ||| r.w1c ||| r.rc ||| r.ro

/-- Every field of the catalogue lies in its 32-bit register. -/
theorem fields_lt {p : Page} {off : Nat} {r : RegInfo} (h : regInfo p off = some r) : r.fields < 2 ^ 32 := by
  have hall : (pageRegs p).all (fun r => decide (r.fields < 2 ^ 32)) = true := by cases p <;> rfl
  simpa using List.all_eq_true.mp hall r (List.mem_of_find?_eq_some h)

/-- A word whose bits all lie in some fields has none outside them. -/
theorem outside_fields {x f : Nat} (hx : ∀ i, x.testBit i = true → f.testBit i = true) (hf : f < 2 ^ 32) :
    x &&& (0xFFFF_FFFF ^^^ f) = 0 := by
  refine Nat.eq_of_testBit_eq fun i => ?_
  have hones : (0xFFFF_FFFF : Nat).testBit i = decide (i < 32) := Nat.testBit_two_pow_sub_one 32 i
  have h32 : f.testBit i = true → i < 32 := fun h => by
    by_contra hn
    have := Nat.testBit_lt_two_pow (lt_of_lt_of_le hf (Nat.pow_le_pow_right (by omega) (not_lt.mp hn)))
    simp [h] at this
  simp only [Nat.testBit_and, Nat.testBit_xor, Nat.zero_testBit, hones]
  by_cases h : x.testBit i = true
  · simp [hx i h, h32 (hx i h)]
  · simp [h]

/-- A field without bits reads as zero, as it would under its mask. -/
theorem maskedField (m x : Nat) : (if m = 0 then 0 else x &&& m) = x &&& m := by
  split
  · next h => simp [h]
  · rfl

/-- A page's word is zero where no register stands. -/
theorem pageValue_of_none (s : State) {p : Page} (j : Nat) {off : Nat} (h18 : 0x18 ≤ off) (h : regInfo p off = none) :
    pageValue s p j off = 0 := by
  unfold pageValue
  rw [h]
  split
  · rfl
  · rw [if_neg (by omega), if_neg (by omega), if_neg (by omega), if_neg (by omega)]

/-- Every bit of a register's word lies in its fields. -/
theorem pageValue_in_fields (s : State) {p : Page} (j : Nat) {off : Nat} {r : RegInfo} (h18 : 0x18 ≤ off)
    (h : regInfo p off = some r) (i : Nat) (hi : (pageValue s p j off).testBit i = true) : r.fields.testBit i = true := by
  unfold pageValue at hi
  rw [h] at hi
  split at hi
  · simp at hi
  · rw [if_neg (by omega), if_neg (by omega), if_neg (by omega), if_neg (by omega)] at hi
    simp only [maskedField, Nat.testBit_or, Nat.testBit_and, Bool.or_eq_true, Bool.and_eq_true] at hi
    simp only [RegInfo.fields, Nat.testBit_or, Bool.or_eq_true]
    tauto

/-- A write of a page's offset where no register stands changes nothing. -/
theorem writePage_of_none (s : State) (fn : Nat) {p : Page} (j : Nat) {off : Nat} (v : Nat) (h18 : 0x18 ≤ off)
    (h : regInfo p off = none) : writePage fn p j off v s = s := by
  unfold writePage
  dsimp only
  rw [h]
  split
  · rfl
  · rw [if_neg (by omega), if_neg (by omega)]

/-- What a write of a page's word by the physical function does. -/
theorem registerWrite_page (s : State) {p : Page} {j off : Nat} (v : Word32) (hp : pageAt (regAt p j off) = some (p, j))
    (hoff : off < 0x1000) (h4 : off % 4 = 0) :
    exec (.registerWrite 0 (pf (regAt p j off)) v) s = .next (writePage 0 p j off v.toNat s) := by
  have hlt := pageAt_lt hp
  simp [exec, execRegisterWrite, writeReg, pf_toNat (by omega : regAt p j off < 2 ^ 28), hp, regAt_mod p j hoff, regAt_aligned p j h4]

/-- Settles O8: a page's word has no bit outside its registers' fields, and a write finds no register elsewhere. -/
theorem reservedReadsZero : Obligations.ReservedReadsZero := by
  unfold Obligations.ReservedReadsZero
  intro s p j off
  refine ⟨fun v hp _ hoff h4 h18 hr => ⟨?_, ?_⟩, fun r h18 hr => ?_⟩
  · rw [wordAt_page s hp, regAt_mod p j hoff, pageValue_of_none s j h18 hr]
    rfl
  · rw [Answers, registerWrite_page s v hp hoff h4, writePage_of_none s 0 j v.toNat h18 hr]
  · exact outside_fields (pageValue_in_fields s j h18 hr) (fields_lt hr)

/-! ## Stores of plain registers (R8, R355, R387, R401) -/

/-- No register of a page but those of CTX, VFUNC, LIGATURE and SPATTER follows a low word that the host writes. -/
theorem isRwLow_plain {p : Page} {j off : Nat} (hp : pageAt (regAt p j off) = some (p, j)) (hoff : off < 0x1000) (h40 : 0x40 ≤ off)
    (h : plainReg p off = true) : isRwLow (regAt p j off - 4) = false := by
  have hmod := regAt_mod p j hoff
  have hq : pageAt (regAt p j off - 4) = some (p, j) := (pageAt_congr (by omega)).trans hp
  unfold isRwLow
  rw [hq]
  cases p with
  | ctx | vfunc | ligature | spatter => cases h
  | _ => rfl

/-- A write of a plain register that may be written now is a store. -/
theorem writePage_plain (s : State) (fn : Nat) {p : Page} {j off : Nat} (v : Nat) {r : RegInfo} (h40 : 0x40 ≤ off)
    (hplain : plainReg p off = true) (hr : regInfo p off = some r) (hw : r.rw ||| r.rwl ≠ 0) (hl : r.rwl = 0 ∨ s.boot.st = .held) :
    writePage fn p j off v s = storeReg (regAt p j off) v r s := by
  have hvf : ¬ (p = .vfunc ∧ (!bit s.boot.vfEn j) = true) := by rintro ⟨rfl, -⟩; cases hplain
  have hlock : ¬ (r.rwl ≠ 0 ∧ s.boot.st ≠ .held) := by tauto
  have hbits : ¬ (r.rw ||| r.rwl ||| r.wo ||| r.w1c = 0) := fun h => hw (Nat.or_eq_zero_iff.mp (Nat.or_eq_zero_iff.mp h).1).1
  unfold writePage
  dsimp only
  rw [if_neg hvf, if_neg (by omega), if_neg (by omega), hr]
  dsimp only
  rw [if_neg hlock, if_neg hbits]
  split
  case h_15 => rfl
  all_goals cases hplain

/-- A physical function's write of a plain register changes its word alone. -/
theorem registerWrite_plain (s : State) (v : Word32) {p : Page} {j off : Nat} {r : RegInfo}
    (hp : pageAt (regAt p j off) = some (p, j)) (hoff : off < 0x1000) (h4 : off % 4 = 0) (h40 : 0x40 ≤ off)
    (hplain : plainReg p off = true) (hr : regInfo p off = some r) (hw1c : r.w1c = 0) (hrc : r.rc = 0) (hro : r.ro = 0)
    (hw : r.rw ||| r.rwl ≠ 0) (hwo : r.wo = 0) (hl : r.rwl = 0 ∨ s.boot.st = .held) :
    Answers (.registerWrite 0 (pf (regAt p j off)) v) s (wrote (regAt p j off) (v.toNat &&& (r.rw ||| r.rwl)) s) := by
  rw [Answers, registerWrite_page s v hp hoff h4, writePage_plain s 0 v.toNat h40 hplain hr hw hl,
    storeReg_word s hw1c hrc hro hwo (isRwLow_plain hp hoff h40 hplain)]
  rfl

/-- XING_CFG is written in HELD, and the crossings follow it (R355). -/
theorem registerWrite_xing (s : State) (v : Word32) (h : s.boot.st = .held) :
    Answers (.registerWrite 0 (pf (regAt .understory 0 0x4C)) v) s
      (booted { s.boot with service := !v.getLsbD 0 } (wrote (regAt .understory 0 0x4C) (v.toNat % 2) s)) := by
  have hbit : v.getLsbD 0 = bit v.toNat 0 := by
    simp [BitVec.getLsbD, bit, Nat.testBit_zero, beq_eq_decide]
  have hpage : writePage 0 .understory 0 0x4C v.toNat s = writeXing v.toNat s := by
    unfold writePage
    simp [regInfo, pageRegs, understoryRegs, h]
  rw [Answers, registerWrite_page s v rfl (by decide) (by decide), hpage, hbit]
  rfl

/-! ## A virtual function's own page (R8, R375, R387) -/

/-- What a write of a virtual function's own page does: its page stands at VF BAR0 offset 0x10_0000. -/
theorem registerWrite_vf (s : State) (v : Word32) {fn : Fin 16} (h0 : fn.val ≠ 0) (hen : bit s.boot.vfEn fn.val = true) {off : Nat}
    (hoff : off < 0x1000) (h4 : off % 4 = 0) :
    exec (.registerWrite fn (pf (0x10_0000 + off)) v) s = .next (writePage fn.val .vfunc fn.val off v.toNat s) := by
  have hplace : place s fn.val (0x10_0000 + off) = some (regAt .vfunc fn.val off) := by
    unfold place
    rw [if_neg h0, if_neg (by simp [hen]), if_neg (by omega), if_pos (by omega), Nat.add_sub_cancel_left]
    rfl
  simp [exec, execRegisterWrite, writeReg, pf_toNat (by omega : 0x10_0000 + off < 2 ^ 28), hplace,
    pageAt_vfunc h0 fn.isLt hoff, regAt_mod .vfunc fn.val hoff, (by omega : (0x10_0000 + off) % 4 = 0)]

/-- The word of a window pair at this offset is one of its function's own registers, all of it writable under the mask. -/
theorem writePage_vfunc (s : State) {fn : Nat} (hen : bit s.boot.vfEn fn = true) {off m v : Nat} (h40 : 0x40 ≤ off)
    (hr : regInfo .vfunc off = some ⟨off, m, 0, 0, 0, 0, 0⟩) (hm : m ≠ 0) :
    writePage fn .vfunc fn off v s = storeReg (regAt .vfunc fn off) v ⟨off, m, 0, 0, 0, 0, 0⟩ s := by
  unfold writePage
  dsimp only
  rw [if_neg (by simp [hen]), if_neg (by omega), if_neg (by omega), hr]
  simp [hm]

theorem isRwLow_vfunc {fn off : Nat} (h0 : fn ≠ 0) (h16 : fn < 16) (hoff : off < 0x1000) :
    isRwLow (regAt .vfunc fn off) = [0x40, 0x48, 0x50, 0x58].contains off := by
  unfold isRwLow
  rw [pageAt_vfunc h0 h16 hoff, regAt_mod .vfunc fn hoff]

/-- The high word of a written pair puts the pair in effect, from the words stored. -/
theorem storeReg_high {a v m off : Nat} (s : State) (hlow : isRwLow a = true) :
    storeReg (a + 4) v ⟨off, m, 0, 0, 0, 0, 0⟩ s =
      setPair (effAt a) (getPair (setR (a + 4) (v &&& m) s) a) (setR (a + 4) (v &&& m) s) := by
  simp [storeReg, hlow]

theorem getPair_lt (s : State) (a : Nat) : getPair s a < 2 ^ 64 := by
  have := getR_lt s a
  have := getR_lt s (a + 4)
  unfold getPair
  omega

/-- In a canonical register table a pair of words reads as the 64-bit number just written. -/
theorem getPair_setPair {s : State} (a : Nat) {v : Nat} (w : tabWf (0 : Word32) s.regs = true) (h : v < 2 ^ 64) :
    getPair (setPair a v s) a = v := by
  have hlo : getR (setPair a v s) a = v % 2 ^ 32 := by
    rw [setPair, getR_setR_ne _ _ (by omega), getR_setR_word a w (Nat.mod_lt _ (by decide))]
  have hhi : getR (setPair a v s) (a + 4) = v / 2 ^ 32 := getR_setR_word (a + 4) (setR_wf a _ w) (by omega)
  rw [getPair, hlo, hhi]
  omega

/-- A virtual function's write of the low word of a window pair is a store. -/
theorem registerWrite_vfLow (s : State) (v : Word32) {fn : Fin 16} (h0 : fn.val ≠ 0) (hen : bit s.boot.vfEn fn.val = true) {k : Nat}
    (hk : k < 4) : Answers (.registerWrite fn (pf (0x10_0000 + 0x40 + 8 * k)) v) s
      (wrote (regAt .vfunc fn.val (0x40 + 8 * k)) (v.toNat &&& 0xFFE0_0001) s) := by
  have hr : regInfo .vfunc (0x40 + 8 * k) = some ⟨0x40 + 8 * k, 0xFFE0_0001, 0, 0, 0, 0, 0⟩ := by interval_cases k <;> rfl
  have hlow : isRwLow (regAt .vfunc fn.val (0x40 + 8 * k) - 4) = false := by
    have : regAt .vfunc fn.val (0x40 + 8 * k) - 4 = regAt .vfunc fn.val (0x3C + 8 * k) := by simp only [regAt]; omega
    rw [this, isRwLow_vfunc h0 fn.isLt (by omega)]
    interval_cases k <;> rfl
  rw [Answers, Nat.add_assoc, registerWrite_vf s v h0 hen (by omega) (by omega), writePage_vfunc s hen (by omega) hr (by decide),
    storeReg_word s rfl rfl rfl rfl hlow, Nat.or_zero]
  rfl

/-- A virtual function's write of the high word of a window pair stores it and puts the pair in effect. -/
theorem registerWrite_vfHigh (s : State) (v : Word32) {fn : Fin 16} (h0 : fn.val ≠ 0) (hen : bit s.boot.vfEn fn.val = true) {k : Nat}
    (hk : k < 4) : ∃ t, Answers (.registerWrite fn (pf (0x10_0000 + 0x44 + 8 * k)) v) s t ∧ t = withRegs t.regs s ∧
      (tabWf (0 : Word32) s.regs = true → cfgPair t (regAt .vfunc fn.val (0x40 + 8 * k)) =
        getR s (regAt .vfunc fn.val (0x40 + 8 * k)) + 2 ^ 32 * (v.toNat &&& 0xFF_FFFF)) := by
  have hr : regInfo .vfunc (0x44 + 8 * k) = some ⟨0x44 + 8 * k, 0xFF_FFFF, 0, 0, 0, 0, 0⟩ := by interval_cases k <;> rfl
  have hlow : isRwLow (regAt .vfunc fn.val (0x40 + 8 * k)) = true := by
    rw [isRwLow_vfunc h0 fn.isLt (by omega)]
    interval_cases k <;> rfl
  have hexec := registerWrite_vf s v h0 hen (off := 0x44 + 8 * k) (by omega) (by omega)
  have hhigh : regAt .vfunc fn.val (0x44 + 8 * k) = regAt .vfunc fn.val (0x40 + 8 * k) + 4 := by simp only [regAt]; omega
  rw [writePage_vfunc s hen (by omega) hr (by decide), hhigh, storeReg_high s hlow, ← Nat.add_assoc] at hexec
  refine ⟨_, hexec, rfl, fun w => ?_⟩
  rw [cfgPair, getPair_setPair _ (setR_wf _ _ w) (getPair_lt _ _), getPair, getR_setR_ne s _ (by omega),
    getR_setR_word _ w (lt_of_le_of_lt Nat.and_le_left v.isLt)]

/-- Outside its page, tables and contexts a virtual function reaches nothing but its pending bits. -/
theorem place_vfBeyond (s : State) {fn off : Nat} (h0 : fn ≠ 0)
    (h : 0x10_1400 ≤ off ∨ (off < 0x10_0000 ∧ ctxFunc s (off / 0x1000) ≠ fn)) :
    place s fn off = none ∨ (place s fn off = some (0x1000_0000 * fn + off) ∧ 0x10_1400 ≤ off) := by
  unfold place
  rw [if_neg h0]
  split
  · exact .inl rfl
  · obtain h | ⟨h, hf⟩ := h
    · rw [if_neg (by omega), if_neg (by omega)]
      split
      · exact .inr ⟨rfl, h⟩
      · exact .inl rfl
    · rw [if_pos h, if_neg hf]
      exact .inl rfl

/-- A virtual function's pending bits are read-only. -/
theorem writeWindow_pending (s : State) {fn off : Nat} (v : Nat) (h0 : fn ≠ 0) (h : 0x10_1400 ≤ off) (hoff : off < 0x1000_0000) :
    writeWindow (0x1000_0000 * fn + off) v s = s := by
  have hdiv : (0x1000_0000 * fn + off) / 0x1000_0000 = fn := by omega
  have hmod : (0x1000_0000 * fn + off) % 0x1000_0000 = off := by omega
  unfold writeWindow
  dsimp only
  rw [hdiv, hmod, if_pos h0, if_neg (by omega)]

/-- No page of the catalogue lies in a virtual function's own space. -/
theorem pageAt_vfSpace {fn off : Nat} (h0 : fn ≠ 0) : pageAt (0x1000_0000 * fn + off) = none := by
  cases h : pageAt (0x1000_0000 * fn + off) with
  | none => rfl
  | some x =>
    have := pageAt_lt h
    omega

/-- What a virtual function's write does not reach: the contexts of others, and what lies beyond its tables. -/
theorem registerWrite_vfBeyond (s : State) (v : Word32) {fn : Fin 16} (h0 : fn.val ≠ 0) (off : BitVec 28)
    (h : 0x10_1400 ≤ off.toNat ∨ (off.toNat < 0x10_0000 ∧ ctxFunc s (off.toNat / 0x1000) ≠ fn.val)) :
    Answers (.registerWrite fn off v) s s := by
  have hwrite : writeReg fn.val off.toNat v.toNat s = s := by
    unfold writeReg
    split
    · rfl
    · obtain hp | ⟨hp, hoff⟩ := place_vfBeyond s h0 h
      · rw [hp]
      · rw [hp]
        dsimp only
        rw [pageAt_vfSpace h0]
        exact writeWindow_pending s v.toNat h0 hoff off.isLt
  rw [Answers, exec, execRegisterWrite, hwrite]

/-- Settles O7: the physical function's plain registers and XING_CFG, then a virtual function's page and what it does not reach. -/
theorem registerWriteStores : Obligations.RegisterWriteStores := by
  unfold Obligations.RegisterWriteStores
  intro s v
  exact ⟨fun _ _ _ _ => registerWrite_plain s v, registerWrite_xing s v, fun _ h0 hen =>
    ⟨fun _ hk => ⟨registerWrite_vfLow s v h0 hen hk, registerWrite_vfHigh s v h0 hen hk⟩, registerWrite_vfBeyond s v h0⟩⟩

/-! ## Which commands answer a next state

A meaning that ends in a next state whatever it finds: shown once for each shape that the meanings of the rows share. -/

/-- The outcome is a next state: neither a fault nor a refusal. -/
def HasNext (o : Host.Outcome State Fault Refusal) : Prop := ∃ t, o = .next t

theorem hasNext_next (t : State) : HasNext (.next t) := ⟨t, rfl⟩

section guards
variable {p : Prop} [Decidable p]

theorem hasNext_ite {a b : Host.Outcome State Fault Refusal} (ha : HasNext a) (hb : HasNext b) : HasNext (if p then a else b) := by
  split
  · exact ha
  · exact hb

/-- A command that one condition guards. -/
theorem hasNext_guard (t u : State) : HasNext (if p then .next t else .next u) := hasNext_ite (hasNext_next t) (hasNext_next u)

end guards

/-! The rows of a nib's engines. -/

theorem quillRow_hasNext (kind : Nat → Bool) (body : Nat → Nat → Nat → State → State) (nib : Fin 1024) (s : State) :
    HasNext (quillRow kind body nib s) :=
  hasNext_ite (hasNext_next _) (hasNext_ite (hasNext_next _) (hasNext_guard _ _))

theorem waitDone_hasNext (kind : Nat) (ended : Nib → Nat → Nat → Bool) (finish : Nib → Nat → Nat → Nib) (nib : Fin 1024)
    (s : State) : HasNext (waitDone kind ended finish nib s) := by
  unfold waitDone
  dsimp only
  split
  · exact hasNext_guard _ _
  · exact hasNext_next _

theorem mxRow_hasNext (kind : Nib → Nat → Bool) (body : Nat → MxEntry → State → State) (nib : Fin 1024) (ups : List Upset)
    (s : State) : HasNext (mxRow kind body nib ups s) := by
  unfold mxRow
  dsimp only
  split
  · exact hasNext_ite (hasNext_next _) (hasNext_ite (hasNext_next _) (hasNext_guard _ _))
  · exact hasNext_next _

theorem vxRow_hasNext (o : Nat) (body : Nat → VecEntry → State → State) (nib : Fin 1024) (ups : List Upset) (s : State) :
    HasNext (vxRow o body nib ups s) := by
  unfold vxRow
  dsimp only
  split
  · exact hasNext_ite (hasNext_next _) (hasNext_ite (hasNext_next _) (hasNext_ite (hasNext_next _) (hasNext_guard _ _)))
  · exact hasNext_next _

theorem descRow_hasNext (kind : Nat) (send : Nat → Nat → Desc → Nat → State → Sent) (after : Nat → Desc → State → State)
    (nib : Fin 1024) (seq : Nat) (ups : List Upset) (s : State) : HasNext (descRow kind send after nib seq ups s) := by
  unfold descRow
  dsimp only
  split
  · refine hasNext_ite (hasNext_next _) ?_
    split
    · exact hasNext_next _
    · exact hasNext_next _
  · exact hasNext_next _

theorem remoteRow_hasNext (kind : Nat) (send : Nat → Nat → Nat → Desc → Nat → State → Sent) (nib : Fin 1024) (desc : Nat)
    (ups : List Upset) (s : State) : HasNext (remoteRow kind send nib desc ups s) := by
  unfold remoteRow
  dsimp only
  split
  · split
    · exact descRow_hasNext ..
    · exact hasNext_guard _ _
  · exact hasNext_next _

/-- The commands that name an access of their row's kind carry it out; every other command ends in a next state as it stands. -/
theorem exec_hasNext (c : Instr) (s : State) (h : WellFormed c = true) : HasNext (exec c s) := by
  cases c with
  | narrowAccess fn off size write => exact ⟨_, if_neg (by simpa [WellFormed] using h)⟩
  | bar2Read fn off len => exact ⟨_, if_neg (by simpa [WellFormed, Nat.pos_iff_ne_zero] using h)⟩
  | bar2Write fn off data => exact ⟨_, if_neg (by simpa [WellFormed, List.length_pos_iff] using h)⟩
  | registerWrite | lowWordRead | counterRead | evtEnSet | invDone | pwrCfgWrite | portRetrainCmd | modEnAssert | perstDeassert
  | cblOverload | scale | agreed | partialPkt | param | close | verdict | lossOfSignal | vfEnable =>
    exact hasNext_next _
  | arm | disarmDone | mapGo | mapApplied | selfMap | selfMapDone | imgGo | keyLoad | keyClear | attGo | sptGo | ptInv
  | ctxEnable | kill | killDone | release | evict | watchWake | portDownCmd | fruRead | meventClr | powerOn | understoryRelease
  | pwrgdRelease | inputPowerLoss | configReady | linkTrained | vfFlr | pwrBrakeAssert | pwrBrakeRelease | railWarning
  | railRecover | dipRecoveryEnd | supplySuspect | supplyReset | vaonReset | fabricUnlock | pllLockTimeout | pllLockLoss
  | understoryTick | groveSleep | groveSleepDone | groveWakeDone | groveScrubDone | marginLow | nibTransplant | sweepEnd
  | gatherPass | seamErrorThreshold | patrolRead | refresh | stackFail | signalDetect | trainingFrame | negotiateTimeout
  | identifyTimeout | idHoldEnd | retrainTimeout | laneErrorThreshold | spareAck | inputUv | ident | state | input | temp
  | rails | mevent | cables =>
    exact hasNext_guard _ _
  | disarm | modEnDeassert | hostReset | equalizeCandidateEnd => exact hasNext_ite (hasNext_next _) (hasNext_guard _ _)
  | imageVerified | codewordReceive => exact hasNext_ite (hasNext_next _) (hasNext_ite (hasNext_next _) (hasNext_guard _ _))
  | portEnable => exact hasNext_ite (hasNext_guard _ _) (hasNext_guard _ _)
  | aluAdd | aluSub | aluAnd | aluOr | aluXor | aluSll | aluSrl | aluSra | aluMul | aluSlt | aluSltu | aluFlt | aluFeq
  | aluFadd | aluFmul | addi | lui | lw | sw | beq | bne | blt | bge | jal | jalr | mxq | vxq | dma | wsig | wtag | rsum | csrr
  | csrw | vwait | strandEnd =>
    dsimp only [exec, execAluAdd, execAluSub, execAluAnd, execAluOr, execAluXor, execAluSll, execAluSrl, execAluSra,
      execAluMul, execAluSlt, execAluSltu, execAluFlt, execAluFeq, execAluFadd, execAluFmul, execAddi, execLui, execLw,
      execSw, execBeq, execBne, execBlt, execBge, execJal, execJalr, execMxq, execVxq, execDma, execWsig, execWtag,
      execRsum, execCsrr, execCsrw, execVwait, execStrandEnd, aluRow]
    exact quillRow_hasNext ..
  | wsigDone | wtagDone | rsumDone | vwaitDone =>
    dsimp only [exec, execWsigDone, execWtagDone, execRsumDone, execVwaitDone]
    exact waitDone_hasNext ..
  | sparseMmaIssue | readoutIssue | accclrIssue =>
    dsimp only [exec, execSparseMmaIssue, execReadoutIssue, execAccclrIssue]
    exact mxRow_hasNext ..
  | vadd | vsub | vmul | vfma | vmax | vmin | vabs | vneg | vrcp | vsqrt | vrsqrt | vexp2 | vlog2 | vcmplt | vsel | vmov | vfn
  | vrng | vld | vst | vpop | vredr | vredc | vsum | vtload =>
    exact vxRow_hasNext ..
  | descHbmRead | descHbmWrite | descLocalCopy =>
    dsimp only [exec, execDescHbmRead, execDescHbmWrite, execDescLocalCopy]
    exact descRow_hasNext ..
  | push | pull =>
    dsimp only [exec, execPush, execPull]
    exact remoteRow_hasNext ..
  | mmaIssue => exact hasNext_ite (hasNext_next _) (mxRow_hasNext ..)
  | eventClear | eventEnWrite | msixUnmask | verifyComplete | keyParsed | attDone | spatterDone | deviceStopped | headVaWrite
  | plotSaveDone | ctxEvict | layerStart | layerEnd | replay | groveReplace | sweep | scrStall | scribeGroupDone | updateCommit
  | issueStall | quillWait | vecStall | dmaStall | ptWalk | dmaRowLand | descriptorComplete | remotePushArrive | pullServe
  | flitArrive | seamSwitch | mcRequest | bankBusyRetry | mcRead | pprDone | bucketAgreeing | stepClose | abort | stepTimeout
  | identityBlock | spareReq =>
    -- what the command looks up decides its branch; every branch ends in a next state
    dsimp only [exec, execEventClear, execEventEnWrite, execMsixUnmask, execVerifyComplete, execKeyParsed, execAttDone,
      execSpatterDone, execDeviceStopped, execHeadVaWrite, execPlotSaveDone, execCtxEvict, execLayerStart, execLayerEnd,
      execReplay, execGroveReplace, execSweep, execScrStall, execScribeGroupDone, execUpdateCommit, execIssueStall,
      execQuillWait, execVecStall, execDmaStall, execPtWalk, execDmaRowLand, execDescriptorComplete, execRemotePushArrive,
      execPullServe, execFlitArrive, execSeamSwitch, execMcRequest, execBankBusyRetry, execMcRead, execPprDone,
      execBucketAgreeing, execStepClose, execAbort, execStepTimeout, execIdentityBlock, execSpareReq]
    repeat' split
    all_goals exact hasNext_next _

/-- A term that names no access of its row's kind is one of three rows, and stops. -/
theorem exec_illFormed (c : Instr) (s : State) (h : WellFormed c = false) : exec c s = .fault .illFormed := by
  cases c with
  | narrowAccess fn off size write => exact if_pos (by simpa [WellFormed] using h)
  | bar2Read fn off len => exact if_pos (by simpa [WellFormed] using h)
  | bar2Write fn off data => exact if_pos (by simpa [WellFormed] using h)
  | _ => cases h

/-- Settles O2: every row's meaning ends in a next state, but for the three rows whose terms may name no access. -/
theorem wellFormedCommandsComplete : Obligations.WellFormedCommandsComplete := by
  unfold Obligations.WellFormedCommandsComplete
  intro c s
  exact ⟨exec_hasNext c s, exec_illFormed c s, fun fn off size h4 h8 _ => narrowAccess_answers fn off s (narrowOk_of_wide h4 h8)⟩

end Sys2Proof.Machine

/-! SUPPORT. The Canopy family: the changes that an access of HBM is made of, operation by operation. -/

namespace Sys2Proof.Machine

/-! ## Edits: what an access of memory may change -/

/-- One change that an access of HBM can make: a register word other than EVENT, an EVENT bit set, what goes out, the log, an open value taken,
the accumulators of a crossing, a controller, the errors of codewords, an entry of the repair map, and what a transfer under way was answered. -/
inductive MemEdit (s : State) : State → Prop
  | word {a : Nat} (v : Nat) (ha : a % 0x1000 ≠ 0x10) : MemEdit s (setR a v s)
  | event (p : Page) (j e : Nat) : MemEdit s (setR (regAt p j 0x10) (getR s (regAt p j 0x10) ||| 2 ^ e) s)
  | sent (m : Tab Msix) (o : List Out) : MemEdit s { s with msix := m, outs := o }
  | log (b : Blotter) : MemEdit s { s with blotter := b }
  | take : MemEdit s (takeFree s)
  | xings (x : Vector Nat 5) : MemEdit s { s with xings := x }
  | mc (m : Nat) (x : Mc) : MemEdit s (setMc m x s)
  | errors (b : Tab CwErr) : MemEdit s { s with hbm := { s.hbm with bad := b } }
  | entry (e : Word64) : MemEdit s { s with seedbank := { s.seedbank with entries := insertEntry e s.seedbank.entries } }
  | generation (g : Nat) : MemEdit s { s with seedbank := { s.seedbank with gen := g } }
  | answers (f : Xfer → Xfer) (hf : ∀ x, sameXfer x (f x) = true) :
    MemEdit s { s with canopy := { s.canopy with xfers := s.canopy.xfers.map f } }

/-- A chain of such changes. Each lemma below carries a chain over one more operation of the model. -/
abbrev MemEdits : State → State → Prop := Relation.ReflTransGen MemEdit

/-- A chain of changes of any kind goes on over a loop whose body carries it. -/
theorem forEach_chain {r : State → State → Prop} {s u : State} {α : Type} {f : α → State → State} (xs : List α)
    (hf : ∀ x u, Relation.ReflTransGen r s u → Relation.ReflTransGen r s (f x u)) (h : Relation.ReflTransGen r s u) :
    Relation.ReflTransGen r s (forEach xs f u) := by
  induction xs generalizing u with
  | nil => exact h
  | cons x xs ih => exact ih (hf x u h)

/-- And over a fold that carries a result along. -/
theorem foldl_chain {r : State → State → Prop} {s : State} {α β : Type} {f : β × State → α → β × State} (xs : List α)
    (hf : ∀ p x, Relation.ReflTransGen r s p.2 → Relation.ReflTransGen r s (f p x).2) {p : β × State}
    (h : Relation.ReflTransGen r s p.2) : Relation.ReflTransGen r s (xs.foldl f p).2 := by
  induction xs generalizing p with
  | nil => exact h
  | cons x xs ih => exact ih (hf p x h)

/-- And over either branch of a condition. -/
theorem ite_chain {r : State → State → Prop} {s a b : State} {p : Prop} [Decidable p] (ha : Relation.ReflTransGen r s a)
    (hb : Relation.ReflTransGen r s b) : Relation.ReflTransGen r s (if p then a else b) := by
  split
  · exact ha
  · exact hb

/-- No register but EVENT stands at its offset. -/
theorem regAt_ne_event (p : Page) (j : Nat) {off : Nat} (ho : off < 0x1000 ∧ off ≠ 0x10) : regAt p j off % 0x1000 ≠ 0x10 := by
  rw [regAt_mod p j ho.1]
  exact ho.2

section memEdits
variable {s u : State} (h : MemEdits s u)
include h

/-! Registers, messages and events. -/

theorem memEdits_setF (p : Page) (j : Nat) {off : Nat} (hi lo v : Nat) (ho : off < 0x1000 ∧ off ≠ 0x10 := by decide) :
    MemEdits s (setF (regAt p j off) hi lo v u) := h.tail (.word _ (regAt_ne_event p j ho))

theorem memEdits_bump (p : Page) (j : Nat) {off : Nat} (hi lo n : Nat) (ho : off < 0x1000 ∧ off ≠ 0x10 := by decide) :
    MemEdits s (bump (regAt p j off) hi lo n u) := memEdits_setF h p j hi lo _ ho

theorem memEdits_setPair (p : Page) (j : Nat) {off : Nat} (v : Nat) (ho : off < 0x1000 ∧ off ≠ 0x10 := by decide)
    (ho4 : off + 4 < 0x1000 ∧ off + 4 ≠ 0x10 := by decide) : MemEdits s (setPair (regAt p j off) v u) :=
  (h.tail (.word _ (regAt_ne_event p j ho))).tail (.word _ (regAt_ne_event p j ho4))

theorem memEdits_addPair (p : Page) (j : Nat) {off : Nat} (n : Nat) (ho : off < 0x1000 ∧ off ≠ 0x10 := by decide)
    (ho4 : off + 4 < 0x1000 ∧ off + 4 ≠ 0x10 := by decide) : MemEdits s (addPair (regAt p j off) n u) :=
  memEdits_setPair h p j _ ho ho4

theorem memEdits_takeFree : MemEdits s (takeFree u) := h.tail .take

theorem memEdits_sendMsix (fn vec : Nat) : MemEdits s (sendMsix fn vec u) := by
  unfold sendMsix
  split
  · split
    · exact h.tail (.sent _ u.outs)
    · exact h.tail (.sent u.msix _)
  · exact h

theorem memEdits_sendEvent : MemEdits s (sendEvent u) := by
  unfold sendEvent
  dsimp only
  split
  · exact memEdits_sendMsix h _ _
  · exact h

theorem memEdits_setEvent (p : Page) (j e : Nat) : MemEdits s (setEvent p j e u) := by
  unfold setEvent
  dsimp only
  split
  · exact memEdits_sendEvent (h.tail (.event p j e))
  · exact h.tail (.event p j e)

theorem memEdits_logNow (p : Page) (j e : Nat) (n : Note) : MemEdits s (logNow p j e n u) :=
  memEdits_takeFree (h.tail (.log _))

theorem memEdits_countEvent (q p : Page) (j : Nat) {off : Nat} (hi lo : Nat) (ho : off < 0x1000 ∧ off ≠ 0x10 := by decide) :
    MemEdits s (countEvent q (regAt p j off) hi lo u) := by
  unfold countEvent
  split
  · exact h
  · exact memEdits_bump h p j hi lo 1 ho

theorem memEdits_crossEvent (full : Bool) (f : Nat) : MemEdits s (crossEvent full f u) := by
  unfold crossEvent
  dsimp only
  split
  · exact h.tail (.xings _)
  · split
    · exact memEdits_setEvent (memEdits_logNow (memEdits_setF (memEdits_takeFree (memEdits_takeFree h)) _ _ _ _ _) _ _ _ _) _ _ _
    · exact memEdits_takeFree (memEdits_takeFree h)

theorem memEdits_crossOf (full : Bool) (p : Page) : MemEdits s (crossOf full p u) := by
  unfold crossOf
  split
  · exact h
  · exact memEdits_crossEvent h _ _

theorem memEdits_raise (p : Page) (j e : Nat) (n : Note) : MemEdits s (raise p j e n u) :=
  memEdits_setEvent (memEdits_crossOf (memEdits_logNow h p j e n) _ _) p j e

theorem memEdits_mapAdd (e : Nat) : MemEdits s (mapAdd e u) := by
  unfold mapAdd
  split
  · exact h
  · exact memEdits_raise ((h.tail (.entry _)).tail (.generation _)) _ _ _ _

/-! Controllers: errors, repairs and tags. -/

theorem memEdits_modMc (m : Nat) (f : Mc → Mc) : MemEdits s (modMc m f u) := h.tail (.mc _ _)

theorem memEdits_errLast (mc dpa cls : Nat) : MemEdits s (errLast mc dpa cls u) := memEdits_setPair h _ _ _

theorem memEdits_startRepair (mc key : Nat) (ue : Bool) : MemEdits s (startRepair mc key ue u) := by
  unfold startRepair
  dsimp only
  split
  · exact h
  · exact h.tail (.mc _ _)

theorem memEdits_noteCe (mc cw : Nat) : MemEdits s (noteCe mc cw u) :=
  memEdits_setEvent (memEdits_crossOf (memEdits_takeFree ((memEdits_errLast (memEdits_countEvent h _ _ _ _ _) _ _ _).tail (.log _))) _ _) _ _ _

theorem memEdits_memCe (mc cw : Nat) : MemEdits s (memCe mc cw u) := by
  unfold memCe
  dsimp only
  split
  · exact memEdits_startRepair ((memEdits_noteCe h mc cw).tail (.mc _ _)) _ _ _
  · exact (memEdits_noteCe h mc cw).tail (.mc _ _)

theorem memEdits_memUe (mc cw : Nat) (poisoned : Bool) : MemEdits s (memUe mc cw poisoned u) :=
  memEdits_startRepair (memEdits_raise (memEdits_errLast (memEdits_countEvent h _ _ _ _ _) _ _ _) _ _ _ _) _ _ _

theorem memEdits_injectError (row : Nat) : MemEdits s (injectError row u) := by
  unfold injectError
  dsimp only
  split
  · exact (h.tail (.errors _)).tail (.word _ (regAt_ne_event _ _ (by decide)))
  · exact h

theorem memEdits_openPage (dpa : Nat) : MemEdits s (openPage dpa u) := memEdits_modMc h _ _

theorem memEdits_stackWrite (row : Nat) (keep : Nat → Bool) : MemEdits s (stackWrite row keep u) :=
  memEdits_injectError (memEdits_openPage (h.tail (.errors _)) _) _

theorem memEdits_poisonRow (row : Nat) : MemEdits s (poisonRow row u) :=
  memEdits_injectError (memEdits_openPage (h.tail (.errors _)) _) _

theorem memEdits_checkRow (row : Nat) (back : Bool) : MemEdits s (checkRow row back u) := by
  have hsingles (ps : List (Nat × CwErr)) : MemEdits s (forEach ps (fun p s =>
      memCe (mcOf row) p.1 { s with hbm := { s.hbm with bad := tabErase s.hbm.bad p.1 } }) u) :=
    forEach_chain ps (fun _ _ h => memEdits_memCe (h.tail (.errors _)) _ _) h
  unfold checkRow
  dsimp only
  split
  · exact ite_chain (memEdits_injectError (hsingles _) _) (hsingles _)
  · exact memEdits_memUe (ite_chain (memEdits_injectError (hsingles _) _) (hsingles _)) _ _ _

theorem memEdits_copyDram (mc key : Nat) : MemEdits s (copyDram mc key u) :=
  forEach_chain _ (fun _ _ h => memEdits_stackWrite (forEach_chain _ (fun _ _ h => memEdits_noteCe (h.tail (.errors _)) _ _) h) _ _) h

theorem memEdits_awaitRepair (dpa : Nat) : MemEdits s (awaitRepair dpa u) := forEach_chain _ (fun _ _ h => memEdits_copyDram h _ _) h

theorem memEdits_answerBusy (dpa : Nat) : MemEdits s (answerBusy dpa u) := memEdits_raise (memEdits_countEvent h _ _ _ _ _) _ _ _ _

/-! The memory-side cache. -/

theorem memEdits_putLines (dpa : Nat) (ls : List Line) : MemEdits s (putLines dpa ls u) := memEdits_modMc h _ _

theorem memEdits_lineCe (l : Line) (k : Nat) : MemEdits s (lineCe l k u) := by
  unfold lineCe
  exact memEdits_modMc (memEdits_noteCe h _ _) _ _

theorem memEdits_correctLine (l : Line) : MemEdits s (correctLine l u) := forEach_chain _ (fun _ _ h => memEdits_lineCe h _ _) h

theorem memEdits_dropLine (dpa : Nat) : MemEdits s (dropLine dpa u) := memEdits_putLines h _ _

theorem memEdits_spillLine (l : Line) : MemEdits s (spillLine l u) := by
  unfold spillLine
  dsimp only
  have hdrop := memEdits_dropLine (memEdits_correctLine h l) (512 * l.row)
  split
  · exact hdrop
  · split
    · exact memEdits_poisonRow hdrop _
    · exact memEdits_stackWrite (hdrop.tail (.errors _)) _ _

theorem memEdits_dropWay (mc w : Nat) : MemEdits s (dropWay mc w u) := memEdits_mapAdd (memEdits_modMc h _ _) _

theorem memEdits_reserveWay (mc slice fuel : Nat) : MemEdits s (reserveWay mc slice fuel u) := by
  induction fuel generalizing u with
  | zero => exact h
  | succ fuel ih =>
    unfold reserveWay
    split
    · exact h
    · next k _ =>
      have hspill := forEach_chain (wayLines u mc slice k) (fun l _ h => memEdits_spillLine h l) h
      dsimp only
      split
      · exact ih (memEdits_dropWay hspill _ _)
      · exact hspill

theorem memEdits_retireWay (mc w : Nat) : MemEdits s (retireWay mc w u) :=
  memEdits_reserveWay (memEdits_dropWay (forEach_chain _ (fun l _ h => memEdits_spillLine h l) h) _ _) _ _ _

theorem memEdits_judgeWay (l : Line) : MemEdits s (judgeWay l u) := by
  unfold judgeWay
  split
  · exact memEdits_retireWay h _ _
  · exact h

theorem memEdits_insertLine (al : Alloc) (dpa : Nat) (dirty : Bool) (errs : Tab CwErr) : MemEdits s (insertLine al dpa dirty errs u) := by
  unfold insertLine
  dsimp only
  split
  · exact memEdits_putLines h _ _
  · split
    · exact memEdits_spillLine h _
    · exact memEdits_judgeWay (memEdits_putLines (memEdits_spillLine (memEdits_takeFree h) _) _ _) _

theorem memEdits_settleLine (dpa : Nat) : MemEdits s (settleLine dpa u) := by
  unfold settleLine
  split
  · exact h
  · dsimp only
    split
    · exact h
    · split
      · exact memEdits_judgeWay (memEdits_spillLine h _) _
      · exact memEdits_judgeWay (memEdits_putLines (memEdits_correctLine h _) _ _) _

theorem memEdits_useLine (l : Line) : MemEdits s (useLine l u) := memEdits_putLines h _ _

/-! Reads and writes of a row, and the reads that wait. -/

theorem memEdits_readRowAt (al : Alloc) (row : Nat) : MemEdits s (readRowAt al row u).2 := by
  unfold readRowAt
  dsimp only
  have hline := memEdits_settleLine (memEdits_awaitRepair h row) row
  generalize settleLine row (awaitRepair row u) = v at hline ⊢
  split
  · have hhit : MemEdits s (addPair (regAt .memctl (mcOf row) 0x58) 1 v) := memEdits_addPair hline _ _ _
    split
    · exact hhit
    · split
      · exact memEdits_useLine hhit _
      · exact memEdits_memUe (memEdits_useLine hhit _) _ _ _
  · generalize hw : (if mscMode v (mcOf row) = 1 then _ else v) = w
    have hmiss : MemEdits s w := by
      rw [← hw]
      split
      · exact memEdits_addPair hline _ _ _
      · exact hline
    have hcheck := memEdits_checkRow (memEdits_openPage hmiss row) row true
    split
    · exact memEdits_insertLine hcheck _ _ _ _
    · exact hcheck

theorem memEdits_writeRowAt (al : Alloc) (a n : Nat) : MemEdits s (writeRowAt al a n u) := by
  unfold writeRowAt
  dsimp only
  have hrepair := memEdits_awaitRepair h (a / 512 * 512)
  generalize awaitRepair (a / 512 * 512) u = v at hrepair ⊢
  generalize hw : (if n = 512 then v else settleLine (a / 512 * 512) v) = w
  have hline : MemEdits s w := by
    rw [← hw]
    split
    · exact hrepair
    · exact memEdits_settleLine hrepair _
  split
  · have hhit : MemEdits s (addPair (regAt .memctl (mcOf (a / 512 * 512)) 0x58) 1 w) := memEdits_addPair hline _ _ _
    split
    · exact hhit
    · exact memEdits_useLine hhit _
  · generalize hy : (if (mscMode w (mcOf (a / 512 * 512)) == 1) = true then _ else w) = y
    have hmiss : MemEdits s y := by
      rw [← hy]
      split
      · exact memEdits_addPair hline _ _ _
      · exact hline
    generalize hz : (if n = 512 then y else _) = z
    have hcheck : MemEdits s z := by
      rw [← hz]
      split
      · exact hmiss
      · exact memEdits_checkRow (memEdits_openPage hmiss _) _ _
    split
    · exact memEdits_insertLine hcheck _ _ _ _
    · exact memEdits_stackWrite hcheck _ _

theorem memEdits_serveReads (row : Nat) : MemEdits s (serveReads row u) := by
  unfold serveReads
  split
  · exact h
  · next x _ =>
    have hread := memEdits_readRowAt h (xferAlloc x) row
    generalize readRowAt (xferAlloc x) row u = q at hread ⊢
    refine hread.tail (.answers _ fun y => ?_)
    split <;> simp [sameXfer]

theorem memEdits_readsFirst (lo hi : Nat) : MemEdits s (readsFirst lo hi u) := forEach_chain _ (fun _ _ h => memEdits_serveReads h _) h

theorem memEdits_leaveTag (x : Xfer) : MemEdits s (leaveTag x u) := by
  unfold leaveTag
  dsimp only
  generalize hv : (if x.early.isSome = true then u else serveReads x.place u) = v
  have hserve : MemEdits s v := by
    rw [← hv]
    split
    · exact h
    · exact memEdits_serveReads h _
  refine hserve.tail (.answers _ fun y => ?_)
  repeat' split
  all_goals simp [sameXfer]

theorem memEdits_comeToBank (dpa : Nat) : MemEdits s (comeToBank dpa u) := by
  unfold comeToBank
  dsimp only
  generalize hv : (if bankFull u dpa = true then answerBusy dpa u else u) = v
  have hbusy : MemEdits s v := by
    rw [← hv]
    split
    · exact memEdits_answerBusy h _
    · exact h
  split
  · split
    · exact memEdits_leaveTag hbusy _
    · exact hbusy
  · exact hbusy

theorem memEdits_memReadAs (al : Alloc) (a n : Nat) : MemEdits s (memReadAs al a n u).2 := by
  unfold memReadAs
  dsimp only
  generalize hr : List.foldl _ _ _ = r
  have hfold : MemEdits s r.2 := by
    rw [← hr]
    refine foldl_chain _ (fun p x h => ?_) h
    have hread := memEdits_readRowAt (memEdits_comeToBank h (x.1 / 512 * 512)) al (x.1 / 512 * 512)
    generalize readRowAt _ _ _ = q at hread ⊢
    exact hread
  exact hfold

theorem memEdits_memRead (a n : Nat) : MemEdits s (memRead a n u).2 := memEdits_memReadAs h .usual a n

/-! Translation. -/

theorem memEdits_of_walkRead {table idx : Nat} {r : Option Nat} {v : State} (hr : walkRead table idx u = (r, v)) : MemEdits s v := by
  have hread := memEdits_memRead h (table + 8 * idx) 8
  unfold walkRead at hr
  generalize memRead _ _ u = q at hr hread
  obtain ⟨b, w⟩ := q
  cases hr
  exact hread

theorem memEdits_walkLevels (c va : Nat) : MemEdits s (walkLevels c va u).2 := by
  unfold walkLevels
  dsimp only
  split
  · exact h
  · split
    · next hr => exact memEdits_of_walkRead h hr
    · next hr =>
      have hroot := memEdits_of_walkRead h hr
      split
      · exact hroot
      · split
        · next hr => exact memEdits_of_walkRead hroot hr
        · next hr =>
          have hmid := memEdits_of_walkRead hroot hr
          split
          · exact hmid
          · split
            · next hr => exact memEdits_of_walkRead hmid hr
            · next hr =>
              have hleaf := memEdits_of_walkRead hmid hr
              split
              · exact hleaf
              · exact hleaf

theorem memEdits_walk (c va : Nat) : MemEdits s (walk c va u).2 := by
  unfold walk
  split
  · exact h
  · exact memEdits_walkLevels (memEdits_bump h _ _ _ _ _) c va

end memEdits

/-! What such a chain keeps. -/

section kept
variable {s u : State}

theorem MemEdit.nibs (h : MemEdit s u) : u.nibs = s.nibs := by cases h <;> rfl
theorem MemEdit.cells (h : MemEdit s u) : u.hbm.cells = s.hbm.cells := by cases h <;> rfl

theorem MemEdits.nibs (h : MemEdits s u) : u.nibs = s.nibs := by
  induction h with
  | refl => rfl
  | tail _ e ih => exact e.nibs.trans ih

theorem MemEdits.cells (h : MemEdits s u) : u.hbm.cells = s.hbm.cells := by
  induction h with
  | refl => rfl
  | tail _ e ih => exact e.cells.trans ih

end kept

end Sys2Proof.Machine

/-! SUPPORT. The Canopy family: the changes that the replay or the fault of a layer is made of, operation by operation. -/

namespace Sys2Proof.Machine

open Sys2Proof.Spec (eventSet)

/-- One change that the replay or the fault of a layer can make: one that an access of HBM makes, bytes written, a unit replaced, an account,
or transfers and flits taken out. -/
inductive LayerEdit (s : State) : State → Prop
  | mem {t : State} (h : MemEdit s t) : LayerEdit s t
  | bytes (a : Nat) (data : List Byte) : LayerEdit s { s with hbm := s.hbm.write a data }
  | nib (n : Nat) (x : Nib) : LayerEdit s (setNib n x s)
  | pnib (n : Nat) (x : PNib) : LayerEdit s (setPNib n x s)
  | ctx (c : Nat) (x : Ctx) : LayerEdit s (setCtx c x s)
  | grove (g : Nat) (x : Grove) : LayerEdit s (setGrove g x s)
  | scribe (m : Nat) (x : Scribe) : LayerEdit s (setScribe m x s)
  | times (t : Tab EngineTime) : LayerEdit s { s with times := t }
  | lost (n : Nat) : LayerEdit s { s with seedbank := { s.seedbank with avLost := n } }
  | circle (l : Lig) : LayerEdit s { s with lig := l }
  | xfers (p : Xfer → Bool) : LayerEdit s { s with canopy := { s.canopy with xfers := s.canopy.xfers.filter p } }
  | flits (p : Flit → Bool) : LayerEdit s { s with canopy := { s.canopy with flits := s.canopy.flits.filter p } }

/-- A chain of such changes. -/
abbrev LayerEdits : State → State → Prop := Relation.ReflTransGen LayerEdit

/-- A chain goes on over what an access of memory does. -/
theorem LayerEdits.mem {s u v : State} (h : LayerEdits s u) (e : MemEdits u v) : LayerEdits s v :=
  h.trans (Relation.ReflTransGen.mono (fun _ _ => LayerEdit.mem) _ _ e)

section layerEdits
variable {s u : State} (h : LayerEdits s u)
include h

theorem layerEdits_modNib (n : Nat) (f : Nib → Nib) : LayerEdits s (modNib n f u) := h.tail (.nib _ _)

theorem layerEdits_modCtx (c : Nat) (f : Ctx → Ctx) : LayerEdits s (modCtx c f u) := h.tail (.ctx _ _)

theorem layerEdits_raise (p : Page) (j e : Nat) (n : Note) : LayerEdits s (raise p j e n u) := h.mem (memEdits_raise .refl p j e n)

theorem layerEdits_bump (p : Page) (j : Nat) {off : Nat} (hi lo n : Nat) (ho : off < 0x1000 ∧ off ≠ 0x10 := by decide) :
    LayerEdits s (bump (regAt p j off) hi lo n u) := h.mem (memEdits_bump .refl p j hi lo n ho)

theorem layerEdits_comeToBank (dpa : Nat) : LayerEdits s (comeToBank dpa u) := h.mem (memEdits_comeToBank .refl dpa)

/-! Writes of HBM. -/

theorem layerEdits_memWriteAs (al : Alloc) (a : Nat) (data : List Byte) : LayerEdits s (memWriteAs al a data u) := by
  have hrows : MemEdits u (forEach (pieces 512 a data.length) (fun p s => writeRowAt al p.1 p.2 s) (readsFirst a (a + data.length) u)) :=
    forEach_chain _ (fun _ _ h => memEdits_writeRowAt h _ _ _) (memEdits_readsFirst .refl _ _)
  exact (h.mem hrows).tail (.bytes a data)

theorem layerEdits_memWrite (a : Nat) (data : List Byte) : LayerEdits s (memWrite a data u) :=
  layerEdits_memWriteAs (forEach_chain _ (fun _ _ h => layerEdits_comeToBank h _) h) _ _ _

/-! Rows of a plot that drains (R127). -/

theorem layerEdits_moveBytes (c : Nat) {off : Nat} (n : Nat) (ho : off < 0x1000 ∧ off ≠ 0x10 := by decide)
    (ho4 : off + 4 < 0x1000 ∧ off + 4 ≠ 0x10 := by decide) : LayerEdits s (moveBytes c off n u) := by
  have hmove := layerEdits_modCtx (h.mem (memEdits_addPair .refl .ctx c n ho ho4)) c (fun x => { x with tickBytes := x.tickBytes + n })
  unfold moveBytes
  dsimp only
  split
  · exact ite_chain (hmove.mem (memEdits_addPair .refl _ _ _)) hmove
  · exact hmove

theorem layerEdits_countRemote (nib : Nat) : LayerEdits s (countRemote nib u) := by
  unfold countRemote
  split
  · exact layerEdits_moveBytes h _ _
  · exact h

theorem layerEdits_pushRow (nib va : Nat) (data : Row) : LayerEdits s (pushRow nib va data u) := by
  unfold pushRow
  dsimp only
  split
  · exact layerEdits_modNib (layerEdits_modNib h _ _) _ _
  · exact layerEdits_modNib h _ _

theorem layerEdits_acceptWrite (x : Xfer) : LayerEdits s (acceptWrite x u) := by
  have hwrite := layerEdits_modNib (layerEdits_memWriteAs h (xferAlloc x) x.place (bytesOfRow x.data)) x.nib (markLanded x.seq x.row)
  have hpush := ite_chain (p := aperture ≤ x.addr) (layerEdits_pushRow hwrite x.nib x.addr x.data) hwrite
  unfold acceptWrite
  dsimp only
  split
  · exact layerEdits_moveBytes hpush _ _
  · exact hpush

theorem layerEdits_writeRemote (x : Xfer) : LayerEdits s (writeRemote x u) :=
  layerEdits_countRemote (layerEdits_modNib (layerEdits_modNib h _ _) _ _) _

theorem layerEdits_deliverSignal (nib seq : Nat) : LayerEdits s (deliverSignal nib seq u) := by
  unfold deliverSignal
  dsimp only
  split
  · split
    · exact layerEdits_modNib (layerEdits_modNib h _ _) _ _
    · exact h
  · exact h

theorem layerEdits_settleRow (nib seq i : Nat) (data : Row) : LayerEdits s (settleRow nib seq i data u) := layerEdits_modNib h _ _

theorem layerEdits_failDraining (nib seq : Nat) (b : Blame) : LayerEdits s (failDraining nib seq b u) := by
  unfold failDraining
  dsimp only
  split
  · exact layerEdits_modCtx (layerEdits_modNib h _ _) _ _
  · exact layerEdits_modNib h _ _

theorem layerEdits_noteIwDetect (c nib row reader : Nat) : LayerEdits s (noteIwDetect c nib row reader u) :=
  (layerEdits_raise ((layerEdits_modNib h _ _).mem (memEdits_countEvent .refl _ _ _ _ _)) _ _ _ _).tail (.pnib _ _)

theorem layerEdits_settlePull (x : Xfer) : LayerEdits s (settlePull x u) := by
  unfold settlePull
  split
  · exact layerEdits_deliverSignal (layerEdits_settleRow (layerEdits_countRemote (layerEdits_modNib h _ _) _) _ _ _ _) _ _
  · dsimp only
    split
    · exact layerEdits_failDraining (layerEdits_noteIwDetect h _ _ _ _) _ _ _
    · exact layerEdits_failDraining h _ _ _
  · exact layerEdits_modNib h _ _

theorem layerEdits_dropXfer (x : Xfer) : LayerEdits s (dropXfer x u) := h.tail (.xfers _)

theorem layerEdits_readDraining (x : Xfer) : LayerEdits s (readDraining x u).2 := by
  unfold readDraining
  split
  · exact ite_chain h (h.mem (memEdits_serveReads .refl x.place))
  · exact h
  · have hread := memEdits_readRowAt (memEdits_comeToBank (.refl (a := u)) x.place) (xferAlloc x) x.place
    generalize readRowAt _ _ _ = q at hread ⊢
    exact h.mem hread

theorem layerEdits_settleHint (x : Xfer) : LayerEdits s (settleHint x u) := by
  unfold settleHint
  split
  · exact layerEdits_readDraining h x
  · exact h
  · exact ite_chain h (layerEdits_readDraining h x)

theorem layerEdits_settleXfer (x : Xfer) : LayerEdits s (settleXfer x u) := by
  unfold settleXfer
  split
  · exact layerEdits_settleHint h x
  · exact layerEdits_acceptWrite (layerEdits_comeToBank h _) x
  · exact layerEdits_deliverSignal (layerEdits_writeRemote h x) _ _
  · exact layerEdits_settleRow h _ _ _ _
  · split
    · exact layerEdits_settlePull h x
    · exact layerEdits_settlePull h x
    · exact layerEdits_settleRow h _ _ _ _
  · split
    · exact layerEdits_settleRow h _ _ _ _
    · exact layerEdits_settleRow h _ _ _ _
    · have hread := layerEdits_readDraining h x
      generalize readDraining x u = q at hread ⊢
      obtain ⟨b, v⟩ := q
      cases b with
      | none => exact layerEdits_failDraining hread _ _ _
      | some b =>
        have hrow := layerEdits_settleRow hread x.nib x.seq x.row b
        dsimp only
        split
        · exact layerEdits_moveBytes hrow _ _
        · exact hrow

theorem layerEdits_drainPlot (plot : List Nat) : LayerEdits s (drainPlot plot u) := by
  unfold drainPlot
  refine (forEach_chain _ (fun x v h => ?_) h).tail (.flits _)
  split
  · exact layerEdits_dropXfer (layerEdits_settleXfer h _) _
  · exact h

/-! Groves and Scribes that a layer leaves. -/

theorem layerEdits_modGroveNibs (g : Nat) (f : Nib → Nib) : LayerEdits s (modGroveNibs g f u) :=
  forEach_chain _ (fun _ _ h => layerEdits_modNib h _ _) h

theorem layerEdits_wakeGrove (g : Nat) : LayerEdits s (wakeGrove g u) := by
  unfold wakeGrove
  dsimp only
  split
  · exact h.tail (.grove _ _)
  · exact layerEdits_bump (h.tail (.grove _ _)) _ _ _ _ _
  · exact layerEdits_bump (h.tail (.grove _ _)) _ _ _ _ _
  · exact h

theorem layerEdits_dropGrove (g : Nat) : LayerEdits s (dropGrove g u) := by
  unfold dropGrove
  dsimp only
  split
  · split
    · exact layerEdits_wakeGrove (h.tail (.grove _ _)) g
    · exact h.tail (.grove _ _)
  · exact layerEdits_modGroveNibs (h.tail (.grove _ _)) _ _
  · exact layerEdits_wakeGrove (h.tail (.grove _ _)) g
  · exact h.tail (.grove _ _)
  · exact h.tail (.grove _ _)

theorem layerEdits_freePlot (c : Nat) : LayerEdits s (freePlot c u) := by
  unfold freePlot
  exact layerEdits_modCtx (forEach_chain _ (fun g _ h => ite_chain (layerEdits_dropGrove h g) h) h) c _

theorem layerEdits_restoreImage (p : PreImage) : LayerEdits s (restoreImage p u) := by
  have hrows := forEach_chain p.rows (fun r _ h => layerEdits_memWrite h r.1 (bytesOfRow r.2)) h
  unfold restoreImage
  dsimp only
  split
  · exact hrows
  · exact layerEdits_memWrite hrows _ _

theorem layerEdits_rollScribe (c m : Nat) : LayerEdits s (rollScribe c m u) := by
  unfold rollScribe
  dsimp only
  split
  · exact h
  · exact (layerEdits_modCtx (forEach_chain _ (fun p _ h => layerEdits_restoreImage h p) h) c _).tail (.scribe _ _)

theorem layerEdits_rollback (c : Nat) : LayerEdits s (rollback c u) := by
  have hscribes := forEach_chain (List.range 8) (fun m _ h => layerEdits_rollScribe h c m) h
  unfold rollback
  split
  · exact h
  · exact layerEdits_raise (ite_chain (layerEdits_modCtx hscribes c _) hscribes) _ _ _ _

theorem layerEdits_stopScribes (c : Nat) : LayerEdits s (stopScribes c u) :=
  forEach_chain _ (fun _ _ h => h.tail (.scribe _ _)) h

/-! Quiesce, the completion word, the fault. -/

theorem layerEdits_chargeTime (c : Nat) : LayerEdits s (chargeTime c u) := by
  unfold chargeTime
  dsimp only
  split
  · exact LayerEdits.mem (h.tail (.times _)) (memEdits_takeFree (memEdits_takeFree (memEdits_takeFree .refl)))
  · exact h

theorem layerEdits_quiesce (c : Nat) : LayerEdits s (quiesce c u) :=
  forEach_chain _ (fun _ _ h => layerEdits_modNib h _ _) (layerEdits_drainPlot (layerEdits_chargeTime h c) _)

theorem layerEdits_translate (c va : Nat) (write : Bool) : LayerEdits s (translate c va write u).2 := by
  have hwalk := h.mem (memEdits_walk .refl c va)
  unfold translate
  generalize walk c va u = q at hwalk ⊢
  obtain ⟨b, v⟩ := q
  cases b with
  | bad r => exact hwalk
  | ok a w scrub =>
    dsimp only
    split
    · exact hwalk
    · exact hwalk

theorem layerEdits_ptFault (c va reason : Nat) : LayerEdits s (ptFault c va reason u) :=
  h.mem (memEdits_raise (memEdits_setPair (memEdits_countEvent .refl _ _ _ _ _) _ _ _) _ _ _ _)

theorem layerEdits_vTargets (c va n : Nat) : LayerEdits s (vTargets c va n u).2 := by
  unfold vTargets vTargetsBy
  refine foldl_chain _ (fun acc x h => ?_) h
  obtain ⟨got, v⟩ := acc
  cases got with
  | error e => exact h
  | ok got =>
    have htr := layerEdits_translate h c x.1 true
    dsimp only
    generalize translate c x.1 true v = q at htr ⊢
    obtain ⟨b, w⟩ := q
    cases b with
    | inl a => exact htr
    | inr r => exact htr

theorem layerEdits_writePieces (ps : List (Nat × Nat)) (data : List Byte) : LayerEdits s (writePieces ps data u) := by
  induction ps generalizing data u with
  | nil => exact h
  | cons p ps ih => exact ih (layerEdits_memWrite h _ _) _

theorem layerEdits_vWrite (c va : Nat) (data : List Byte) : LayerEdits s (vWrite c va data u).2 := by
  have htr := layerEdits_vTargets h c va data.length
  unfold vTargets at htr
  unfold vWrite vWriteBy
  generalize vTargetsBy _ _ _ u = q at htr ⊢
  obtain ⟨b, v⟩ := q
  cases b with
  | error e => exact htr
  | ok ps => exact layerEdits_writePieces htr ps data

theorem layerEdits_putCompletion (c code : Nat) : LayerEdits s (putCompletion c code u).2 := by
  unfold putCompletion
  dsimp only
  split
  · exact h
  · next r _ =>
    split
    · exact h
    · have hwrite := layerEdits_vWrite h c r.compl (completionBytes (getCtx u c) r code)
      generalize vWrite _ _ _ u = q at hwrite ⊢
      obtain ⟨b, v⟩ := q
      have hv : LayerEdits s v := hwrite
      cases b with
      | none =>
        dsimp only
        exact layerEdits_modCtx hv c _
      | some e => cases e with
        | page va why => exact layerEdits_ptFault hv c va why
        | data dpa => exact hv

theorem layerEdits_ctxMessage (c : Nat) : LayerEdits s (ctxMessage c u) := ite_chain (h.mem (memEdits_sendMsix .refl _ _)) h

theorem layerEdits_enterFaulted (c code wanted : Nat) : LayerEdits s (enterFaulted c code wanted u) := by
  unfold enterFaulted
  dsimp only
  generalize hv : ctxMessage c _ = v
  have hmsg : LayerEdits s v := by
    rw [← hv]
    exact layerEdits_ctxMessage (layerEdits_raise (layerEdits_modCtx h c _) _ _ _ _) c
  exact ite_chain (layerEdits_modCtx hmsg c _) (layerEdits_freePlot hmsg c)

theorem layerEdits_ctxFault (c code : Nat) : LayerEdits s (ctxFault c code u) := by
  unfold ctxFault
  dsimp only
  split
  · have hput := layerEdits_putCompletion (layerEdits_stopScribes (layerEdits_quiesce h c) c) c code
    generalize putCompletion _ _ _ = q at hput ⊢
    obtain ⟨b, v⟩ := q
    cases b with
    | true => exact layerEdits_enterFaulted hput c _ _
    | false => exact layerEdits_enterFaulted hput c _ _
  · exact h

/-! Replay (R404, R405). -/

theorem layerEdits_loseAttempt (c cause : Nat) : LayerEdits s (loseAttempt c cause u) := by
  have htake := h.mem (memEdits_takeFree .refl)
  exact ite_chain htake (htake.tail (.lost _))

theorem layerEdits_unwait (c : Nat) : LayerEdits s (unwait c u) :=
  ite_chain h ((layerEdits_modCtx h c _).tail (.circle _))

theorem layerEdits_barReplay (c cause : Nat) : LayerEdits s (barReplay c cause u) :=
  layerEdits_ctxFault (layerEdits_raise (layerEdits_bump h _ _ _ _ _) _ _ _ _) c _

theorem layerEdits_replayError (next : Phase) (c : Nat) (b : Blame) : LayerEdits s (replayError next c b u) := by
  have hroll := layerEdits_rollback h c
  unfold replayError
  dsimp only
  split
  · exact h
  · split
    · exact h
    · exact h
    · exact h
    · exact ite_chain h (layerEdits_modCtx hroll c _)
    · refine ite_chain (layerEdits_barReplay hroll c _) (ite_chain ?_ ?_)
      · exact layerEdits_ctxFault (layerEdits_raise (layerEdits_bump hroll _ _ _ _ _) _ _ _ _) c _
      · exact layerEdits_modCtx (layerEdits_unwait (layerEdits_rollback (layerEdits_loseAttempt (layerEdits_quiesce h c) c _) c) c) c _

end layerEdits

/-! ## What such a chain keeps -/

theorem bit_eq_testBit (v i : Nat) : bit v i = v.testBit i := by
  rw [Nat.testBit_eq_decide_div_mod_eq, bit, beq_eq_decide]

/-- A register reads with every bit that was just written to it set, whatever the table's form. -/
theorem bit_getR_setR {v e : Nat} (s : State) (a : Nat) (he : e < 32) (hv : bit v e = true) : bit (getR (setR a v s) a) e = true := by
  have hword : (BitVec.ofNat 32 v).toNat.testBit e = true := by
    rw [BitVec.toNat_ofNat, Nat.testBit_mod_two_pow, decide_eq_true he, Bool.true_and, ← bit_eq_testBit, hv]
  have hne : BitVec.ofNat 32 v ≠ 0 := by
    intro h0
    rw [h0] at hword
    simp at hword
  rw [getR, setR, tabGet_set_self s.regs a hne, bit_eq_testBit, hword]

/-- An event that is raised is set. -/
theorem eventSet_setEvent (p : Page) (j : Nat) {e : Nat} (s : State) (he : e < 32) : eventSet (setEvent p j e s) p j e := by
  have hbit : bit (getR s (regAt p j 0x10) ||| 2 ^ e) e = true := by simp [bit_eq_testBit]
  have hset := bit_getR_setR s (regAt p j 0x10) he hbit
  unfold eventSet setEvent
  dsimp only
  split
  · rwa [getR, sendEvent_regs, ← getR]
  · exact hset

theorem eventSet_raise (p : Page) (j : Nat) {e : Nat} (n : Note) (s : State) (he : e < 32) : eventSet (raise p j e n s) p j e :=
  eventSet_setEvent p j _ he

theorem mem_insertEntry (e : Word64) (l : List Word64) : e ∈ insertEntry e l := by
  induction l with
  | nil => simp [insertEntry]
  | cons f t ih =>
    unfold insertEntry
    split
    · exact List.mem_cons_self
    · split
      · next h => simp [h]
      · exact List.mem_cons_of_mem _ ih

theorem subset_insertEntry (e : Word64) (l : List Word64) : l ⊆ insertEntry e l := by
  induction l with
  | nil => exact List.nil_subset _
  | cons f t ih =>
    unfold insertEntry
    split
    · exact List.subset_cons_self _ _
    · split
      · exact List.Subset.refl _
      · exact List.cons_subset_cons _ ih

/-- The seams stand, no flit and no transfer is new, and entries of the repair map and EVENT bits stay. -/
structure CanopyKept (s t : State) : Prop where
  seams : t.canopy.seams = s.canopy.seams
  flits : t.canopy.flits ⊆ s.canopy.flits
  xfers : ∀ x ∈ t.canopy.xfers, ∃ y ∈ s.canopy.xfers, sameXfer y x = true
  entries : s.seedbank.entries ⊆ t.seedbank.entries
  events : ∀ p j e, e < 32 → eventSet s p j e → eventSet t p j e

theorem sameXfer_self (x : Xfer) : sameXfer x x = true := by simp [sameXfer]

theorem sameXfer_trans {x y z : Xfer} (h : sameXfer x y = true) (k : sameXfer y z = true) : sameXfer x z = true := by
  simp only [sameXfer, Bool.and_eq_true, beq_iff_eq] at *
  omega

namespace CanopyKept
variable {s t u : State}

theorem refl (s : State) : CanopyKept s s :=
  ⟨rfl, List.Subset.refl _, fun x hx => ⟨x, hx, sameXfer_self x⟩, List.Subset.refl _, fun _ _ _ _ h => h⟩

theorem trans (h : CanopyKept s t) (k : CanopyKept t u) : CanopyKept s u := by
  refine ⟨k.seams.trans h.seams, List.Subset.trans k.flits h.flits, fun x hx => ?_, List.Subset.trans h.entries k.entries,
    fun p j e he hs => k.events p j e he (h.events p j e he hs)⟩
  obtain ⟨y, hy, hyx⟩ := k.xfers x hx
  obtain ⟨z, hz, hzy⟩ := h.xfers y hy
  exact ⟨z, hz, sameXfer_trans hzy hyx⟩

/-- Where the Canopy, the entries and the words are as they were. -/
theorem of_eq (hc : t.canopy = s.canopy) (he : t.seedbank.entries = s.seedbank.entries) (hr : t.regs = s.regs) : CanopyKept s t := by
  refine ⟨by rw [hc], by rw [hc]; exact List.Subset.refl _, fun x hx => ⟨x, hc ▸ hx, sameXfer_self x⟩, by rw [he]; exact List.Subset.refl _,
    fun p j e _ h => ?_⟩
  rwa [eventSet, getR, hr]

end CanopyKept

theorem MemEdit.canopyKept {s t : State} (h : MemEdit s t) : CanopyKept s t := by
  cases h with
  | @word a v ha =>
    refine ⟨rfl, List.Subset.refl _, fun x hx => ⟨x, hx, sameXfer_self x⟩, List.Subset.refl _, fun p j e _ hs => ?_⟩
    rwa [eventSet, getR_setR_ne s v (fun h : _ = a => ha (h ▸ regAt_mod p j (by decide)))]
  | event q k f =>
    refine ⟨rfl, List.Subset.refl _, fun x hx => ⟨x, hx, sameXfer_self x⟩, List.Subset.refl _, fun p j e he hs => ?_⟩
    by_cases ha : regAt p j 0x10 = regAt q k 0x10
    · rw [eventSet, ha] at hs ⊢
      refine bit_getR_setR s _ he ?_
      rw [bit_eq_testBit] at hs ⊢
      rw [Nat.testBit_or, hs, Bool.true_or]
    · rwa [eventSet, getR_setR_ne s _ ha]
  | entry e =>
    exact ⟨rfl, List.Subset.refl _, fun x hx => ⟨x, hx, sameXfer_self x⟩, subset_insertEntry e _, fun _ _ _ _ hs => hs⟩
  | answers f hf =>
    refine ⟨rfl, List.Subset.refl _, fun x hx => ?_, List.Subset.refl _, fun _ _ _ _ hs => hs⟩
    obtain ⟨y, hy, rfl⟩ := List.mem_map.mp hx
    exact ⟨y, hy, hf y⟩
  | _ => exact .of_eq rfl rfl rfl

theorem LayerEdit.canopyKept {s t : State} (h : LayerEdit s t) : CanopyKept s t := by
  cases h with
  | mem h => exact h.canopyKept
  | xfers p =>
    exact ⟨rfl, List.Subset.refl _, fun x hx => ⟨x, List.mem_of_mem_filter hx, sameXfer_self x⟩, List.Subset.refl _, fun _ _ _ _ hs => hs⟩
  | flits p =>
    exact ⟨rfl, List.filter_sublist.subset, fun x hx => ⟨x, hx, sameXfer_self x⟩, List.Subset.refl _, fun _ _ _ _ hs => hs⟩
  | _ => exact .of_eq rfl rfl rfl

theorem LayerEdits.canopyKept {s t : State} (h : LayerEdits s t) : CanopyKept s t := by
  induction h with
  | refl => exact .refl s
  | tail _ e ih => exact ih.trans e.canopyKept

theorem MemEdits.canopyKept {s t : State} (h : MemEdits s t) : CanopyKept s t := (LayerEdits.mem .refl h).canopyKept

theorem LayerEdit.boot {s t : State} (h : LayerEdit s t) : t.boot = s.boot := by
  cases h with
  | mem h => cases h <;> rfl
  | _ => rfl

theorem LayerEdits.boot {s t : State} (h : LayerEdits s t) : t.boot = s.boot := by
  induction h with
  | refl => rfl
  | tail _ e ih => exact e.boot.trans ih

end Sys2Proof.Machine

/-! SUPPORT. The Canopy family: descriptors of one row, and the walk of the next row. -/

namespace Sys2Proof.Machine

open Sys2Proof.Spec

/-! ## A descriptor of one row (R113, R114) -/

/-- A descriptor written over one with its place in program order stands there. -/
theorem desc?_setDesc {n : Nib} {d e : Desc} (h : n.desc? d.seq = some d) (he : e.seq = d.seq) : (n.setDesc e).desc? d.seq = some e := by
  have hkey : ((fun x : Desc => x.seq == d.seq) ∘ fun x => if x.seq = e.seq then e else x) = fun x => x.seq == d.seq := by
    funext x
    by_cases hx : x.seq = d.seq <;> simp [hx, he]
  unfold Nib.desc? at *
  rw [Nib.setDesc, List.find?_map, hkey, h, Option.map_some, if_pos he.symm]

/-- A nib that holds a descriptor is not the cold one, so it reads as written. -/
theorem getNib_setNib_of_desc? {x : Nib} {q : Nat} {e : Desc} (nib : Nat) (s : State) (h : x.desc? q = some e) :
    getNib (setNib nib x s) nib = x := by
  refine getNib_setNib_self s nib ?_
  rintro rfl
  cases h

/-- A descriptor once it has started. -/
def Desc.start (d : Desc) : Desc := { d with started := true }

/-- A descriptor of a nib starts: nothing else changes. -/
def startDesc (nib : Nat) (d : Desc) (s : State) : State := modNib nib (fun n => n.setDesc d.start) s

section one
variable {s u : State} {nib : Fin 1024} {c : Nat} {d : Desc}

theorem getNib_startDesc {nib : Nat} (hd : (getNib s nib).desc? d.seq = some d) :
    getNib (startDesc nib d s) nib = (getNib s nib).setDesc d.start :=
  getNib_setNib_of_desc? nib s (desc?_setDesc hd rfl)

theorem desc?_startDesc {nib : Nat} (hd : (getNib s nib).desc? d.seq = some d) :
    (getNib (startDesc nib d s) nib).desc? d.seq = some d.start := by
  rw [getNib_startDesc hd]
  exact desc?_setDesc hd rfl

/-- Where row i goes does not depend on whether the descriptor has started. -/
theorem rowGo_startDesc {nib : Nat} (hd : (getNib s nib).desc? d.seq = some d) (i : Nat) :
    rowGo (startDesc nib d s) nib c d.start i = rowGo s nib c d i := by
  unfold rowGo
  rw [getNib_startDesc hd]
  rfl

/-- The one row of a descriptor that is under way is the last. -/
theorem nextRow_of_sent {nib : Nat} {e : Desc} {x : Xfer} (hr : e.rows = 1) (hx : x ∈ s.canopy.xfers) (hn : x.nib = nib)
    (hs : x.seq = e.seq) (h0 : x.row = 0) : nextRow s nib e = none := by
  have : rowSent s nib e 0 = true := by
    simp only [rowSent, Bool.or_eq_true, List.any_eq_true]
    exact .inr ⟨x, hx, by simp [hn, hs, h0]⟩
  simp [nextRow, hr, this]

/-- A descriptor of one row sends it and ends. -/
theorem sendRows_one {nib : Nat} {send : Nat → Nat → Desc → Nat → State → Sent} {e e' : Desc}
    (hd : (getNib s nib).desc? d.seq = some e) (hnext : nextRow s nib e = some 0) (hsend : send nib c e 0 s = .more u)
    (hd' : (getNib u nib).desc? d.seq = some e') (hlast : nextRow u nib e' = none) : sendRows send nib c d 2 s = (true, u) := by
  simp only [sendRows, hd, hnext, hsend, hd', hlast]

/-- What a nib's engine needs to send the only row of a descriptor of its context. -/
structure OneRow (s : State) (nib c : Nat) (d : Desc) : Prop where
  runs : nibRuns s nib = true
  ctx : ctxOfNib s nib = some c
  desc : (getNib s nib).desc? d.seq = some d
  failed : d.failed = false
  done : d.done = false
  may : mayStart (getNib s nib) d = true
  rows : d.rows = 1
  next : nextRow s nib d = some 0

/-- The command of a kind sends the one row of such a descriptor as the transfer x, whatever comes after the last row. -/
theorem descRow_one {kind : Nat} {send : Nat → Nat → Desc → Nat → State → Sent} {after : Nat → Desc → State → State} {x : Xfer}
    (h : OneRow s nib.val c d) (hk : d.kind = kind) (hsend : send nib.val c d.start 0 (startDesc nib.val d s) = .more u)
    (hd : (getNib u nib.val).desc? d.seq = some d.start) (hx : x ∈ u.canopy.xfers) (hn : x.nib = nib.val) (hs : x.seq = d.seq)
    (h0 : x.row = 0) : descRow kind send after nib d.seq [] s = .next (after nib.val d u) := by
  have hrows := sendRows_one (d := d) (desc?_startDesc h.desc) h.next hsend hd (nextRow_of_sent h.rows hx hn hs h0)
  have hstart : modNib nib.val (fun n => (n.upset []).setDesc { d with started := true }) s = startDesc nib.val d s := rfl
  unfold descRow
  dsimp only
  rw [h.runs, h.desc, h.ctx]
  dsimp only
  rw [if_neg (by simp [hk, h.failed, h.done, h.may]), hstart, h.rows, hrows, h.next]
  rfl

/-- So the row has gone out, where what comes after leaves the state as it is. -/
theorem rowSent_of_descRow {kind : Nat} {send : Nat → Nat → Desc → Nat → State → Sent} {after : Nat → Desc → State → State}
    {i : Instr} {x : Xfer} {fs : List Flit} (h : OneRow s nib.val c d) (hk : d.kind = kind)
    (hi : exec i s = descRow kind send after nib d.seq [] s)
    (hsend : send nib.val c d.start 0 (startDesc nib.val d s) = .more u) (hafter : after nib.val d u = u)
    (hd : (getNib u nib.val).desc? d.seq = some d.start)
    (hxs : u.canopy.xfers = s.canopy.xfers ++ [x]) (hfs : u.canopy.flits = s.canopy.flits ++ fs) (hhbm : u.hbm = s.hbm)
    (hn : x.nib = nib.val) (hs : x.seq = d.seq) (h0 : x.row = 0) : Spec.rowSent i s nib.val d x fs := by
  refine ⟨u, ?_, hxs, hfs, hd, hhbm⟩
  rw [Answers, hi, descRow_one h hk hsend hd (by simp [hxs]) hn hs h0, hafter]

/-! Sending the row: what each kind finds once its descriptor has started is what it found before. -/

theorem sourceWaits_startDesc {nib : Nat} (hd : (getNib s nib).desc? d.seq = some d) (r : Nat) :
    sourceWaits (getNib (startDesc nib d s) nib) d.start r = sourceWaits (getNib s nib) d r := by
  rw [getNib_startDesc hd]
  rfl

theorem readRow_startDesc {nib : Nat} (hd : (getNib s nib).desc? d.seq = some d) (r : Nat) :
    (getNib (startDesc nib d s) nib).readRow r = (getNib s nib).readRow r := by
  rw [getNib_startDesc hd]
  rfl

/-- A source row that can be read is handed on, and counted. -/
theorem takeSource_ok {nib r : Nat} {v : Row} (ok : Row → State → Sent) (h : (getNib s nib).readRow r = .ok v) :
    takeSource nib d r ok s = ok v (modNib nib countOut s) := by
  simp only [takeSource, h]

/-- Counting a row out leaves the nib's descriptors. -/
theorem desc?_countOut {nib q : Nat} {e : Desc} (h : (getNib s nib).desc? q = some e) :
    (getNib (modNib nib countOut s) nib).desc? q = some e := by
  rw [modNib, getNib_setNib_of_desc? (x := countOut (getNib s nib)) nib s h]
  exact h

/-- A row of a descriptor that no sampled strand issued goes out as it is. -/
theorem withhold_unsampled (n : Nib) (va : Nat) (data : Row) (h : d.sample = none) : withhold n d va data = (data, n) := by
  simp [withhold, h]

section sendRequest
variable (x : Xfer) (plane : Nat) (src dst : Stop)

theorem sendRequest_xfers : (sendRequest x plane src dst s).canopy.xfers = s.canopy.xfers ++ [{ x with st := .req }] := by
  unfold sendRequest
  dsimp only
  split <;> rfl

/-- A request changes the Canopy alone. -/
theorem sendRequest_frame : sendRequest x plane src dst s = { s with canopy := (sendRequest x plane src dst s).canopy } := by
  unfold sendRequest
  dsimp only
  split <;> rfl

@[simp] theorem sendRequest_regs : (sendRequest x plane src dst s).regs = s.regs := by rw [sendRequest_frame]
@[simp] theorem sendRequest_hbm : (sendRequest x plane src dst s).hbm = s.hbm := by rw [sendRequest_frame]
@[simp] theorem getNib_sendRequest (m : Nat) : getNib (sendRequest x plane src dst s) m = getNib s m := by
  rw [sendRequest_frame]
  rfl

/-- A row of its request is on its way already. -/
def requestUnderWay (s : State) (x : Xfer) : Bool :=
  s.canopy.xfers.any (fun y => y.nib == x.nib && y.seq == x.seq && y.group == x.group && y.st == .req)

theorem flitsOf_request (hx : x.st = .req) : Spec.flitsOf s x plane src dst =
    if requestUnderWay s x then [] else [newFlit s.canopy.nextId 8 x plane src dst] := by
  have hall : (∀ y ∈ s.canopy.xfers, ¬(y.nib = x.nib ∧ y.seq = x.seq ∧ y.group = x.group ∧ y.st = .req)) ↔
      ¬ requestUnderWay s x = true := by
    simp [requestUnderWay]
  unfold Spec.flitsOf
  dsimp only
  rw [if_neg (by simp [hx])]
  simp only [hx, true_and, hall]
  split <;> simp_all [newFlit]

/-- A request goes out as one flit unless one of its rows is on its way as a request already. -/
theorem sendRequest_flits (hx : x.st = .req) :
    (sendRequest x plane src dst s).canopy.flits = s.canopy.flits ++ Spec.flitsOf s x plane src dst := by
  rw [flitsOf_request _ _ _ _ hx]
  unfold sendRequest
  cases h : requestUnderWay s x <;> unfold requestUnderWay at h <;> dsimp only <;> rw [h]
  · rfl
  · exact (List.append_nil _).symm

theorem flitsOf_flying (hx : x.st = .flying) : Spec.flitsOf s x plane src dst =
    (List.range 8).map (fun k => newFlit (s.canopy.nextId + k) k x plane src dst) := if_pos hx

end sendRequest

/-- Without prefetch hints nothing follows the last request (R124). -/
theorem sendHints_none (nib : Nat) (h : getF s (regAt .dma 0 0x40) 7 0 = 0) : sendHints nib d s = s := by
  unfold sendHints
  rw [h]
  dsimp only
  repeat' split
  all_goals rfl

/-- A descriptor without a signal delivers none. -/
theorem deliverSignal_none {nib seq : Nat} {e : Desc} (hd : (getNib s nib).desc? seq = some e) (h : e.signal = false) :
    deliverSignal nib seq s = s := by
  have hdue : signalDue s nib e = false := by simp [signalDue, h]
  unfold deliverSignal
  dsimp only
  rw [hd]
  cases ctxOfNib s nib with
  | none => rfl
  | some c => simp only [hdue]

/-- A remote descriptor whose rank is in the plot sends as the others do. -/
theorem remoteRow_far {kind far : Nat} {send : Nat → Nat → Nat → Desc → Nat → State → Sent} (h : OneRow s nib.val c d)
    (hfar : nibOfRank (getCtx s c).plot d.xrank = some far) : remoteRow kind send nib d.seq [] s =
      descRow kind (send far) (fun nib d s => deliverSignal nib d.seq s) nib d.seq [] s := by
  unfold remoteRow
  dsimp only
  rw [h.runs, h.desc, h.ctx]
  dsimp only
  rw [hfar]

/-! The two ways in which the row goes out: as a request, or as the flits of its data. -/

section ways
variable {kind plane : Nat} {send : Nat → Nat → Desc → Nat → State → Sent} {after : Nat → Desc → State → State} {i : Instr}
  {x : Xfer} {src dst : Stop} (h : OneRow s nib.val c d) (hk : d.kind = kind) (hi : exec i s = descRow kind send after nib d.seq [] s)
  (hafter : ∀ u : State, u.regs = s.regs → (getNib u nib.val).desc? d.seq = some d.start → after nib.val d u = u)
  (hx : x.nib = nib.val ∧ x.seq = d.seq ∧ x.row = 0)
include h hk hi hafter hx

theorem rowSent_of_request (hst : x.st = .req)
    (hsend : send nib.val c d.start 0 (startDesc nib.val d s) = .more (sendRequest x plane src dst (startDesc nib.val d s))) :
    Spec.rowSent i s nib.val d x (Spec.flitsOf s x plane src dst) := by
  have hd : (getNib (sendRequest x plane src dst (startDesc nib.val d s)) nib.val).desc? d.seq = some d.start := by
    rw [getNib_sendRequest, desc?_startDesc h.desc]
  have hxs : (sendRequest x plane src dst (startDesc nib.val d s)).canopy.xfers = s.canopy.xfers ++ [x] := by
    rw [sendRequest_xfers, ← hst]
    rfl
  obtain ⟨hn, hs, h0⟩ := hx
  exact rowSent_of_descRow h hk hi hsend (hafter _ (sendRequest_regs ..) hd) hd hxs (sendRequest_flits _ _ _ _ hst)
    (sendRequest_hbm ..) hn hs h0

theorem rowSent_of_flits {w : State} (hst : x.st = .flying) (hregs : w.regs = s.regs) (hcanopy : w.canopy = s.canopy)
    (hhbm : w.hbm = s.hbm) (hd : (getNib w nib.val).desc? d.seq = some d.start)
    (hsend : send nib.val c d.start 0 (startDesc nib.val d s) = .more (sendFlits x plane src dst (addXfer x w))) :
    Spec.rowSent i s nib.val d x (Spec.flitsOf s x plane src dst) := by
  obtain ⟨hn, hs, h0⟩ := hx
  refine rowSent_of_descRow h hk hi hsend (hafter _ hregs hd) hd ?_ ?_ hhbm hn hs h0
  · change w.canopy.xfers ++ [x] = _
    rw [hcanopy]
  · rw [flitsOf_flying _ _ _ _ hst, ← hcanopy]
    rfl

end ways

/-- KIND 0: the read's request. -/
theorem descHbmRead_sends {a : Nat} {x : Xfer} (h : OneRow s nib.val c d) (hk : d.kind = 0) (hgo : rowGo s nib.val c d 0 = .hbm a)
    (htag : tagFree s nib.val d 0 = true) (hva : (d.addr 0).toNat < aperture) (hhints : getF s (regAt .dma 0 0x40) 7 0 = 0)
    (hx : x = ⟨nib.val, d.seq, 0, d.request 0, .read, .req, a, (d.addr 0).toNat, 0, 0, none⟩) :
    Spec.rowSent (.descHbmRead nib d.seq) s nib.val d x (Spec.flitsOf s x (planeOf s (a / 512)) (nibStop nib.val) (edgeStop a)) := by
  have htag' : tagFree (startDesc nib.val d s) nib.val d.start 0 = true := htag
  have hva' : ¬ aperture ≤ (d.start.addr 0).toNat := not_le.mpr hva
  subst hx
  refine rowSent_of_request (send := sendRead) h hk rfl (fun u hr _ => ?_) ⟨rfl, rfl, rfl⟩ rfl ?_
  · exact sendHints_none nib.val (by rwa [getF, getR, hr])
  · unfold sendRead
    rw [rowGo_startDesc h.desc, hgo]
    dsimp only
    rw [if_pos htag', if_neg hva']
    rfl

/-- The state once the descriptor has started and its source row has been counted out. -/
def tookSource (nib : Nat) (d : Desc) (s : State) : State := modNib nib countOut (startDesc nib d s)

@[simp] theorem tookSource_regs (nib : Nat) : (tookSource nib d s).regs = s.regs := by simp [tookSource, startDesc]
@[simp] theorem tookSource_canopy (nib : Nat) : (tookSource nib d s).canopy = s.canopy := by simp [tookSource, startDesc]
@[simp] theorem tookSource_hbm (nib : Nat) : (tookSource nib d s).hbm = s.hbm := by simp [tookSource, startDesc]

theorem desc?_tookSource {nib : Nat} (hd : (getNib s nib).desc? d.seq = some d) :
    (getNib (tookSource nib d s) nib).desc? d.seq = some d.start := desc?_countOut (desc?_startDesc hd)

/-- The source row of a started descriptor is read and handed on. -/
theorem takeSource_startDesc {nib r : Nat} {v : Row} (hd : (getNib s nib).desc? d.seq = some d)
    (hread : (getNib s nib).readRow r = .ok v) (ok : Row → State → Sent) :
    takeSource nib d.start r ok (startDesc nib d s) = ok v (tookSource nib d s) :=
  takeSource_ok ok ((readRow_startDesc hd r).trans hread)

/-- KIND 1: the write's row. -/
theorem descHbmWrite_sends {a : Nat} {v : Row} {x : Xfer} (h : OneRow s nib.val c d) (hk : d.kind = 1) (hsample : d.sample = none)
    (hgo : rowGo s nib.val c d 0 = .hbm a) (htag : tagFree s nib.val d 0 = true)
    (hwait : sourceWaits (getNib s nib.val) d d.lrow = false) (hread : (getNib s nib.val).readRow d.lrow = .ok v)
    (hx : x = ⟨nib.val, d.seq, 0, d.request 0, .write, .flying, a, (d.addr 0).toNat, v, 0, none⟩) :
    Spec.rowSent (.descHbmWrite nib d.seq []) s nib.val d x (Spec.flitsOf s x (planeOf s (a / 512)) (nibStop nib.val) (edgeStop a)) := by
  have htag' : tagFree (startDesc nib.val d s) nib.val d.start 0 = true := htag
  have hsrc : d.start.srcRow 0 = d.lrow := if_neg (by change ¬ d.kind = 2; omega)
  have hd := desc?_tookSource h.desc
  have hd' : (getNib (setNib nib.val (getNib (tookSource nib.val d s) nib.val) (tookSource nib.val d s)) nib.val).desc? d.seq =
      some d.start := by
    rw [getNib_setNib_of_desc? _ _ hd, hd]
  subst hx
  refine rowSent_of_flits (send := sendWrite) (after := fun _ _ s => s)
    (w := setNib nib.val (getNib (tookSource nib.val d s) nib.val) (tookSource nib.val d s)) h hk rfl (fun _ _ _ => rfl) ⟨rfl, rfl, rfl⟩ rfl
    (by simp) (by simp) (by simp) hd' ?_
  unfold sendWrite
  rw [rowGo_startDesc h.desc, hgo, hsrc, sourceWaits_startDesc h.desc, hwait, htag']
  dsimp only
  rw [if_neg (by simp), takeSource_startDesc h.desc hread, withhold_unsampled (d := d.start) _ _ _ hsample]
  rfl

/-- KIND 2: the local copy, whose row is at the engine at once. -/
theorem descLocalCopy_sends {v : Row} (h : OneRow s nib.val c d) (hk : d.kind = 2)
    (hwait : sourceWaits (getNib s nib.val) d d.xrow = false) (hread : (getNib s nib.val).readRow d.xrow = .ok v) :
    Spec.rowSent (.descLocalCopy nib d.seq []) s nib.val d ⟨nib.val, d.seq, 0, 0, .local, .arrived, nib.val, 0, v, 0, none⟩ [] := by
  have hsrc : d.start.srcRow 0 = d.xrow := if_pos hk
  have hd := desc?_tookSource h.desc
  refine rowSent_of_descRow (send := sendLocal) (after := fun _ _ s => s)
    (u := addXfer ⟨nib.val, d.seq, 0, 0, .local, .arrived, nib.val, 0, v, 0, none⟩ (tookSource nib.val d s)) h hk rfl ?_ rfl hd ?_ ?_ ?_
    rfl rfl rfl
  · unfold sendLocal
    rw [hsrc, sourceWaits_startDesc h.desc, hwait, if_neg (by simp), takeSource_startDesc h.desc hread]
    rfl
  · rw [addXfer, tookSource_canopy]
  · rw [addXfer, tookSource_canopy, List.append_nil]
  · rw [addXfer, tookSource_hbm]

/-- KIND 3: the pushed row. -/
theorem push_sends {far : Nat} {v : Row} {x : Xfer} (h : OneRow s nib.val c d) (hk : d.kind = 3) (hsig : d.signal = false)
    (hfar : nibOfRank (getCtx s c).plot d.xrank = some far) (htag : tagFree s nib.val d 0 = true)
    (hwait : sourceWaits (getNib s nib.val) d d.lrow = false) (hread : (getNib s nib.val).readRow d.lrow = .ok v)
    (hx : x = ⟨nib.val, d.seq, 0, 0, .push, .flying, far, d.xrow, v, 0, none⟩) :
    Spec.rowSent (.push nib d.seq []) s nib.val d x (Spec.flitsOf s x (planeOf s d.xrow) (nibStop nib.val) (nibStop far)) := by
  have htag' : tagFree (startDesc nib.val d s) nib.val d.start 0 = true := htag
  have hsrc : d.start.srcRow 0 = d.lrow := if_neg (by change ¬ d.kind = 2; omega)
  subst hx
  refine rowSent_of_flits (send := sendPush far) h hk (remoteRow_far h hfar) (fun u _ hd => deliverSignal_none hd hsig) ⟨rfl, rfl, rfl⟩ rfl
    (by simp) (by simp) (by simp) (desc?_tookSource h.desc) ?_
  unfold sendPush
  rw [hsrc, sourceWaits_startDesc h.desc, hwait, htag', if_neg (by simp), takeSource_startDesc h.desc hread]
  rfl

/-- KIND 4: the pull's request. -/
theorem pull_sends {far : Nat} {x : Xfer} (h : OneRow s nib.val c d) (hk : d.kind = 4) (hsig : d.signal = false)
    (hfar : nibOfRank (getCtx s c).plot d.xrank = some far) (htag : tagFree s nib.val d 0 = true)
    (hx : x = ⟨nib.val, d.seq, 0, 0, .pull, .req, far, d.xrow, 0, 0, none⟩) :
    Spec.rowSent (.pull nib d.seq) s nib.val d x (Spec.flitsOf s x (planeOf s d.xrow) (nibStop nib.val) (nibStop far)) := by
  subst hx
  exact rowSent_of_request (send := sendPull far) h hk (remoteRow_far h hfar) (fun u _ hd => deliverSignal_none hd hsig) ⟨rfl, rfl, rfl⟩ rfl
    (if_pos htag)

end one

/-! ## A walk (R218) -/

/-- What a full cache of translations keeps beside the new one. -/
def keptTlb (s : State) (nib : Nat) : List (Nat × Nat × Bool) :=
  let n := getNib s nib
  if 16 ≤ n.tlb.length then n.tlb.eraseIdx ((Config.freeWord s.free).toNat % 16) else n.tlb

theorem keptTlb_length (s : State) (nib : Nat) (h : (getNib s nib).tlb.length ≤ 16) : (keptTlb s nib).length ≤ 15 := by
  have := Nat.mod_lt (Config.freeWord s.free).toNat (by decide : 0 < 16)
  unfold keptTlb
  dsimp only
  split
  · rw [List.length_eraseIdx, if_pos (by omega)]
    omega
  · omega

/-- The nib after a translation has been cached: the new one stands first. -/
theorem getNib_cacheTranslation (nib c va a : Nat) (w : Bool) (s : State) : getNib (cacheTranslation nib c va a w s) nib =
    { getNib s nib with tlb := (c * 2 ^ 27 + va / 2 ^ 21, a - va % 2 ^ 21, w) :: keptTlb s nib } := by
  refine getNib_setNib_self s nib ?_
  intro h
  have := congrArg Nib.tlb h
  cases this

/-- The walk of a started descriptor's next row ends in the nib's cache. -/
theorem ptWalk_caches {s u : State} {nib : Fin 1024} {d : Desc} {c i va a : Nat} {wr scrub : Bool} (hruns : nibRuns s nib.val = true)
    (hc : ctxOfNib s nib.val = some c) (hd : (getNib s nib.val).desc? d.seq = some d) (hfailed : d.failed = false)
    (hstarted : d.started = true) (hk : d.kind ≤ 1) (hnext : nextRow s nib.val d = some i) (hgo : rowGo s nib.val c d i = .walk va)
    (hwalk : walk c va s = (.ok a wr scrub, u)) (hwr : d.kind = 1 → wr = true) :
    Answers (.ptWalk nib d.seq) s (cacheTranslation nib.val c va a wr u) := by
  change execPtWalk nib d.seq s = _
  unfold execPtWalk
  dsimp only
  rw [hruns, hd, hc]
  dsimp only
  rw [if_pos ⟨hstarted, by simp [hfailed], hk⟩, hnext]
  dsimp only
  rw [hgo]
  dsimp only
  rw [hwalk]
  dsimp only
  rw [if_neg (by rintro ⟨h1, h⟩; simp [hwr h1] at h)]

/-- Settles O54: each kind of descriptor sends its one row, and a walk keeps the nibs and the bytes of HBM before it fills the cache. -/
theorem dmaIssue : Obligations.DmaIssue := by
  unfold Obligations.DmaIssue
  rintro s nib _ d c rfl hruns hc hd hfailed
  refine ⟨fun hdone hmay hrows hsig hsample hnext => ?_, fun i va a wr scrub u hstarted hk hnext hgo hwalk hwr htlb => ?_⟩
  · have h : OneRow s nib.val c d := ⟨hruns, hc, hd, hfailed, hdone, hmay, hrows, hnext⟩
    exact ⟨fun _ hk hgo htag hva hhints _ hx => descHbmRead_sends h hk hgo htag hva hhints hx,
      fun _ _ hk hgo htag hwait hread _ hx => descHbmWrite_sends h hk hsample hgo htag hwait hread hx,
      fun _ hk hwait hread => descLocalCopy_sends h hk hwait hread,
      fun _ _ hk hfar htag hwait hread _ hx => push_sends h hk hsig hfar htag hwait hread hx,
      fun _ hk hfar htag _ hx => pull_sends h hk hsig hfar htag hx⟩
  · have hedits : MemEdits s u := by
      have := memEdits_walk (Relation.ReflTransGen.refl (a := s)) c va
      rwa [hwalk] at this
    have hnib : getNib u nib.val = getNib s nib.val := by rw [getNib, hedits.nibs, getNib]
    refine ⟨_, ptWalk_caches hruns hc hd hfailed hstarted hk hnext hgo hwalk hwr, ?_, ?_, hedits.cells⟩
    · rw [getNib_cacheTranslation]
      simp [Nib.cached]
    · have := keptTlb_length u nib.val (by rwa [hnib])
      rw [getNib_cacheTranslation]
      simp only [List.length_cons]
      omega

end Sys2Proof.Machine

/-! SUPPORT. The Canopy family: flits that hop and arrive, seams that are counted, spared and lost. -/

namespace Sys2Proof.Machine

open Sys2Proof.Spec (Answers eventSet)

/-! ## Transfers -/

/-- A transfer written over the one that is under way is found in its place. -/
theorem findXfer_setXfer {s : State} {x y : Xfer} {nib seq row : Nat} (h : findXfer s nib seq row = some x) (hn : y.nib = nib)
    (hs : y.seq = seq) (hr : y.row = row) : findXfer (setXfer y s) nib seq row = some y := by
  have hx : sameXfer y x = true := by
    have := List.find?_some h
    simp only [Bool.and_eq_true, beq_iff_eq] at this
    obtain ⟨⟨h1, h2⟩, h3⟩ := this
    simp [sameXfer, h1, h2, h3, hn, hs, hr]
  have hkey : ((fun z : Xfer => z.nib == nib && z.seq == seq && z.row == row) ∘ fun z => if sameXfer y z then y else z) =
      fun z => z.nib == nib && z.seq == seq && z.row == row := by
    funext z
    subst hn hs hr
    by_cases hz : sameXfer y z = true
    · have := hz
      simp only [sameXfer, Bool.and_eq_true, beq_iff_eq] at this
      simp [hz, this]
    · simp [hz]
  unfold findXfer at *
  rw [setXfer, List.find?_map, hkey, h, Option.map_some, if_pos hx]

/-- No transfer of a row is under way. -/
theorem findXfer_none {s : State} {nib seq row : Nat} (h : ∀ x ∈ s.canopy.xfers, ¬(x.nib = nib ∧ x.seq = seq ∧ x.row = row)) :
    findXfer s nib seq row = none := by
  refine List.find?_eq_none.mpr fun x hx => ?_
  simpa [and_assoc] using h x hx

/-! ## A flit leaves the Canopy (R26) -/

section deliver
variable {s : State} {f : Flit} {x : Xfer}

theorem deliverFlit_none (h : findXfer s f.nib f.seq f.row = none) : deliverFlit f s = dropFlit f s := by
  have h' : findXfer (dropFlit f s) f.nib f.seq f.row = none := h
  unfold deliverFlit
  dsimp only
  rw [h']

/-- A request has come to its controller or nib, for every row that it stands for. -/
theorem deliverFlit_request (h : findXfer s f.nib f.seq f.row = some x) (hp : f.part = 8) : deliverFlit f s =
    { dropFlit f s with canopy := { (dropFlit f s).canopy with
      xfers := s.canopy.xfers.map (fun y => if ofRequest s f y then { y with st := .travel } else y) } } := by
  have h' : findXfer (dropFlit f s) f.nib f.seq f.row = some x := h
  unfold deliverFlit
  dsimp only
  rw [h']
  exact if_pos hp

/-- The transfer with one more part there. -/
def Xfer.joined (x : Xfer) : Xfer := if x.parts + 1 = 8 then rowArrived { x with parts := x.parts + 1 } else { x with parts := x.parts + 1 }

theorem joined_key (x : Xfer) : x.joined.nib = x.nib ∧ x.joined.seq = x.seq ∧ x.joined.row = x.row := by
  unfold Xfer.joined rowArrived
  repeat' split
  all_goals exact ⟨rfl, rfl, rfl⟩

theorem deliverFlit_part (h : findXfer s f.nib f.seq f.row = some x) (hp : f.part ≠ 8) :
    deliverFlit f s = setXfer x.joined (dropFlit f s) := by
  have h' : findXfer (dropFlit f s) f.nib f.seq f.row = some x := h
  unfold deliverFlit
  dsimp only
  rw [h']
  exact if_neg hp

/-- A row's part joins it. -/
theorem findXfer_deliverFlit (h : findXfer s f.nib f.seq f.row = some x) (hp : f.part ≠ 8) :
    findXfer (deliverFlit f s) f.nib f.seq f.row = some x.joined := by
  have hx := List.find?_some h
  simp only [Bool.and_eq_true, beq_iff_eq] at hx
  obtain ⟨⟨hn, hs⟩, hr⟩ := hx
  obtain ⟨jn, js, jr⟩ := joined_key x
  have h' : findXfer (dropFlit f s) f.nib f.seq f.row = some x := h
  rw [deliverFlit_part h hp, findXfer_setXfer h' (jn.trans hn) (js.trans hs) (jr.trans hr)]

/-- A flit that leaves changes the Canopy alone, and takes itself out. -/
theorem deliverFlit_frame (f : Flit) (s : State) : deliverFlit f s = { s with canopy := { (deliverFlit f s).canopy with
    flits := s.canopy.flits.filter (fun g => g.id != f.id), nextId := s.canopy.nextId, seams := s.canopy.seams, robin := s.canopy.robin } } := by
  cases h : findXfer s f.nib f.seq f.row with
  | none => rw [deliverFlit_none h]; rfl
  | some x =>
    by_cases hp : f.part = 8
    · rw [deliverFlit_request h hp]; rfl
    · rw [deliverFlit_part h hp]; rfl

end deliver

/-! ## A transfer fails (R31) -/

theorem eventSet_of_regs {s t : State} {p : Page} {j e : Nat} (hr : t.regs = s.regs) (h : eventSet s p j e) : eventSet t p j e := by
  rwa [eventSet, getR, hr]

/-- Nothing of a flit's row is on its way. -/
def rowGone (f : Flit) (s : State) : Prop :=
  (∀ x ∈ s.canopy.xfers, ¬(x.nib = f.nib ∧ x.seq = f.seq ∧ x.row = f.row)) ∧
  ∀ g ∈ s.canopy.flits, ¬(g.nib = f.nib ∧ g.seq = f.seq ∧ g.row = f.row)

theorem CanopyKept.rowGone {f : Flit} {s t : State} (h : CanopyKept s t) (hs : rowGone f s) : rowGone f t := by
  refine ⟨fun x hx hkey => ?_, fun g hg => hs.2 g (h.flits hg)⟩
  obtain ⟨y, hy, hyx⟩ := h.xfers x hx
  refine hs.1 y hy ?_
  simp only [sameXfer, Bool.and_eq_true, beq_iff_eq] at hyx
  omega

/-- The state without a flit's row: its transfer, its flits, and what else the request stands for. -/
def clearRow (f : Flit) (s : State) : State :=
  { s with canopy := { s.canopy with
      flits := s.canopy.flits.filter (fun g => !(g.nib == f.nib && g.seq == f.seq && g.row == f.row)),
      xfers := s.canopy.xfers.filter (fun x => !(x.nib == f.nib && x.seq == f.seq && x.row == f.row) && !(f.part == 8 && ofRequest s f x)) } }

theorem clearRow_regs (f : Flit) (s : State) : (clearRow f s).regs = s.regs := rfl

theorem clearRow_gone (f : Flit) (s : State) : rowGone f (clearRow f s) := by
  refine ⟨fun x hx => ?_, fun g hg => ?_⟩
  · have := (List.mem_filter.mp hx).2
    simp only [Bool.and_eq_true, Bool.not_eq_true', Bool.and_eq_false_iff, beq_eq_false_iff_ne] at this
    tauto
  · have := (List.mem_filter.mp hg).2
    simp only [Bool.not_eq_true', Bool.and_eq_false_iff, beq_eq_false_iff_ne] at this
    tauto

/-- The failure is raised and its row taken out; the rest is the replay of the layer. -/
theorem failFlit_edits (f : Flit) (s : State) : ∃ n, LayerEdits (clearRow f (modNib f.nib (failDesc f.seq)
    (raise .canopy 0 0 n (countEvent .canopy (regAt .canopy 0 0x50) 31 0 s)))) (failFlit f s) := by
  unfold failFlit
  dsimp only
  split
  · exact ⟨_, layerEdits_replayError .refl _ _ _⟩
  · exact ⟨_, .refl⟩

/-- So the event is set and nothing of the row is on its way. -/
theorem failFlit_fails (f : Flit) (s : State) : eventSet (failFlit f s) .canopy 0 0 ∧ rowGone f (failFlit f s) := by
  obtain ⟨n, h⟩ := failFlit_edits f s
  have hevent := eventSet_raise .canopy 0 n (countEvent .canopy (regAt .canopy 0 0x50) 31 0 s) (by decide : 0 < 32)
  exact ⟨h.canopyKept.events _ _ _ (by decide) (eventSet_of_regs (by rw [clearRow_regs, modNib_regs]) hevent),
    h.canopyKept.rowGone (clearRow_gone f _)⟩

/-! ## A served flit (R24) -/

section served
variable {s : State} {k : Nat} {f : Flit} {wire : Fin 568}

/-- The flit with this number is the next one that its output port serves. -/
structure Served (s : State) (k : Nat) (f : Flit) : Prop where
  found : s.canopy.flits.find? (fun f => f.id == k) = some f
  first : flitBehind s f = false
  served : portServed s f = true

/-- At its last router. -/
theorem flitArrive_last (h : Served s k f) (hat : f.at_ = f.dst) (crcOk : Bool) :
    Answers (.flitArrive k crcOk wire) s (deliverFlit f (servePort f s)) := by
  change execFlitArrive k crcOk wire s = _
  unfold execFlitArrive
  rw [h.found]
  dsimp only
  rw [if_neg (by simp [h.first, h.served]), if_pos hat]

/-- Between routers of one side of the seams. -/
theorem flitArrive_hop (h : Served s k f) (hat : f.at_ ≠ f.dst) (hseam : seamAhead f = none) (crcOk : Bool) :
    Answers (.flitArrive k crcOk wire) s
      (if crcOk then moveFlit f (nextRouter f.plane f.at_ f.dst) (servePort f s) else failFlit f (servePort f s)) := by
  change execFlitArrive k crcOk wire s = _
  unfold execFlitArrive
  rw [h.found]
  dsimp only
  rw [if_neg (by simp [h.first, h.served]), if_neg hat, hseam]

/-- At a link-direction that lets none through. -/
theorem flitArrive_shut {l : Nat} (h : Served s k f) (hat : f.at_ ≠ f.dst) (hseam : seamAhead f = some l) (hshut : seamShut s l = true)
    (crcOk : Bool) : Answers (.flitArrive k crcOk wire) s s := by
  change execFlitArrive k crcOk wire s = _
  unfold execFlitArrive
  rw [h.found]
  dsimp only
  rw [if_neg (by simp [h.first, h.served]), if_neg hat, hseam]
  exact if_pos hshut

theorem seamThresh_of_regs {s t : State} (hr : t.regs = s.regs) : seamThresh t = seamThresh s := by
  rw [seamThresh, getF, getR, hr, seamThresh, getF, getR]

/-- A crossing that no threshold watches. -/
theorem flitArrive_cross {l : Nat} (h : Served s k f) (hat : f.at_ ≠ f.dst) (hseam : seamAhead f = some l) (hshut : seamShut s l = false)
    (hthresh : seamThresh s = 0) : Answers (.flitArrive k true wire) s
      (moveFlit f (nextRouter f.plane f.at_ f.dst) (crossSeam (usedSeam s l) true (servePort f s))) := by
  have hdue (n : Nat) : seamDue (moveFlit f (nextRouter f.plane f.at_ f.dst) (crossSeam (usedSeam s l) true (servePort f s))) n = false := by
    have : seamThresh (moveFlit f (nextRouter f.plane f.at_ f.dst) (crossSeam (usedSeam s l) true (servePort f s))) = 0 :=
      (seamThresh_of_regs (by simp only [moveFlit, crossSeam, modSeam, servePort])).trans hthresh
    simp [seamDue, this]
  change execFlitArrive k true wire s = _
  unfold execFlitArrive
  rw [h.found]
  dsimp only
  rw [if_neg (by simp [h.first, h.served]), if_neg hat, hseam]
  dsimp only
  rw [if_neg (by simp [hshut]), if_pos rfl, hdue]
  rfl

end served

/-! ## Seams (R28 to R30) -/

theorem getSeam_modSeam {s : State} {l : Nat} {g : SeamDir → SeamDir} (h : g (getSeam s l) ≠ SeamDir.zero) :
    getSeam (modSeam l g s) l = g (getSeam s l) := tabGet_set_self s.canopy.seams l h

theorem getSeam_modSeam_ne {s : State} {l m : Nat} (g : SeamDir → SeamDir) (h : m ≠ l) : getSeam (modSeam l g s) m = getSeam s m :=
  tabGet_set_ne s.canopy.seams _ h

theorem CanopyKept.getSeam {s t : State} (h : CanopyKept s t) (l : Nat) : getSeam t l = getSeam s l := by
  rw [Machine.getSeam, h.seams, Machine.getSeam]

theorem otherPlane_ne (l : Nat) : otherPlane l ≠ l := by
  intro h
  have := congrArg (l ^^^ ·) h
  simp [otherPlane] at this

theorem memEdits_mapChanged (e : Nat) (s : State) : MemEdits s (mapChanged e s) :=
  memEdits_raise (.single (.generation _)) .seedbank 0 7 (.args 0 e)

/-- An entry added to the map is there. -/
theorem mem_mapAdd (e : Nat) (s : State) : BitVec.ofNat 64 e ∈ (mapAdd e s).seedbank.entries := by
  unfold mapAdd
  split
  · next h => exact List.contains_iff_mem.mp h
  · exact (memEdits_mapChanged e _).canopyKept.entries (mem_insertEntry _ s.seedbank.entries)

/-- The device stops: contexts fault, nothing more. -/
theorem stopDevice_run {s : State} (code : Nat) (hrun : s.boot.st = .run) (hstop : s.boot.stopping = none) :
    LayerEdits { s with boot := { s.boot with stopping := some code } } (stopDevice code s) := by
  unfold stopDevice
  rw [if_pos ⟨hrun, by simp [hstop]⟩]
  exact forEach_chain _ (fun c _ h => layerEdits_ctxFault h c _) .refl

theorem stopDevice_idle {s : State} (code : Nat) (h : ¬(s.boot.st = .run ∧ s.boot.stopping = none)) : stopDevice code s = s :=
  if_neg (by simpa using h)

theorem stopDevice_kept (code : Nat) (s : State) : CanopyKept s (stopDevice code s) := by
  by_cases h : s.boot.st = .run ∧ s.boot.stopping = none
  · have hboot : CanopyKept s { s with boot := { s.boot with stopping := some code } } := .of_eq rfl rfl rfl
    exact hboot.trans (stopDevice_run code h.1 h.2).canopyKept
  · rw [stopDevice_idle code h]
    exact .refl s

/-- An event of the Canopy page is raised, and its entry added to the map in force. -/
def recordSeam (e entry : Nat) (n : Note) (s : State) : State := raise .canopy 0 e n (mapAdd entry s)

theorem recordSeam_edits (e entry : Nat) (n : Note) (s : State) : LayerEdits s (recordSeam e entry n s) :=
  LayerEdits.mem .refl (memEdits_raise (memEdits_mapAdd .refl entry) .canopy 0 e n)

theorem mem_recordSeam (e entry : Nat) (n : Note) (s : State) : BitVec.ofNat 64 entry ∈ (recordSeam e entry n s).seedbank.entries :=
  (memEdits_raise .refl .canopy 0 e n).canopyKept.entries (mem_mapAdd entry s)

theorem eventSet_recordSeam {e : Nat} (entry : Nat) (n : Note) (s : State) (he : e < 32) : eventSet (recordSeam e entry n s) .canopy 0 e :=
  eventSet_raise .canopy 0 n _ he

/-- A link-direction with a free spare drains for it. -/
theorem seamTrip_spare {l wire : Nat} {s : State} (h : (freeSpare (getSeam s l)).isSome = true) :
    seamTrip l wire s = modSeam l (fun d => { d with drain := some wire, recent := [] }) s := if_pos h

/-- One without fails, and that is recorded. -/
def failedSeam (l : Nat) (s : State) : State :=
  recordSeam 2 (mapEntry 6 l) (.args l 0) (modSeam l (fun d => { d with failed := true, recent := [] }) s)

theorem seamTrip_fails {l wire : Nat} {s : State} (h : freeSpare (getSeam s l) = none) : seamTrip l wire s =
    if (getSeam (failedSeam l s) (otherPlane l)).failed then stopDevice 0x20 (raise .canopy 0 3 (.args l 0) (failedSeam l s))
    else failedSeam l s := if_neg (by simp [h])

theorem failedSeam_failed (l : Nat) (s : State) : (getSeam (failedSeam l s) l).failed = true := by
  rw [failedSeam, (recordSeam_edits _ _ _ _).canopyKept.getSeam, getSeam_modSeam]
  intro h
  cases congrArg SeamDir.failed h

theorem failedSeam_other (l : Nat) (s : State) : getSeam (failedSeam l s) (otherPlane l) = getSeam s (otherPlane l) := by
  rw [failedSeam, (recordSeam_edits _ _ _ _).canopyKept.getSeam, getSeam_modSeam_ne _ (otherPlane_ne l)]

theorem failedSeam_boot (l : Nat) (s : State) : (failedSeam l s).boot = s.boot := (recordSeam_edits _ _ _ _).boot

/-- What follows the failure keeps what it recorded. -/
theorem seamTrip_kept {l : Nat} {s : State} (wire : Nat) (h : freeSpare (getSeam s l) = none) : CanopyKept (failedSeam l s) (seamTrip l wire s) := by
  rw [seamTrip_fails h]
  split
  · exact (memEdits_raise .refl .canopy 0 3 (.args l 0)).canopyKept.trans (stopDevice_kept _ _)
  · exact .refl _

/-- With its detour failed too, the device stops. -/
theorem seamTrip_stops {l : Nat} {s : State} (wire : Nat) (h : freeSpare (getSeam s l) = none)
    (hother : (getSeam s (otherPlane l)).failed = true) (hrun : s.boot.st = .run) (hstop : s.boot.stopping = none) :
    eventSet (seamTrip l wire s) .canopy 0 3 ∧ (seamTrip l wire s).boot.stopping = some 0x20 := by
  have hboot : (raise .canopy 0 3 (.args l 0) (failedSeam l s)).boot = s.boot :=
    (LayerEdits.mem .refl (memEdits_raise .refl .canopy 0 3 (.args l 0))).boot.trans (failedSeam_boot l s)
  rw [seamTrip_fails h, failedSeam_other, if_pos hother]
  refine ⟨(stopDevice_kept _ _).events _ _ _ (by decide) (eventSet_raise .canopy 0 _ _ (by decide)), ?_⟩
  rw [(stopDevice_run 0x20 (by rw [hboot, hrun]) (by rw [hboot, hstop])).boot]

/-- The switch to the next free spare, and its record. -/
theorem seamSwitch_answers {link : BitVec 8} {wire k : Nat} {s : State} (hdrain : (getSeam s link.toNat).drain = some wire)
    (hspare : freeSpare (getSeam s link.toNat) = some k) : Answers (.seamSwitch link) s
      (recordSeam 1 (mapEntry 5 (link.toNat + 2 ^ 8 * wire + 2 ^ 18 * k)) (.args link.toNat wire)
        (modSeam link.toNat (fun d => { d with drain := none, spares := d.spares + 2 ^ k }) s)) := by
  change execSeamSwitch link s = _
  unfold execSeamSwitch
  dsimp only
  rw [hdrain, hspare]
  rfl

/-- A crossing is counted. -/
theorem crossSeam_counts (l : Nat) (crcOk : Bool) (s : State) : (getSeam (crossSeam l crcOk s) l).flits = (getSeam s l).flits + 1 := by
  rw [crossSeam, getSeam_modSeam]
  intro h
  cases congrArg SeamDir.flits h

/-- Settles O56: a served flit at its last router and before it, then a link-direction that reaches its threshold, then the switch. -/
theorem canopyTransport : Obligations.CanopyTransport := by
  unfold Obligations.CanopyTransport
  intro s
  refine ⟨?_, fun link wire hdue => ?_, fun link wire k hdrain hspare => ?_⟩
  · rintro k wire f hfound hfirst hserved _ rfl
    have h : Served s k f := ⟨hfound, hfirst, hserved⟩
    refine ⟨fun hat crcOk => ⟨fun hnone => ?_, fun x hx => ?_⟩, ?_⟩
    · have hnone' : findXfer (servePort f s) f.nib f.seq f.row = none := hnone
      have hlast := flitArrive_last (wire := wire) h hat crcOk
      rwa [deliverFlit_none hnone'] at hlast
    · have hx' : findXfer (servePort f s) f.nib f.seq f.row = some x := hx
      refine ⟨_, flitArrive_last h hat crcOk, ?_, ?_, ?_, fun hp h7 => ?_, fun hp h7 => ?_, fun hp => ?_⟩
      · rw [deliverFlit_frame]; rfl
      · rw [deliverFlit_frame]; rfl
      · rw [deliverFlit_frame]; rfl
      · rw [findXfer_deliverFlit hx' hp, Xfer.joined, if_neg (by omega)]
      · rw [findXfer_deliverFlit hx' hp, Xfer.joined, h7]; rfl
      · rw [deliverFlit_request hx' hp]; rfl
    · rintro hat b moved rfl rfl
      have hahead : seamAhead f = seamOf f.plane f.at_ (nextRouter f.plane f.at_ f.dst) := if_neg hat
      have hout : outOf f = outPort f.plane f.at_ f.dst := if_neg hat
      refine ⟨fun hseam => ⟨?_, ?_⟩, fun l hseam hshut hthresh => ?_, fun l hseam hshut => ?_⟩
      · have hhop := flitArrive_hop (wire := wire) h hat (hahead.trans hseam) true
        rw [if_pos rfl, moveFlit, hout] at hhop
        exact hhop
      · obtain ⟨hevent, hgone⟩ := failFlit_fails f (servePort f s)
        exact ⟨_, flitArrive_hop h hat (hahead.trans hseam) false, hevent, findXfer_none hgone.1, hgone.2⟩
      · have hcross := flitArrive_cross (wire := wire) h hat (hahead.trans hseam) hshut hthresh
        rw [moveFlit, hout] at hcross
        refine ⟨_, hcross, crossSeam_counts (usedSeam s l) true (servePort f s), rfl, rfl, ?_⟩
        simp only [crossSeam, modSeam, servePort]
      · exact flitArrive_shut h hat (hahead.trans hseam) hshut true
  · have hanswers : Answers (.seamErrorThreshold link wire) s (seamTrip link.toNat wire.val s) := if_pos hdue
    refine ⟨fun hspare => ⟨_, hanswers, ?_, ?_⟩, fun hspare => ⟨_, hanswers, ?_, ?_, ?_, ?_⟩⟩
    · rw [seamTrip_spare hspare]; rfl
    · rw [seamTrip_spare hspare, getSeam_modSeam]
      intro h
      cases congrArg SeamDir.drain h
    · rw [(seamTrip_kept wire.val hspare).getSeam, failedSeam_failed]
    · exact (seamTrip_kept wire.val hspare).entries (mem_recordSeam ..)
    · exact (seamTrip_kept wire.val hspare).events _ _ _ (by decide) (eventSet_recordSeam _ _ _ (by decide))
    · exact seamTrip_stops wire.val hspare
  · refine ⟨_, seamSwitch_answers hdrain hspare, ?_, eventSet_recordSeam _ _ _ (by decide), mem_recordSeam ..⟩
    rw [(recordSeam_edits _ _ _ _).canopyKept.getSeam, getSeam_modSeam]
    intro h
    have := congrArg SeamDir.spares h
    have := Nat.two_pow_pos k
    simp only [SeamDir.zero] at *
    omega

end Sys2Proof.Machine

/-! SUPPORT. The nib family: one instruction of a Quill core, in the statements' own words. -/

namespace Sys2Proof.Machine

open Sys2Proof.Spec

/-! ## Registers of the core (R154) -/

theorem reg_eq_sreg (n : Nib) (r : Nat) : n.reg r = (Spec.sreg n r).toNat := by
  unfold Nib.reg Spec.sreg
  split <;> rfl

@[simp] theorem withReg_run (n : Nib) (r : Nat) (v : Word32) : (withReg n r v).quill.run = n.quill.run := by
  unfold withReg
  split <;> rfl

theorem setReg_eq_withReg (n : Nib) (r v : Nat) : n.setReg r v = Spec.withReg n r (BitVec.ofNat 32 v) := rfl

/-- A wrapped sum is the sum of the patterns. -/
theorem wrap_toNat_add (a : Word32) (i : Int) : wrap 32 (a.toNat + i) = (a + BitVec.ofInt 32 i).toNat := by
  rw [wrap, ← BitVec.toNat_ofInt, BitVec.ofInt_add, BitVec.ofInt_natCast, BitVec.ofNat_toNat, BitVec.setWidth_eq]

theorem addrOf_eq_sreg (n : Nib) (w : Nat) : addrOf n w = (Spec.sreg n (qRa w) + BitVec.ofInt 32 (qImm15 w)).toNat := by
  rw [addrOf, reg_eq_sreg, wrap_toNat_add]

/-! ## One instruction -/

section
variable {s : State} {nib : Fin 1024} {w : Nat}

theorem running_of_atQuill (h : atQuill s nib w) : (getNib s nib.val).quill.run = .running := h.2.1

/-- The instruction at the PC is carried out by the command of its kind. -/
theorem quillRow_of_atQuill {kind : Nat → Bool} {body : Nat → Nat → Nat → State → State} (h : atQuill s nib w) (hk : kind w = true) :
    quillRow kind body nib s = .next (body nib.val (getNib s nib.val).quill.pc w s) := by
  obtain ⟨hruns, hrun, hfetch, hdefined, -, -⟩ := h
  simp [quillRow, hruns, hrun, hfetch, hdefined, hk]

/-- A nib whose core runs is not the cold one. -/
theorem ne_cold_of_running {n : Nib} (h : n.quill.run = .running) : n ≠ Nib.cold := by
  rintro rfl
  cases h

/-- An instruction that changes its nib alone completes and goes on at the next word. -/
theorem quillGo_modNib {f : Nib → Nib} (h : atQuill s nib w) (hf : (f (getNib s nib.val)).quill.run = .running) :
    quillGo nib.val ((getNib s nib.val).quill.pc + 4) (modNib nib.val f s) =
      onNib nib.val (stepped ((getNib s nib.val).quill.pc + 4) (f (getNib s nib.val))) s := by
  obtain ⟨-, -, -, -, haligned, hinside⟩ := h
  have hcold := ne_cold_of_running hf
  have hstepped : stepped ((getNib s nib.val).quill.pc + 4) (f (getNib s nib.val)) ≠ Nib.cold := ne_cold_of_running rfl
  unfold quillGo
  dsimp only
  rw [if_neg (by omega), modNib, modNib, getNib_setNib_self s nib.val hcold]
  exact congrArg (fun t => { s with nibs := t }) (tabSet_set s.nibs nib.val hcold hstepped)

theorem opIs_of_eq {o : Nat} (h : qOp w = o) : opIs o w = true := beq_iff_eq.mpr h

/-! ## What the queues are given (R74, R108, R109, R115) -/

theorem queueWord_eq_sreg (n : Nib) : queueWord n w = (Spec.sreg n (qRd w)).toNat + 2 ^ 32 * (Spec.sreg n (qRa w)).toNat +
    2 ^ 64 * (Spec.sreg n (qRb w)).toNat + 2 ^ 96 * (Spec.sreg n (qW3 w)).toNat := by
  simp only [queueWord, reg_eq_sreg]

/-- What MXQ places is the word of its registers, with the core's place, PC and MX_FB_BASE. -/
theorem mxEntry_fields (n : Nib) (pc : Nat) : (mxEntry n pc w).word = queueWord n w ∧ (mxEntry n pc w).pc = pc ∧
    (mxEntry n pc w).seq = n.seq ∧ (mxEntry n pc w).fb = n.quill.fbBase := by
  unfold mxEntry
  dsimp only
  split <;> exact ⟨rfl, rfl, rfl, rfl⟩

/-- The plot rank by which a nib's descriptors are judged. -/
def issuerRank (s : State) (nib : Nat) : Nat :=
  match ctxOfNib s nib with
  | some c => (rankOfNib (getCtx s c).plot nib).getD 0
  | none => 0

/-- A descriptor as the core makes it of a word, counted on its tag. -/
def newDesc (n : Nib) (word : Nat) : Desc :=
  ⟨n.seq, n.quill.pc, word, ((tagOf n (bits word 13 8)).1 + 1) % 2 ^ 16, false, [], [], false, false, false,
    if n.quill.sampled then some n.quill.strand else none, false⟩

/-- A nib that has issued a descriptor. -/
def Nib.issue (d : Desc) (n : Nib) : Nib :=
  { n with descs := n.descs ++ [d], seq := n.seq + 1, tags := tabSet (0, 0) n.tags d.tag (d.ord, (tagOf n d.tag).2) }

theorem issueDesc_legal {nib a : Nat} {d : Desc} (hd : d = newDesc (getNib s nib) (descWord (getNib s nib) a))
    (hlegal : d.reason (issuerRank s nib) = 0) : issueDesc nib (getNib s nib).quill.pc a s =
      quillGo nib ((getNib s nib).quill.pc + 4) (modNib nib (Nib.issue d) s) := by
  subst hd
  exact if_neg (not_not.mpr hlegal)

/-! ## Reading under the core's latch (R8) -/

/-- A read that no latched high word answers gives the register's own value. -/
theorem csrRead_value {i : Nat} (v : Nat) {nib : Nat} (hi : i = 5 ∨ i = 0x10 ∨ (getNib s nib).quill.latch = none) :
    (csrRead s nib i v).1 = v := by
  obtain rfl | rfl | hlatch := hi
  · rfl
  · rfl
  · unfold csrRead
    dsimp only
    rw [hlatch]
    split <;> rfl

/-- A high word whose low word was latched reads as latched. -/
theorem csrRead_latched (v : Nat) {nib : Nat} {hi : Word32} (hlatch : (getNib s nib).quill.latch = some (5, hi)) :
    (csrRead s nib 6 v).1 = hi.toNat := by
  unfold csrRead
  dsimp only
  rw [hlatch]
  rfl

variable {n : Nib} (hn : n = getNib s nib.val) (h : atQuill s nib w)
include hn h

/-! ## MXQ and VXQ (R74, R135, R144) -/

theorem mxq_stands (ho : qOp w = 0x10) (hheld : mxqHeld n w = true) : Answers (.mxq nib) s s := by
  subst hn
  rw [Answers, exec, execMxq, quillRow_of_atQuill h (opIs_of_eq ho), if_pos hheld]

theorem mxq_queues (ho : qOp w = 0x10) (hheld : mxqHeld n w = false) : Answers (.mxq nib) s (onNib nib.val
    (stepped (n.quill.pc + 4) { n with mq := n.mq ++ [mxEntry n n.quill.pc w], seq := n.seq + 1 }) s) := by
  subst hn
  rw [Answers, exec, execMxq, quillRow_of_atQuill h (opIs_of_eq ho), if_neg (by simp [hheld]), quillGo_modNib h (running_of_atQuill h)]

theorem vxq_stands (ho : qOp w = 0x11) (hheld : vxqHeld n = true) : Answers (.vxq nib) s s := by
  subst hn
  rw [Answers, exec, execVxq, quillRow_of_atQuill h (opIs_of_eq ho), if_pos hheld]

theorem vxq_queues (ho : qOp w = 0x11) (hheld : vxqHeld n = false) : Answers (.vxq nib) s (onNib nib.val
    (stepped (n.quill.pc + 4) { n with vq := n.vq ++ [vxEntry n n.quill.pc w], seq := n.seq + 1 }) s) := by
  subst hn
  rw [Answers, exec, execVxq, quillRow_of_atQuill h (opIs_of_eq ho), if_neg (by simp [hheld]), quillGo_modNib h (running_of_atQuill h)]

/-! ## DMA, CSRR and CSRW (R108, R112, R157) -/

theorem dma_issues {a : Nat} {d : Desc} (ho : qOp w = 0x12) (ha : a = addrOf n w) (h32 : a % 32 = 0) (hend : a + 31 < 8192)
    (hroom : n.inFlight < 32) (hd : d = newDesc n (descWord n a)) (hlegal : d.reason (issuerRank s nib.val) = 0) :
    Answers (.dma nib) s (onNib nib.val (stepped (n.quill.pc + 4) (n.issue d)) s) := by
  subst hn
  rw [Answers, exec, execDma, quillRow_of_atQuill h (opIs_of_eq ho)]
  dsimp only
  rw [← ha, if_neg (by omega), if_neg (by simpa [dmaHeld] using hroom), issueDesc_legal hd hlegal, quillGo_modNib h (running_of_atQuill h)]

/-- What a read of a control register puts in RD and in the latch. -/
theorem csrr_reads {i v : Nat} (ho : qOp w = 0x16) (hi : i = qField w 11 0) (hv : csrValue s nib.val i = some v)
    (htimed : i ≠ 0x12 ∧ i ≠ 0x13) : Answers (.csrr nib) s (onNib nib.val (stepped (n.quill.pc + 4)
      (withReg { n with quill := { n.quill with latch := (csrRead s nib.val i v).2 } } (qRd w)
        (BitVec.ofNat 32 (csrRead s nib.val i v).1))) s) := by
  subst hn
  rw [Answers, exec, execCsrr, quillRow_of_atQuill h (opIs_of_eq ho)]
  dsimp only
  rw [← hi, hv]
  dsimp only
  rw [if_neg (by simp [htimed]), quillGo_modNib h (by rw [setReg_eq_withReg, withReg_run]; exact running_of_atQuill h)]
  rfl

theorem csrw_flags (ho : qOp w = 0x17) (hi : qField w 11 0 = 7) : Answers (.csrw nib) s (onNib nib.val (stepped (n.quill.pc + 4)
    { n with tileOvf := bit (sreg n (qRa w)).toNat 0, tileNf := bit (sreg n (qRa w)).toNat 1 }) s) := by
  subst hn
  rw [Answers, exec, execCsrw, quillRow_of_atQuill h (opIs_of_eq ho)]
  dsimp only
  rw [hi, reg_eq_sreg]
  exact congrArg _ (quillGo_modNib h (running_of_atQuill h))

/-- The high word puts MX_FB_BASE in effect with the low word that waits. -/
theorem csrw_feedbackBase {lo : Word32} (ho : qOp w = 0x17) (hi : qField w 11 0 = 0x11) (hlo : n.quill.fbLow = some lo) :
    Answers (.csrw nib) s (onNib nib.val (stepped (n.quill.pc + 4)
      { n with quill := { n.quill with fbBase := (sreg n (qRa w)).toNat * 2 ^ 32 + lo.toNat, fbLow := none } }) s) := by
  subst hn
  rw [Answers, exec, execCsrw, quillRow_of_atQuill h (opIs_of_eq ho)]
  dsimp only
  rw [hi, reg_eq_sreg]
  refine congrArg _ ((quillGo_modNib h (running_of_atQuill h)).trans ?_)
  simp only [Nib.modQuill, hlo]

end

/-- Settles O46: a command that is held leaves the state, one that completes leaves its nib stepped past what it did. -/
theorem quillIssue : Obligations.QuillIssue := by
  unfold Obligations.QuillIssue
  intro s nib w n q hn h hq
  have hword : queueWord n w = q := (queueWord_eq_sreg n).trans hq.symm
  refine ⟨fun ho => ⟨fun hroom horder => ?_, fun hheld => ?_⟩, fun ho => ⟨fun hroom => ?_, fun hfull => ?_⟩, ?_, ?_, ?_⟩
  · obtain ⟨heword, hepc, heseq, hefb⟩ := mxEntry_fields (w := w) n n.quill.pc
    exact ⟨_, heword.trans hword, hepc, heseq, hefb, mxq_queues hn h ho (by simp [mxqHeld, hword, horder, hroom])⟩
  · exact mxq_stands hn h ho (by simpa [mxqHeld, hword] using hheld)
  · exact ⟨vxEntry n n.quill.pc w, hword, rfl, rfl, vxq_queues hn h ho (by simpa [vxqHeld] using hroom)⟩
  · exact vxq_stands hn h ho (by simpa [vxqHeld] using hfull)
  · intro a d rank ho ha h32 hend hroom hdword hdseq hdpc hdstarted hdlanded hdheld hdfailed hddone hdstalled hdsignaled hdsample hdord
      hrank hlegal
    have hd : d = newDesc n (descWord n a) := by
      rw [Desc.tag, hdword] at hdord
      cases d
      subst hdword hdseq hdpc hdstarted hdlanded hdheld hdfailed hddone hdstalled hdsignaled hdsample hdord
      rfl
    have hrank' : rank = issuerRank s nib.val := hrank
    exact dma_issues hn h ho (ha.trans (addrOf_eq_sreg n w).symm) h32 hend hroom hd (hrank' ▸ hlegal)
  · intro i v ho hi hv hlow hhigh
    refine ⟨_, _, csrr_reads hn h ho hi hv ⟨hlow, hhigh⟩, fun hplain => ?_, fun hi' h6 hlatch => ?_⟩
    · exact csrRead_value v (hn ▸ hplain)
    · subst h6
      exact csrRead_latched v (hn ▸ hlatch)
  · exact fun ho => ⟨csrw_flags hn h ho, fun hi _ => csrw_feedbackBase hn h ho hi⟩

end Sys2Proof.Machine

/-! SUPPORT. The nib family: reading a nib back, and loops over accumulator rows. -/

namespace Sys2Proof.Machine

open Sys2Proof.Spec

/-! ## Tables in canonical form -/

section
variable {α : Type}

theorem tabInsert_of_find [DecidableEq α] {d : α} {lo i : Nat} {v : α} {t : Tab α} (w : tabWfFrom d lo t = true)
    (h : tabFind? t i = some v) : tabInsert t i v = t := by
  induction t generalizing lo with
  | nil => cases h
  | cons p t ih =>
    obtain ⟨k, x⟩ := p
    simp only [tabWfFrom, Bool.and_eq_true] at w
    simp only [tabFind?] at h
    split at h
    · next hk => simp_all [tabInsert]
    · next hk =>
      have hlt : ¬ i < k := fun hlt => by simp [tabFind_below t w.2 (by omega : i < k + 1)] at h
      rw [tabInsert, if_neg hlt, if_neg (Ne.symm hk), ih w.2 h]

theorem tabErase_of_find {i : Nat} {t : Tab α} (h : tabFind? t i = none) : tabErase t i = t := by
  induction t with
  | nil => rfl
  | cons p t ih =>
    obtain ⟨k, x⟩ := p
    simp only [tabFind?] at h
    split at h
    · cases h
    · next hk => rw [tabErase, if_neg (Ne.symm hk), ih h]

/-- What is listed is not the default. -/
theorem tabFind_ne_default [DecidableEq α] {d : α} {lo i : Nat} {t : Tab α} (w : tabWfFrom d lo t = true) : tabFind? t i ≠ some d := by
  induction t generalizing lo with
  | nil => simp [tabFind?]
  | cons p t ih =>
    obtain ⟨k, x⟩ := p
    simp only [tabWfFrom, Bool.and_eq_true, decide_eq_true_eq] at w
    simp only [tabFind?]
    split
    · simpa using w.1.2
    · exact ih w.2

/-- In a canonical table a write of what stands there changes nothing. -/
theorem tabSet_get [DecidableEq α] {d : α} {t : Tab α} (i : Nat) (w : tabWf d t = true) : tabSet d t i (tabGet d t i) = t := by
  cases h : tabFind? t i with
  | none => simp [tabSet, tabGet, h, tabErase_of_find h]
  | some v =>
    have hv : v ≠ d := fun e => tabFind_ne_default w (e ▸ h)
    simp [tabSet, tabGet, h, hv, tabInsert_of_find w h]

end

section
variable {s : State} (w : tabWf Nib.cold s.nibs = true)
include w

theorem getNib_setNib (nib : Nat) (n : Nib) : getNib (setNib nib n s) nib = n := tabGet_set_wf s.nibs nib n w

theorem setNib_wf (nib : Nat) (n : Nib) : tabWf Nib.cold (setNib nib n s).nibs = true := tabSet_wf s.nibs nib n w

theorem setNib_getNib (nib : Nat) : setNib nib (getNib s nib) s = s := by
  rw [setNib, getNib, tabSet_get nib w]

end

/-! ## Accumulator rows (R50) -/

section
variable {n : Nib} {a r : Nat}

theorem accRow_setAcc_self (w : tabWf AccRow.clear n.acc = true) (x : AccRow) : (n.setAcc a r x).accRow a r = x :=
  tabGet_set_wf n.acc _ x w

theorem accRow_setAcc_ne {b q : Nat} (x : AccRow) (hr : r < 64) (hq : q < 64) (h : ¬ (b = a ∧ q = r)) :
    (n.setAcc a r x).accRow b q = n.accRow b q :=
  tabGet_set_ne n.acc x (by omega)

end

/-- `n'` is `n` but for accumulator rows: in the rows of `S` each is what `F` makes of it, the others are as they were. -/
structure AccRows (S : Nat → Nat → Prop) (F : Nat → Nat → AccRow → AccRow) (n n' : Nib) : Prop where
  rest : n' = { n with acc := n'.acc }
  wf : tabWf AccRow.clear n'.acc = true
  written : ∀ a r, r < 64 → S a r → n'.accRow a r = F a r (n.accRow a r)
  kept : ∀ a r, r < 64 → ¬ S a r → n'.accRow a r = n.accRow a r

namespace AccRows
variable {S T : Nat → Nat → Prop} {F : Nat → Nat → AccRow → AccRow} {n n' n'' : Nib}

/-- Rows of which `F` makes nothing new. -/
theorem same (w : tabWf AccRow.clear n.acc = true) (hF : ∀ a r, S a r → ∀ x, F a r x = x) : AccRows S F n n :=
  ⟨rfl, w, fun a r _ h => (hF a r h _).symm, fun _ _ _ _ => rfl⟩

/-- One after the other, over rows that have none in common. -/
theorem trans (h : AccRows S F n n') (k : AccRows T F n' n'') (hd : ∀ a r, r < 64 → S a r → ¬ T a r) :
    AccRows (fun a r => S a r ∨ T a r) F n n'' where
  rest := by rw [k.rest, h.rest]
  wf := k.wf
  written a r hr hst := by
    obtain hs | ht := hst
    · rw [k.kept a r hr (hd a r hr hs), h.written a r hr hs]
    · rw [k.written a r hr ht, h.kept a r hr (fun hs => hd a r hr hs ht)]
  kept a r hr hst := by
    obtain ⟨hs, ht⟩ := not_or.mp hst
    rw [k.kept a r hr ht, h.kept a r hr hs]

theorem congr (h : AccRows S F n n') (hst : ∀ a r, r < 64 → (S a r ↔ T a r)) : AccRows T F n n' :=
  ⟨h.rest, h.wf, fun a r hr ht => h.written a r hr ((hst a r hr).mpr ht), fun a r hr ht => h.kept a r hr (fun hs => ht ((hst a r hr).mp hs))⟩

/-- One row written. -/
theorem setAcc {a r : Nat} (w : tabWf AccRow.clear n.acc = true) (hr : r < 64) :
    AccRows (fun b q => b = a ∧ q = r) F n (n.setAcc a r (F a r (n.accRow a r))) where
  rest := rfl
  wf := tabSet_wf n.acc _ _ w
  written b q _ h := by
    obtain ⟨rfl, rfl⟩ := h
    exact accRow_setAcc_self w _
  kept b q hq h := accRow_setAcc_ne _ hr hq h

/-- A loop whose rounds write rows that no two have in common. -/
theorem foldl {α : Type} {g : Nib → α → Nib} {S : α → Nat → Nat → Prop} {xs : List α} (w : tabWf AccRow.clear n.acc = true)
    (hd : xs.Pairwise fun x y => ∀ a r, r < 64 → S x a r → ¬ S y a r)
    (hg : ∀ x ∈ xs, ∀ m : Nib, m = { n with acc := m.acc } → tabWf AccRow.clear m.acc = true → AccRows (S x) F m (g m x)) :
    AccRows (fun a r => ∃ x ∈ xs, S x a r) F n (xs.foldl g n) := by
  induction xs generalizing n with
  | nil => exact .same w (by simp)
  | cons x xs ih =>
    obtain ⟨hx, hxs⟩ := List.pairwise_cons.mp hd
    have hfirst := hg x List.mem_cons_self n rfl w
    have hrest := ih hfirst.wf hxs fun y hy m hm wm =>
      hg y (List.mem_cons_of_mem x hy) m (by rw [hm, hfirst.rest]) wm
    refine (hfirst.trans hrest fun a r hr hsx => ?_).congr (by simp)
    rintro ⟨y, hy, hsy⟩
    exact hx y hy a r hr hsx hsy

/-- Rows `base` to `base + m − 1` of array `a`, in order. -/
theorem range {a base m : Nat} (w : tabWf AccRow.clear n.acc = true) (hend : base + m ≤ 64) {f : Nat → AccRow → AccRow}
    (hf : ∀ j, j < m → F a (base + j) = f j) : AccRows (fun b r => b = a ∧ base ≤ r ∧ r < base + m) F n
      ((List.range m).foldl (fun n j => n.setAcc a (base + j) (f j (n.accRow a (base + j)))) n) := by
  refine (foldl (S := fun j b r => b = a ∧ r = base + j) w ?_ fun j hj k _ wk => ?_).congr fun b r _ => ?_
  · exact List.nodup_range.imp fun hne _ _ _ h h' => hne (by omega)
  · have hj := List.mem_range.mp hj
    rw [← hf j hj]
    exact setAcc wk (by omega)
  · simp only [List.mem_range]
    constructor
    · rintro ⟨j, hj, rfl, rfl⟩
      omega
    · rintro ⟨rfl, hlo, hhi⟩
      exact ⟨r - base, by omega, rfl, by omega⟩

end AccRows

theorem mem_arraysOf {mask a : Nat} : a ∈ arraysOf mask ↔ a < 4 ∧ bit mask a = true := by
  simp [arraysOf]

theorem arraysOf_nodup (mask : Nat) : (arraysOf mask).Nodup := List.nodup_range.filter _

/-- A loop over the enabled arrays, each round writing rows of its own array. -/
theorem AccRows.arrays {n : Nib} {F : Nat → Nat → AccRow → AccRow} {g : Nib → Nat → Nib} {mask lo hi : Nat}
    (w : tabWf AccRow.clear n.acc = true)
    (hg : ∀ a, a < 4 → bit mask a = true → ∀ m : Nib, m = { n with acc := m.acc } → tabWf AccRow.clear m.acc = true →
      AccRows (fun b r => b = a ∧ lo ≤ r ∧ r < hi) F m (g m a)) :
    AccRows (fun a r => (a < 4 ∧ bit mask a = true) ∧ lo ≤ r ∧ r < hi) F n ((arraysOf mask).foldl g n) := by
  refine (foldl (S := fun a b r => b = a ∧ lo ≤ r ∧ r < hi) w ?_ fun a ha => ?_).congr fun b r _ => ?_
  · exact (arraysOf_nodup mask).imp fun hne _ _ _ h h' => hne (h.1.symm.trans h'.1)
  · exact hg a (mem_arraysOf.mp ha).1 (mem_arraysOf.mp ha).2
  · simp only [mem_arraysOf]
    constructor
    · rintro ⟨a, ha, rfl, hr⟩
      exact ⟨ha, hr⟩
    · rintro ⟨ha, hr⟩
      exact ⟨b, ha, rfl, hr⟩

end Sys2Proof.Machine

/-! SUPPORT. The nib family: the head of the matrix queue, ACCCLR, MMAs, gather groups and sparse MMAs. -/

namespace Sys2Proof.Machine

open Sys2Proof.Spec

/-! ## The head of the queue (R74, R85) -/

section
variable {s : State} {nib : Fin 1024} {e : MxEntry} {rest : List MxEntry} {o : Nat}

/-- The command of the head's kind carries it out. -/
theorem mxRow_of_mxHead {kind : Nib → Nat → Bool} {body : Nat → MxEntry → State → State} (w : tabWf Nib.cold s.nibs = true)
    (h : mxHead s nib.val e rest o) (hk : kind (getNib s nib.val) e.word = true) (ho : o = 0x40 ∨ o = 0x48 ∨ o = 0x49) :
    mxRow kind body nib [] s = .next (body nib.val e s) := by
  obtain ⟨hruns, hmq, hop, hgather, hwait⟩ := h
  have hupset : modNib nib.val (fun n => n.upset []) s = s := setNib_getNib w nib.val
  unfold mxRow
  dsimp only
  rw [hruns, hmq]
  dsimp only
  rw [if_neg (by simp [hgather, hwait]), if_neg (by omega), if_pos hk, hupset]

theorem popMx_of_mxHead (h : mxHead s nib.val e rest o) : popMx (getNib s nib.val) = { getNib s nib.val with mq := rest } := by
  obtain ⟨-, hmq, -⟩ := h
  rw [popMx, hmq]
  rfl

/-! ## ACCCLR (R82) -/

theorem accClr_ofWord (w : Nat) : AccClr.ofWord w = ⟨bits w 11 8, bits w 17 12, bits w 24 18⟩ := by
  simp [AccClr.ofWord, wf]

theorem accClr_end {i : AccClr} (h : i.reason = 0) : i.acc + i.n ≤ 64 := by
  unfold AccClr.reason at h
  split at h
  · omega
  · split at h <;> omega

/-- A nib with the rows of an ACCCLR cleared. -/
def Nib.clearRows (n : Nib) (i : AccClr) : Nib :=
  (arraysOf i.amask).foldl (fun n a => (List.range i.n).foldl (fun n j => n.setAcc a (i.acc + j) AccRow.clear) n) n

theorem clearRows_rows {i : AccClr} {n : Nib} (w : tabWf AccRow.clear n.acc = true) (h : i.reason = 0) :
    AccRows (fun a r => (a < 4 ∧ bit i.amask a = true) ∧ i.acc ≤ r ∧ r < i.acc + i.n) (fun _ _ _ => AccRow.clear) n (n.clearRows i) :=
  .arrays w fun _ _ _ _ _ wm => .range wm (accClr_end h) (f := fun _ _ => AccRow.clear) fun _ _ => rfl

theorem accclr_clears {i : AccClr} (w : tabWf Nib.cold s.nibs = true) (hi : i = AccClr.ofWord e.word)
    (h : mxHead s nib.val e rest 0x49) (hlegal : i.reason = 0) :
    Answers (.accclrIssue nib) s (setNib nib.val ((popMx (getNib s nib.val)).clearRows i) s) := by
  obtain ⟨-, -, hop, -, -⟩ := id h
  rw [Answers, exec, execAccclrIssue, mxRow_of_mxHead w h (beq_iff_eq.mpr hop) (by omega)]
  dsimp only
  rw [← hi, if_neg (not_not.mpr hlegal)]
  rfl

end

/-! ## Products added into a row (R50, R73) -/

/-- The sum of one entry of a row. -/
def AccRow.sumAt (r : AccRow) (p : Nat) : BitVec 88 := (vget AccEntry.clear r.entries p).sum

theorem sumAt_addTerm (r : AccRow) (t : Term) {q p : Nat} (hp : p < 16) :
    (r.addTerm q t).sumAt p = if q = p then r.sumAt p + BitVec.ofInt 88 t.v else r.sumAt p := by
  unfold AccRow.sumAt AccRow.addTerm
  split
  · next h =>
    subst h
    rw [vget_vset_self _ _ _ hp]
    rfl
  · next h => rw [vget_vset_ne _ _ _ (Ne.symm h)]

/-- Terms added one after the other leave the row's tag and depth. -/
theorem foldl_addTerm_tag (xs : List Nat) (c : Nat → Nat) (t : Nat → Term) (r : AccRow) :
    (xs.foldl (fun r q => r.addTerm (c q) (t q)) r).tag = r.tag ∧ (xs.foldl (fun r q => r.addTerm (c q) (t q)) r).depth = r.depth := by
  induction xs generalizing r with
  | nil => exact ⟨rfl, rfl⟩
  | cons q xs ih => exact ih (r.addTerm (c q) (t q))

/-- An entry takes in the terms of its own column. -/
theorem sumAt_foldl_addTerm (xs : List Nat) (c : Nat → Nat) (t : Nat → Term) (r : AccRow) {p : Nat} (hp : p < 16) :
    (xs.foldl (fun r q => r.addTerm (c q) (t q)) r).sumAt p =
      (xs.filter (fun q => c q == p)).foldl (fun v q => v + BitVec.ofInt 88 (t q).v) (r.sumAt p) := by
  induction xs generalizing r with
  | nil => rfl
  | cons q xs ih =>
    rw [List.foldl_cons, ih, sumAt_addTerm r (t q) hp]
    by_cases h : c q = p <;> simp [h]

/-- The cells of column p of 16 × 16 weights, row by row. -/
theorem cells_of_column {p : Nat} (hp : p < 16) :
    (List.range 256).filter (fun q => q % 16 == p) = (List.range 16).map (fun k => 16 * k + p) := by
  revert p
  decide

theorem addVector_tag (A : Int) (acts : List Num) (h : Held) (r : AccRow) :
    (addVector A acts h r).tag = r.tag ∧ (addVector A acts h r).depth = r.depth := foldl_addTerm_tag _ _ _ r

/-- An MMA's row adds to entry p its 16 products with column p of the weights. -/
theorem sumAt_addVector (A : Int) (acts : List Num) (h : Held) (r : AccRow) {p : Nat} (hp : p < 16) :
    (addVector A acts h r).sumAt p = (List.range 16).foldl (fun v k => v + BitVec.ofInt 88
      (termOfProduct A (acts.getD k .nan) (h.elems.getD (16 * k + p) .nan)).v) (r.sumAt p) := by
  have hdiv (k : Nat) : (16 * k + p) / 16 = k := by omega
  unfold addVector
  dsimp only
  rw [sumAt_foldl_addTerm _ _ _ _ hp, cells_of_column hp, List.foldl_map]
  simp only [hdiv]

/-! ## Weights and buffers that an MMA loads (R77, R93) -/

/-- A loop that loads weights into arrays touches no more. -/
theorem foldl_held (xs : List Nat) (f : Nat → Option Held) (n : Nib) :
    ∃ h, xs.foldl (fun n a => { n with held := vset n.held a (f a) }) n = { n with held := h } ∧
      ∀ a, a < 4 → vget none h a = if a ∈ xs then f a else vget none n.held a := by
  induction xs generalizing n with
  | nil => exact ⟨n.held, rfl, fun a _ => by simp⟩
  | cons x xs ih =>
    obtain ⟨h, hfold, hget⟩ := ih { n with held := vset n.held x (f x) }
    refine ⟨h, hfold, fun a ha => ?_⟩
    rw [hget a ha]
    by_cases hx : a = x
    · subst hx
      simp [vget_vset_self none n.held (f a) ha]
    · simp [hx, vget_vset_ne none n.held (f x) hx]

/-- The feeder's buffers change, nothing else. -/
theorem fillBuffers_frame (n : Nib) (i : Mma) (rows : List (Nat × Row)) : n.fillBuffers i rows =
    { n with
        actBuf := (n.fillBuffers i rows).actBuf, wBuf := (n.fillBuffers i rows).wBuf, scaleBuf := (n.fillBuffers i rows).scaleBuf } := by
  have hfold (xs : List Nat) (m : Nib) : ∃ b, xs.foldl (fun n a =>
      { n with wBuf := vset n.wBuf a (some (i.wRow + a, rowIn rows (i.wRow + a))) }) m = { m with wBuf := b } := by
    induction xs generalizing m with
    | nil => exact ⟨m.wBuf, rfl⟩
    | cons x xs ih => exact ih _
  unfold Nib.fillBuffers
  dsimp only
  split
  · rfl
  · obtain ⟨b, hb⟩ := hfold (arraysOf i.amask) { n with actBuf := _, scaleBuf := _ }
    rw [hb]

/-- A nib when an MMA's weights and buffers are loaded, before it adds. -/
def Nib.loaded (n : Nib) (i : Mma) (rows : List (Nat × Row)) : Nib :=
  (if i.wmode = 1 then n
    else (arraysOf i.amask).foldl (fun n a => { n with held := vset n.held a (some (mmaWeights i rows a)) }) n).fillBuffers i rows

theorem loaded_frame (n : Nib) (i : Mma) (rows : List (Nat × Row)) : n.loaded i rows =
    { n with
        held := (n.loaded i rows).held, actBuf := (n.loaded i rows).actBuf, wBuf := (n.loaded i rows).wBuf
        scaleBuf := (n.loaded i rows).scaleBuf } := by
  unfold Nib.loaded
  split
  · rw [fillBuffers_frame]
  · obtain ⟨h, hfold, -⟩ := foldl_held (arraysOf i.amask) (fun a => some (mmaWeights i rows a)) n
    rw [hfold, fillBuffers_frame]

/-- The weights that an enabled array multiplies by. -/
theorem loaded_held (n : Nib) {i : Mma} (rows : List (Nat × Row)) {a : Nat} (ha : a < 4) (hbit : bit i.amask a = true) :
    vget none (n.loaded i rows).held a = if i.wmode = 1 then vget none n.held a else some (mmaWeights i rows a) := by
  unfold Nib.loaded
  split
  · rw [fillBuffers_frame]
  · obtain ⟨h, hfold, hget⟩ := foldl_held (arraysOf i.amask) (fun a => some (mmaWeights i rows a)) n
    rw [hfold, fillBuffers_frame]
    exact (hget a ha).trans (if_pos (mem_arraysOf.mpr ⟨ha, hbit⟩))

/-! ## MMA (R70 to R77) -/

/-- What an MMA makes of row r of array a. -/
def mmaRow (held : Vector (Option Held) 4) (i : Mma) (rows : List (Nat × Row)) (a r : Nat) (x : AccRow) : AccRow :=
  match vget none held a with
  | none => x
  | some h => addVector i.anchor (mmaActs i rows (r - i.acc)) h (x.begin i.anchor i.clr 1)

theorem mmaRow_some {held : Vector (Option Held) 4} {a : Nat} {h : Held} (i : Mma) (rows : List (Nat × Row)) (r : Nat) (x : AccRow)
    (hh : vget none held a = some h) :
    mmaRow held i rows a r x = addVector i.anchor (mmaActs i rows (r - i.acc)) h (x.begin i.anchor i.clr 1) := by
  rw [mmaRow, hh]

theorem runMma_rows {n : Nib} {i : Mma} (rows : List (Nat × Row)) (w : tabWf AccRow.clear n.acc = true) (hend : i.acc + i.m ≤ 64) :
    AccRows (fun a r => (a < 4 ∧ bit i.amask a = true) ∧ i.acc ≤ r ∧ r < i.acc + i.m) (mmaRow (n.loaded i rows).held i rows)
      (n.loaded i rows) (n.runMma i rows) := by
  have wl : tabWf AccRow.clear (n.loaded i rows).acc = true := by
    rw [loaded_frame]
    exact w
  refine AccRows.arrays wl fun a _ _ m hm wm => ?_
  have hheld : m.held = (n.loaded i rows).held := by rw [hm]
  rw [hheld]
  cases hh : vget none (n.loaded i rows).held a with
  | none => exact .same wm fun b r hbr x => by rw [mmaRow, hbr.1, hh]
  | some h =>
    refine .range wm hend (f := fun j x => addVector i.anchor (mmaActs i rows j) h (x.begin i.anchor i.clr 1)) fun j _ => ?_
    funext x
    rw [mmaRow_some i rows _ x hh, Nat.add_sub_cancel_left]

/-- Accumulator rows, held weights and buffers change, nothing else. -/
theorem runMma_frame {n : Nib} {i : Mma} (rows : List (Nat × Row)) (w : tabWf AccRow.clear n.acc = true) (hend : i.acc + i.m ≤ 64) :
    n.runMma i rows = { n with
      acc := (n.runMma i rows).acc, held := (n.loaded i rows).held, actBuf := (n.loaded i rows).actBuf
      wBuf := (n.loaded i rows).wBuf, scaleBuf := (n.loaded i rows).scaleBuf } := by
  rw [(runMma_rows rows w hend).rest, loaded_frame]

theorem accRow_loaded (n : Nib) (i : Mma) (rows : List (Nat × Row)) (a r : Nat) : (n.loaded i rows).accRow a r = n.accRow a r := by
  rw [loaded_frame]
  rfl

/-- Row j of an enabled array takes in the products of activation row j with the array's weights. -/
theorem accRow_runMma {n : Nib} {i : Mma} (rows : List (Nat × Row)) {a j : Nat} {h : Held} (w : tabWf AccRow.clear n.acc = true)
    (hend : i.acc + i.m ≤ 64) (ha : a < 4) (hbit : bit i.amask a = true) (hh : vget none (n.loaded i rows).held a = some h) (hj : j < i.m) :
    (n.runMma i rows).accRow a (i.acc + j) =
      addVector i.anchor (mmaActs i rows j) h ((n.accRow a (i.acc + j)).begin i.anchor i.clr 1) := by
  rw [(runMma_rows rows w hend).written a (i.acc + j) (by omega) ⟨⟨ha, hbit⟩, by omega, by omega⟩, mmaRow_some i rows _ _ hh,
    Nat.add_sub_cancel_left, accRow_loaded]

/-- So its tag and depth are those of the row as the MMA begins it, and entry q takes in 16 products. -/
theorem runMma_adds {n : Nib} {i : Mma} (rows : List (Nat × Row)) {a j : Nat} {h : Held} {b : AccRow}
    (w : tabWf AccRow.clear n.acc = true) (hend : i.acc + i.m ≤ 64) (ha : a < 4) (hbit : bit i.amask a = true)
    (hh : vget none (n.loaded i rows).held a = some h) (hj : j < i.m) (hb : b = (n.accRow a (i.acc + j)).begin i.anchor i.clr 1) :
    ((n.runMma i rows).accRow a (i.acc + j)).tag = b.tag ∧ ((n.runMma i rows).accRow a (i.acc + j)).depth = b.depth ∧
      ∀ q, q < 16 → ((n.runMma i rows).accRow a (i.acc + j)).sumAt q = (List.range 16).foldl (fun v k => v + BitVec.ofInt 88
        (termOfProduct i.anchor ((mmaActs i rows j).getD k .nan) (h.elems.getD (16 * k + q) .nan)).v) (b.sumAt q) := by
  obtain ⟨htag, hdepth⟩ := addVector_tag i.anchor (mmaActs i rows j) h b
  rw [accRow_runMma rows w hend ha hbit hh hj, ← hb]
  exact ⟨htag, hdepth, fun q hq => sumAt_addVector i.anchor _ h b hq⟩

theorem accRow_runMma_other {n : Nib} {i : Mma} (rows : List (Nat × Row)) {a r : Nat} (w : tabWf AccRow.clear n.acc = true)
    (hend : i.acc + i.m ≤ 64) (hr : r < 64) (hout : bit i.amask a = false ∨ r < i.acc ∨ i.acc + i.m ≤ r) :
    (n.runMma i rows).accRow a r = n.accRow a r := by
  refine ((runMma_rows rows w hend).kept a r hr fun hin => ?_).trans (accRow_loaded ..)
  obtain ⟨⟨-, hbit⟩, hlo, hhi⟩ := hin
  obtain hout | hout | hout := hout
  · exact Bool.eq_false_iff.mp hout hbit
  · omega
  · omega

theorem shapeReason_end {i : Mma} (h : i.shapeReason = 0) : i.acc + i.m ≤ 64 := by
  unfold Mma.shapeReason at h
  repeat' split at h
  all_goals omega

theorem shapeReason_of_reason {i : Mma} {held : Nat → Bool} (h : i.reason held = 0) : i.shapeReason = 0 := by
  unfold Mma.reason at h
  by_contra hne
  rw [if_pos hne] at h
  exact hne h

section
variable {s : State} {nib : Fin 1024} {e : MxEntry} {rest : List MxEntry} {i : Mma} (w : tabWf Nib.cold s.nibs = true)
  (h : mxHead s nib.val e rest 0x40) (hdense : isSparse (getNib s nib.val).regions e.word = false)
include w h hdense

/-- An ordinary MMA at the head opens a group or issues. -/
theorem mmaIssue_of_mxHead : Answers (.mmaIssue nib []) s
    (if opensGroup s (getNib s nib.val) e.word then modNib nib.val (fun n => growGroup { n with gather := 1 } 16) s
      else (issueMma nib.val e s).2) := by
  obtain ⟨-, -, hop, hgather, -⟩ := id h
  rw [Answers, exec, execMmaIssue, if_neg (by simp [hgather]), mxRow_of_mxHead w h (by simp [hop, hdense]) (by omega)]

variable (hi : i = Mma.ofWord e.word) (halone : opensGroup s (getNib s nib.val) e.word = false) (hlegal : i.reason (holds (getNib s nib.val)) = 0)
  (hidle : i.idle = false)
include hi halone hlegal hidle

/-- One whose rows can be read, and whose accumulator rows agree, adds its products. -/
theorem mma_issues {ds : List Row} (hcheck : i.clr = true ∨ accCheck ((getNib s nib.val).mmaRows i) i.anchor 1 = none)
    (hread : (getNib s nib.val).feedRows i.rows = .ok ds) : Answers (.mmaIssue nib []) s
      (setNib nib.val (countMma ((popMx (getNib s nib.val)).runMma i (i.rows.zip ds))) s) := by
  have hpass : (if i.clr then none else accCheck ((getNib s nib.val).mmaRows i) i.anchor 1) = none := by
    obtain hc | hc := hcheck <;> simp [hc]
  have hissue := mmaIssue_of_mxHead w h hdense
  rw [halone, if_neg Bool.false_ne_true, issueMma, ← hi, if_neg (not_not.mpr hlegal), if_neg (by simp [hidle]), hpass,
    hread] at hissue
  exact hissue

/-- One whose accumulator rows do not agree is refused. -/
theorem mma_refused {err : AccErr} (hclr : i.clr = false) (hcheck : accCheck ((getNib s nib.val).mmaRows i) i.anchor 1 = some err) :
    Answers (.mmaIssue nib []) s (accFault nib.val e.pc err s) := by
  have hissue := mmaIssue_of_mxHead w h hdense
  rwa [halone, if_neg Bool.false_ne_true, issueMma, ← hi, if_neg (not_not.mpr hlegal), if_neg (by simp [hidle]), hclr,
    if_neg Bool.false_ne_true, hcheck] at hissue

end

/-! ## Gathering (R90) -/

/-- A group only grows, and nothing but it changes. -/
theorem growGroup_grows (n : Nib) (fuel : Nat) :
    growGroup n fuel = { n with gather := (growGroup n fuel).gather } ∧ n.gather ≤ (growGroup n fuel).gather := by
  induction fuel generalizing n with
  | zero => exact ⟨rfl, le_refl _⟩
  | succ fuel ih =>
    unfold growGroup
    split
    · exact ⟨rfl, le_refl _⟩
    · split
      · obtain ⟨hframe, hmore⟩ := ih { n with gather := n.gather + 1 }
        exact ⟨hframe, Nat.le_of_succ_le hmore⟩
      · exact ⟨rfl, le_refl _⟩

/-- A nib whose group leaves the queue as one pass. -/
def Nib.closeGroup (n : Nib) : Nib :=
  { n with gather := 0, count := { n.count with gathered := satAdd 32 n.count.gathered 1 } }

section
variable {s : State} {nib : Fin 1024} (hruns : nibRuns s nib.val = true) (hopen : (getNib s nib.val).gather ≠ 0)
include hruns hopen

theorem mmaIssue_joins (ups : List Upset) : Answers (.mmaIssue nib ups) s (setNib nib.val (growGroup (getNib s nib.val) 16) s) := by
  rw [Answers, exec, execMmaIssue, if_pos ⟨hruns, hopen⟩, modNib]

theorem gatherPass_issues (w : tabWf Nib.cold s.nibs = true) {late : Bool}
    (hdue : late = true ∨ groupDue (growGroup (getNib s nib.val) 16) = true) : Answers (.gatherPass nib late []) s
      (issueMembers nib.val (growGroup (getNib s nib.val) 16).gather
        (modNib nib.val Nib.closeGroup (setNib nib.val (growGroup (getNib s nib.val) 16) s))) := by
  have hmore := (growGroup_grows (getNib s nib.val) 16).2
  have hgather : (getNib (setNib nib.val (growGroup (getNib s nib.val) 16) s) nib.val).gather =
      (growGroup (getNib s nib.val) 16).gather := by rw [getNib_setNib w]
  rw [Answers, exec, execGatherPass]
  rw [if_pos ⟨hruns, by omega, hdue⟩]
  exact congrArg (fun k => Host.Outcome.next (issueMembers nib.val k (modNib nib.val Nib.closeGroup _))) hgather

end

/-! ## Faults of a nib (R52, R53, R95) -/

/-- The event of a nib's fault stands whatever the fault of its context then does. -/
theorem eventSet_nibFault (p : Page) {event : Nat} (n nib pc reason : Nat) (s : State) (he : event < 32) :
    eventSet (nibFault p event n nib pc reason s) p 0 event := by
  have hraise := eventSet_raise p 0 (nibNote s nib pc reason) s he
  unfold nibFault
  dsimp only
  split
  · next c _ => exact (layerEdits_ctxFault .refl c _).canopyKept.events p 0 event he hraise
  · exact hraise

theorem eventSet_accFault (nib pc : Nat) (err : AccErr) (s : State) : eventSet (accFault nib pc err s) .numeric 0 (match err with
    | .anchor => 2
    | .depth => 3) := by
  cases err with
  | anchor => exact eventSet_nibFault .numeric _ nib pc _ _ (by decide)
  | depth => exact eventSet_nibFault .numeric _ nib pc _ _ (by decide)

/-! ## Sparse MMAs (R192 to R202) -/

theorem zipIdx_eq_map_range {α : Type} (xs : List α) (d : α) : xs.zipIdx = (List.range xs.length).map (fun j => (xs.getD j d, j)) := by
  refine List.ext_getElem (by simp) fun j hj _ => ?_
  have hj : j < xs.length := by simpa using hj
  simp [hj]

/-- What a sparse MMA makes of row r of array a: its tile row's entries added. -/
def sparseRow (i : Mma) (tile : List (List (Nat × Nat))) (rows : List (Nat × Row)) (a r : Nat) (x : AccRow) : AccRow :=
  (tile.getD (r - i.acc) []).foldl (addEntry i rows a) (x.begin i.anchor i.clr 128)

/-- A nib with the entries of a tile added. -/
def Nib.addTile (n : Nib) (i : Mma) (tile : List (List (Nat × Nat))) (rows : List (Nat × Row)) : Nib :=
  (arraysOf i.amask).foldl (fun n a => (tile.zipIdx).foldl (fun n p =>
    n.setAcc a (i.acc + p.2) (p.1.foldl (addEntry i rows a) ((n.accRow a (i.acc + p.2)).begin i.anchor i.clr 128))) n) n

theorem runSparse_eq (n : Nib) (i : Mma) (tile : List (List (Nat × Nat))) (rows : List (Nat × Row)) :
    n.runSparse i tile rows = { (n.addTile i tile rows).unbuffered with held := Vector.replicate 4 none } := rfl

theorem addTile_rows {n : Nib} {i : Mma} {tile : List (List (Nat × Nat))} (rows : List (Nat × Row))
    (w : tabWf AccRow.clear n.acc = true) (hend : i.acc + i.m ≤ 64) (hlen : tile.length = i.m) :
    AccRows (fun a r => (a < 4 ∧ bit i.amask a = true) ∧ i.acc ≤ r ∧ r < i.acc + i.m) (sparseRow i tile rows) n
      (n.addTile i tile rows) := by
  refine AccRows.arrays w fun a _ _ m _ wm => ?_
  rw [zipIdx_eq_map_range tile [], List.foldl_map, hlen]
  refine .range wm hend (f := fun j x => (tile.getD j []).foldl (addEntry i rows a) (x.begin i.anchor i.clr 128)) fun j _ => ?_
  funext x
  rw [sparseRow, Nat.add_sub_cancel_left]

/-- Accumulator rows change, buffers are emptied and no array holds weights, nothing else. -/
theorem runSparse_frame {n : Nib} {i : Mma} {tile : List (List (Nat × Nat))} (rows : List (Nat × Row))
    (w : tabWf AccRow.clear n.acc = true) (hend : i.acc + i.m ≤ 64) (hlen : tile.length = i.m) : n.runSparse i tile rows = { n with
      acc := (n.runSparse i tile rows).acc, held := Vector.replicate 4 none, actBuf := [], wBuf := Vector.replicate 4 none
      scaleBuf := [] } := by
  rw [runSparse_eq, (addTile_rows rows w hend hlen).rest]
  rfl

/-- Row j of an enabled array takes in the entries of tile row j. -/
theorem accRow_runSparse {n : Nib} {i : Mma} {tile : List (List (Nat × Nat))} (rows : List (Nat × Row)) {a j : Nat}
    (w : tabWf AccRow.clear n.acc = true) (hend : i.acc + i.m ≤ 64) (hlen : tile.length = i.m) (ha : a < 4)
    (hbit : bit i.amask a = true) (hj : j < i.m) : (n.runSparse i tile rows).accRow a (i.acc + j) =
      (tile.getD j []).foldl (addEntry i rows a) ((n.accRow a (i.acc + j)).begin i.anchor i.clr 128) := by
  have hrow := (addTile_rows rows w hend hlen).written a (i.acc + j) (by omega) ⟨⟨ha, hbit⟩, by omega, by omega⟩
  rwa [sparseRow, Nat.add_sub_cancel_left] at hrow

theorem decodeTile_length (i : Mma) (h : SparseHead) (rows : List (Nat × Row)) : (decodeTile i h rows).length = i.m := by
  simp [decodeTile]

/-- The counters of a tile are register words and the nib's own counts. -/
theorem countTile_frame (nib : Nat) (i : Mma) (h : SparseHead) (compacted : Bool) (tile : List (List (Nat × Nat))) (s : State) :
    ∃ r k, countTile nib i h compacted tile s = setNib nib { getNib s nib with count := k } { s with regs := r } := ⟨_, _, rfl⟩

/-- A sparse MMA whose header, streams and records can be read adds its tile. -/
theorem sparse_issues {s : State} {nib : Fin 1024} {e : MxEntry} {rest : List MxEntry} {i : Mma} {region : Nat} {head : Row}
    {h : SparseHead} {sd gd : List Row} {tile : List (List (Nat × Nat))} (w : tabWf Nib.cold s.nibs = true) (hi : i = Mma.ofWord e.word)
    (hmx : mxHead s nib.val e rest 0x40) (hregion : regionOf (getNib s nib.val).regions i.aRow = some region)
    (hshape : i.shapeReason = 0) (hlegal : i.sparseReason = 0) (hidle : i.idle = false)
    (hcheck : i.clr = true ∨ accCheck ((getNib s nib.val).mmaRows i) i.anchor 128 = none)
    (hhead : (getNib s nib.val).readRows [i.aRow] = .ok [head]) (hh : h = sparseHead head)
    (hstream : (getNib s nib.val).readRows (streamRows i h) = .ok sd) (htile : tile = decodeTile i h ((streamRows i h).zip sd))
    (hgather : (getNib s nib.val).readRows (gatheredRows i (runsCompacted s region h.total) tile) = .ok gd) :
    Answers (.sparseMmaIssue nib []) s (modNib nib.val
      (fun n => countMma ((popMx n).runSparse i tile ((gatheredRows i (runsCompacted s region h.total) tile).zip gd)))
      (countTile nib.val i h (runsCompacted s region h.total) tile s)) := by
  obtain ⟨-, -, hop, -, -⟩ := id hmx
  have hpass : (if i.clr then none else accCheck ((getNib s nib.val).mmaRows i) i.anchor 128) = none := by
    obtain hc | hc := hcheck <;> simp [hc]
  have hsparse : isSparse (getNib s nib.val).regions e.word = true := by simp [isSparse, hop, ← hi, hregion]
  subst hh htile
  rw [Answers, exec, execSparseMmaIssue, mxRow_of_mxHead w hmx hsparse (by omega), ← hi, hregion]
  dsimp only
  rw [issueSparse]
  rw [← hi, if_neg (not_not.mpr hshape), if_neg (not_not.mpr hlegal), if_neg (by simp [hidle]), hpass, hhead]
  dsimp only
  rw [runTile]
  dsimp only
  rw [hstream]
  dsimp only
  rw [hgather]

end Sys2Proof.Machine

/-! SUPPORT. The nib family: what a tile's flags report, rows of the Inkwell that a nib writes, and READOUT. -/

namespace Sys2Proof.Machine

open Sys2Proof.Spec

/-! ## Flags of a tile (R64, R65, R134) -/

theorem ctx_running_of_nibRuns {s : State} {nib c : Nat} (h : nibRuns s nib = true) (hc : ctxOfNib s nib = some c) :
    (getCtx s c).st = .running := by
  rw [nibRuns, hc] at h
  simp only [Bool.and_eq_true, beq_iff_eq] at h
  exact h.2.1

/-- From `s` to `t` only the votes of contexts and what is reported change, and no configuration word, which stand at offset 0x40 of their
page. -/
structure Notes (s t : State) : Prop where
  frame : t = reported t { s with ctxs := t.ctxs }
  votes : ∀ c, { getCtx t c with vote := (getCtx s c).vote } = getCtx s c
  config : ∀ a, a % 0x1000 = 0x40 → getR t a = getR s a

namespace Notes
variable {s t u : State}

theorem of_regs (hf : t = reported t s) (hr : t.regs = s.regs) : Notes s t := by
  refine ⟨hf.trans (by rw [hf]; rfl), fun c => ?_, fun a _ => by rw [getR, hr, ← getR]⟩
  rw [hf]
  rfl

theorem refl (s : State) : Notes s s := of_regs rfl rfl

theorem trans (h : Notes s t) (k : Notes t u) : Notes s u := by
  refine ⟨k.frame.trans (congrArg (fun x => reported u { x with ctxs := u.ctxs }) h.frame), fun c => ?_, fun a ha =>
    (k.config a ha).trans (h.config a ha)⟩
  rw [← h.votes c, ← k.votes c]

variable (h : Notes s t)
include h

theorem getNib (m : Nat) : getNib t m = Machine.getNib s m := by
  rw [h.frame]
  rfl

theorem setR {a : Nat} (v : Nat) (ha : a % 0x1000 ≠ 0x40) : Notes s (setR a v t) :=
  h.trans ⟨rfl, fun _ => rfl, fun _ hb => getR_setR_ne t v (fun hba : _ = a => ha (hba ▸ hb))⟩

theorem takeFree : Notes s (takeFree t) := h.trans (.of_regs rfl rfl)

theorem setEvent (p : Page) (j e : Nat) : Notes s (setEvent p j e t) := by
  have hset : Notes s (Machine.setR (regAt p j 0x10) (getR t (regAt p j 0x10) ||| 2 ^ e) t) :=
    h.setR _ (by rw [regAt_mod p j (by decide)]; decide)
  unfold Machine.setEvent
  dsimp only
  split
  · refine hset.trans (.of_regs ?_ (sendEvent_regs _))
    rw [sendEvent_frame]
    rfl
  · exact hset

theorem logNow (p : Page) (j e : Nat) (n : Note) : Notes s (logNow p j e n t) := h.trans (.of_regs rfl rfl)

theorem crossOf (full : Bool) (p : Page) : Notes s (crossOf full p t) := by
  unfold Machine.crossOf
  split
  · exact h
  · unfold crossEvent
    dsimp only
    split
    · exact h.trans (.of_regs rfl rfl)
    · split
      · exact ((h.takeFree.takeFree.setR _ (by decide)).logNow ..).setEvent ..
      · exact h.takeFree.takeFree

theorem raise (p : Page) (j e : Nat) (n : Note) : Notes s (raise p j e n t) := ((h.logNow p j e n).crossOf _ _).setEvent p j e

theorem countEvent (q p : Page) (j : Nat) {off : Nat} (hi lo : Nat) (ho : off < 0x1000 ∧ off ≠ 0x40 := by decide) :
    Notes s (countEvent q (regAt p j off) hi lo t) := by
  unfold Machine.countEvent
  split
  · exact h
  · exact h.setR _ (by rw [regAt_mod p j ho.1]; exact ho.2)

theorem countNum (nib hi lo : Nat) : Notes s (countNum nib hi lo t) := by
  unfold Machine.countNum
  split
  · exact h.countEvent ..
  · exact h

theorem ctxOfNib (nib : Nat) : ctxOfNib t nib = Machine.ctxOfNib s nib := by
  rw [h.frame]
  rfl

theorem ctx_st (c : Nat) : (getCtx t c).st = (getCtx s c).st := (congrArg Ctx.st (h.votes c) :)

/-- Votes are cast in a context whose layer runs. -/
theorem voteFor {nib : Nat} (hruns : nibRuns s nib = true) (bits : Nat) : Notes s (voteFor nib bits t) := by
  unfold Machine.voteFor
  split
  · next c hc =>
    have hst : (getCtx t c).st = .running := by
      rw [h.ctx_st]
      exact ctx_running_of_nibRuns hruns ((h.ctxOfNib nib).symm.trans hc)
    refine h.trans ⟨rfl, fun d => ?_, fun _ _ => rfl⟩
    by_cases hd : d = c
    · subst hd
      rw [modCtx, getCtx_setCtx_self]
      intro hfree
      have := (hst.symm.trans (congrArg Ctx.st hfree :))
      cases this
    · rw [modCtx, getCtx_setCtx_ne _ _ hd]
  · exact h

/-- What a tile's flags report, on a nib whose layer runs. -/
theorem noteFlags {nib : Nat} (hruns : nibRuns s nib = true) (pc : Nat) (ovf nf : Bool) : Notes s (noteFlags nib pc ovf nf t) := by
  unfold Machine.noteFlags
  dsimp only
  have hovf := (((h.voteFor hruns 1).countNum nib 15 0).countEvent .numeric .numeric 0 (off := 0x44) 31 0).raise .numeric 0 0
    (nibNote t nib pc 0)
  cases ovf <;> cases nf
  · exact h
  · exact (((h.voteFor hruns 2).countNum nib 31 16).countEvent ..).raise ..
  · exact hovf
  · exact (((hovf.voteFor hruns 2).countNum nib 31 16).countEvent ..).raise ..

/-- Whether a feedback word is wanted is not among it. -/
theorem wantFeedback (nib : Nat) : wantFeedback t nib = Machine.wantFeedback s nib := by
  have hword : fbWrite t = fbWrite s := by rw [fbWrite, h.config _ (by decide), ← fbWrite]
  have hrecord : nibRecord t nib = nibRecord s nib := by
    unfold nibRecord
    rw [h.ctxOfNib]
    split
    · next c _ => exact (congrArg Ctx.record (h.votes c) :)
    · rfl
  rw [Machine.wantFeedback, hword, hrecord, ← Machine.wantFeedback]

end Notes

/-! ## Rows that a nib writes (R93, R99, R105) -/

/-- The table of rows is in canonical form. -/
def Nib.RowsWf (n : Nib) : Prop := tabWf (if n.zeroed then some (⟨0, []⟩ : RowCell) else none) n.rows = true

section
variable {n : Nib}

theorem rowsWf_writeRow (w : n.RowsWf) (r : Nat) (d : Row) : (n.writeRow r d).RowsWf := tabSet_wf n.rows r _ w

theorem readRow_writeRow_self (w : n.RowsWf) (r : Nat) (d : Row) : (n.writeRow r d).readRow r = .ok d := by
  have hrow : (n.writeRow r d).row r = some ⟨d, []⟩ := tabGet_set_wf n.rows r _ w
  rw [Nib.readRow, hrow]
  rfl

theorem readRow_writeRow_ne {r q : Nat} (d : Row) (h : q ≠ r) : (n.writeRow r d).readRow q = n.readRow q := by
  have hrow : (n.writeRow r d).row q = n.row q := tabGet_set_ne n.rows _ h
  rw [Nib.readRow, hrow, ← Nib.readRow]

/-- Rows written one after the other. -/
def Nib.writeRows (n : Nib) (ps : List (Nat × Row)) : Nib := ps.foldl (fun n p => n.writeRow p.1 p.2) n

theorem writeRows_frame (ps : List (Nat × Row)) : ∃ rows act wt scale,
    n.writeRows ps = { n with rows := rows, actBuf := act, wBuf := wt, scaleBuf := scale } := by
  induction ps generalizing n with
  | nil => exact ⟨_, _, _, _, rfl⟩
  | cons p ps ih => exact ih

theorem readRow_writeRows_other {ps : List (Nat × Row)} {q : Nat} (h : ∀ p ∈ ps, p.1 ≠ q) : (n.writeRows ps).readRow q = n.readRow q := by
  induction ps generalizing n with
  | nil => rfl
  | cons p ps ih =>
    rw [Nib.writeRows, List.foldl_cons, ← Nib.writeRows, ih (fun p' hp' => h p' (List.mem_cons_of_mem p hp')),
      readRow_writeRow_ne p.2 (Ne.symm (h p List.mem_cons_self))]

/-- Of rows that are all different each reads as written. -/
theorem readRow_writeRows {ps : List (Nat × Row)} (w : n.RowsWf) (hd : (ps.map Prod.fst).Nodup) {p : Nat × Row} (hp : p ∈ ps) :
    (n.writeRows ps).readRow p.1 = .ok p.2 := by
  induction ps generalizing n with
  | nil => cases hp
  | cons q ps ih =>
    obtain ⟨hq, hps⟩ := List.nodup_cons.mp hd
    rw [Nib.writeRows, List.foldl_cons, ← Nib.writeRows]
    obtain rfl | hp := List.mem_cons.mp hp
    · have hother : ∀ p' ∈ ps, p'.1 ≠ p.1 := fun p' hp' he => hq (he ▸ List.mem_map_of_mem hp')
      rw [readRow_writeRows_other hother, readRow_writeRow_self w]
    · exact ih (rowsWf_writeRow w q.1 q.2) hps hp

end

/-! ## Words of a row of bytes -/

theorem ofBytes_append (xs ys : List Byte) : ofBytes (xs ++ ys) = ofBytes xs + 2 ^ (8 * xs.length) * ofBytes ys := by
  induction xs with
  | nil => simp [ofBytes]
  | cons x xs ih =>
    rw [List.cons_append, ofBytes, ofBytes, ih, List.length_cons, Nat.mul_add 8, Nat.pow_add]
    ring

theorem ofBytes_word (v : Nat) : ofBytes (bytesOf 4 v) = v % 2 ^ 32 := by
  simp only [bytesOf, List.range, List.range.loop, List.map, ofBytes, BitVec.toNat_ofNat]
  omega

/-- Word q of words laid out one after the other. -/
theorem ofBytes_words {α : Type} (f : α → Nat) (d : α) {xs : List α} {q : Nat} (h : q < xs.length) :
    ofBytes (xs.flatMap (fun x => bytesOf 4 (f x))) / 2 ^ (32 * q) % 2 ^ 32 = f (xs.getD q d) % 2 ^ 32 := by
  induction xs generalizing q with
  | nil => cases h
  | cons x xs ih =>
    have hlen : (bytesOf 4 (f x)).length = 4 := rfl
    have hword : f x % 2 ^ 32 < 2 ^ 32 := Nat.mod_lt _ (by decide)
    rw [List.flatMap_cons, ofBytes_append, ofBytes_word, hlen]
    cases q with
    | zero => simp
    | succ q =>
      have hpow : (2 : Nat) ^ (32 * (q + 1)) = 2 ^ (8 * 4) * 2 ^ (32 * q) := by rw [← Nat.pow_add]; congr 1; omega
      rw [hpow, ← Nat.div_div_eq_div_mul, Nat.add_mul_div_left _ _ (by decide), Nat.div_eq_of_lt hword, Nat.zero_add]
      exact ih (by simpa using h)

/-- A field below a number's width does not see where the number ends. -/
theorem bits_mod_two_pow (x : Nat) {w hi lo : Nat} (h : hi < w) : bits (x % 2 ^ w) hi lo = bits x hi lo := by
  by_cases hlo : lo ≤ hi
  · have hsplit : 2 ^ w = 2 ^ lo * 2 ^ (w - lo) := by rw [← Nat.pow_add]; congr 1; omega
    rw [bits, bits, hsplit, Nat.mod_mul_right_div_self, Nat.mod_mod_of_dvd _ (Nat.pow_dvd_pow 2 (by omega))]
  · have hempty : hi + 1 - lo = 0 := by omega
    simp only [bits, hempty, Nat.pow_zero, Nat.mod_one]

/-- As many of them as fit in w bits are all there. -/
theorem bits_ofNat_words {α : Type} (f : α → Nat) (d : α) {xs : List α} {w q : Nat} (h : q < xs.length) (hq : 32 * q + 31 < w) :
    bits (BitVec.ofNat w (ofBytes (xs.flatMap (fun x => bytesOf 4 (f x))))).toNat (32 * q + 31) (32 * q) =
      f (xs.getD q d) % 2 ^ 32 := by
  have hwidth : 32 * q + 31 + 1 - 32 * q = 32 := by omega
  rw [BitVec.toNat_ofNat, bits_mod_two_pow _ hq, bits, hwidth, ofBytes_words f d h]

/-! ## READOUT (R54, R78, R79) -/

theorem readout_end {i : Readout} (h : i.reason = 0) : i.acc + i.n ≤ 64 := by
  unfold Readout.reason at h
  repeat' split at h
  all_goals omega

/-- Some result of the rows read overflows. -/
def readOvf (outs : List (List ReadOut)) : Bool := outs.any (fun os => os.any (fun o => o.ovf))

/-- Some result of the rows read is not finite. -/
def readNf (outs : List (List ReadOut)) : Bool := outs.any (fun os => os.any (fun o => o.nf))

/-- The finished tile of the rows read. -/
def readTile (i : Readout) (outs : List (List ReadOut)) : Tile :=
  ⟨i.array, outs.map (fun os => BitVec.ofNat 512 (ofBytes (os.flatMap (fun o => bytesOf 4 o.bits)))), readOvf outs, readNf outs⟩

/-- The rows read keep their sticky flag, or are cleared. -/
def Nib.readBack (n : Nib) (i : Readout) (rows : List AccRow) : Nib :=
  ((List.range i.n).zip rows).foldl (fun n p => n.setAcc i.array (i.acc + p.1) (if i.clr then AccRow.clear else p.2)) n

/-- What is read goes to Inkwell rows, or to the finished-tile queue. -/
def Nib.deliver (n : Nib) (i : Readout) (outs : List (List ReadOut)) : Nib :=
  if i.dest then (n.writeRows (i.rows.zip (packReadout i outs))).flag (readOvf outs) (readNf outs)
  else { n with ftq := n.ftq ++ [readTile i outs] }

theorem readBack_rows {n : Nib} {i : Readout} (row : Nat → AccRow) (w : tabWf AccRow.clear n.acc = true) (hend : i.acc + i.n ≤ 64) :
    AccRows (fun a r => a = i.array ∧ i.acc ≤ r ∧ r < i.acc + i.n) (fun _ r _ => if i.clr then AccRow.clear else row (r - i.acc)) n
      (n.readBack i ((List.range i.n).map row)) := by
  have hzip : (List.range i.n).zip ((List.range i.n).map row) = (List.range i.n).map (fun j => (j, row j)) := by
    simpa using List.zip_map' (f := id) (g := row) (l := List.range i.n)
  rw [Nib.readBack, hzip, List.foldl_map]
  exact .range w hend (f := fun j _ => if i.clr then AccRow.clear else row j) fun j _ => by rw [Nat.add_sub_cancel_left]

/-- What row j of a readout without stochastic rounding gives: its results, and the row with its sticky flag. -/
def readAt (s : State) (nib : Nat) (i : Readout) (j : Nat) : List ReadOut × AccRow :=
  readAccRow i (fp8Sat s) false (spatterKey s nib) j ((getNib s nib).accRow i.array (i.acc + j))

/-- Each row gives 16 results. -/
theorem readAt_length (s : State) (nib : Nat) (i : Readout) (j : Nat) : (readAt s nib i j).1.length = 16 := by
  unfold readAt readAccRow
  split <;> simp

/-- All its rows, in order. -/
def readsOf (s : State) (nib : Nat) (i : Readout) : List (List ReadOut × AccRow) := (List.range i.n).map (readAt s nib i)

/-- A nib after a READOUT that gave this. -/
def Nib.readOut (n : Nib) (i : Readout) (reads : List (List ReadOut × AccRow)) : Nib :=
  (n.readBack i (reads.map (fun p => p.2))).deliver i (reads.map (fun p => p.1))

/-- The flags and the feedback word that follow once the nib is written. -/
def afterRead (nib : Nat) (e : MxEntry) (i : Readout) (reads : List (List ReadOut × AccRow)) (s : State) : State :=
  let outs := reads.map (fun p => p.1)
  let t := noteFlags nib e.pc (readOvf outs) (readNf outs) s
  if wantFeedback t nib then writeFeedback nib e.pc e.fb i.fbIdx (feedbackWord (reads.map (fun p => p.2)) (readOvf outs) (readNf outs)) t
  else t

theorem runReadout_unrounded {s : State} {nib : Nat} (e : MxEntry) {i : Readout} (hsr : i.sr = false) : runReadout nib e i s =
    afterRead nib e i (readsOf s nib i) (setNib nib ((popMx (getNib s nib)).readOut i (readsOf s nib i)) s) := by
  have hwant : wantSr nib e.pc (i.sr && i.tfmt != 6) s = (false, s) := by simp [wantSr, hsr]
  rw [runReadout, hwant]
  rfl

/-- Delivering touches rows with the feeder's copies of them, the finished-tile queue and TILE_FLAGS. -/
theorem deliver_frame (n : Nib) (i : Readout) (outs : List (List ReadOut)) : n.deliver i outs =
    { n with
        rows := (n.deliver i outs).rows, actBuf := (n.deliver i outs).actBuf, wBuf := (n.deliver i outs).wBuf
        scaleBuf := (n.deliver i outs).scaleBuf, ftq := (n.deliver i outs).ftq, tileOvf := (n.deliver i outs).tileOvf
        tileNf := (n.deliver i outs).tileNf } := by
  unfold Nib.deliver
  split
  · obtain ⟨rows, act, wt, scale, h⟩ := writeRows_frame (n := n) (i.rows.zip (packReadout i outs))
    rw [h]
    rfl
  · rfl

theorem deliver_tile (n : Nib) {i : Readout} (outs : List (List ReadOut)) (h : i.dest = false) :
    n.deliver i outs = { n with ftq := n.ftq ++ [readTile i outs] } := if_neg (by simp [h])

theorem deliver_rows (n : Nib) {i : Readout} (outs : List (List ReadOut)) (h : i.dest = true) :
    n.deliver i outs = (n.writeRows (i.rows.zip (packReadout i outs))).flag (readOvf outs) (readNf outs) := if_pos h

theorem ftq_deliver_rows (n : Nib) {i : Readout} (outs : List (List ReadOut)) (h : i.dest = true) : (n.deliver i outs).ftq = n.ftq := by
  obtain ⟨rows, act, wt, scale, hrows⟩ := writeRows_frame (n := n) (i.rows.zip (packReadout i outs))
  rw [deliver_rows n outs h, hrows]
  rfl

/-- Destination row k. -/
theorem readout_rows_get {i : Readout} {k : Nat} (h : i.dest = true) (hk : k < i.rows.length) : i.rows[k] = i.dRow + k := by
  simp only [Readout.rows, h, if_true, List.getElem_map, List.getElem_range]

theorem packReadout_length {i : Readout} {outs : List (List ReadOut)} (h : i.dest = true) (hn : outs.length = i.n) :
    i.rows.length = (packReadout i outs).length := by
  simp [Readout.rows, packReadout, h, hn]

theorem readout_rows_nodup (i : Readout) : i.rows.Nodup := by
  unfold Readout.rows
  split
  · exact List.nodup_range.map fun a b hab => by simpa using hab
  · exact List.nodup_nil

/-- A destination row holds its part of the packed results. -/
theorem readRow_deliver {n : Nib} {i : Readout} {outs : List (List ReadOut)} {k : Nat} {d : Row} (w : n.RowsWf) (h : i.dest = true)
    (hn : outs.length = i.n) (hk : k < i.rows.length) (hd : (packReadout i outs)[k]? = some d) : (n.deliver i outs).readRow (i.dRow + k) = .ok d := by
  have hmem : (i.dRow + k, d) ∈ i.rows.zip (packReadout i outs) := by
    refine List.mem_of_getElem? (i := k) ?_
    rw [List.getElem?_zip_eq_some]
    exact ⟨by rw [List.getElem?_eq_getElem hk, readout_rows_get h hk], hd⟩
  have hdistinct : ((i.rows.zip (packReadout i outs)).map Prod.fst).Nodup := by
    rw [List.map_fst_zip (packReadout_length h hn).le]
    exact readout_rows_nodup i
  rw [deliver_rows n outs h]
  exact readRow_writeRows w hdistinct hmem

/-- Word q of row j of the finished tile. -/
theorem bits_readTile {i : Readout} {outs : List (List ReadOut)} {j q : Nat} (d : ReadOut) (hj : j < outs.length)
    (hlen : (outs[j]).length = 16) (hq : q < 16) : bits ((readTile i outs).rows.getD j 0).toNat (32 * q + 31) (32 * q) =
      ((outs[j]).getD q d).bits % 2 ^ 32 := by
  have hrow : (readTile i outs).rows.getD j 0 = BitVec.ofNat 512 (ofBytes ((outs[j]).flatMap (fun o => bytesOf 4 o.bits))) := by
    simp [readTile, hj]
  rw [hrow]
  exact bits_ofNat_words ReadOut.bits d (hlen ▸ hq) (by omega)

/-! ## The nib after a READOUT -/

section
variable {n : Nib} {i : Readout} (read : Nat → List ReadOut × AccRow) (w : tabWf AccRow.clear n.acc = true) (hend : i.acc + i.n ≤ 64)

/-- The results of the rows read, row by row. -/
theorem readOut_eq : n.readOut i ((List.range i.n).map read) =
    (n.readBack i ((List.range i.n).map (fun j => (read j).2))).deliver i ((List.range i.n).map (fun j => (read j).1)) := by
  rw [Nib.readOut, List.map_map, List.map_map]
  rfl

include w hend

theorem readOut_frame : n.readOut i ((List.range i.n).map read) = { n with
    acc := (n.readOut i ((List.range i.n).map read)).acc, rows := (n.readOut i ((List.range i.n).map read)).rows
    actBuf := (n.readOut i ((List.range i.n).map read)).actBuf, wBuf := (n.readOut i ((List.range i.n).map read)).wBuf
    scaleBuf := (n.readOut i ((List.range i.n).map read)).scaleBuf, ftq := (n.readOut i ((List.range i.n).map read)).ftq
    tileOvf := (n.readOut i ((List.range i.n).map read)).tileOvf, tileNf := (n.readOut i ((List.range i.n).map read)).tileNf } := by
  rw [readOut_eq, deliver_frame, (readBack_rows _ w hend).rest]

/-- With CLR the rows read are clear. -/
theorem accRow_readOut_clear {j : Nat} (hclr : i.clr = true) (hj : j < i.n) :
    (n.readOut i ((List.range i.n).map read)).accRow i.array (i.acc + j) = AccRow.clear := by
  have hrow := (readBack_rows (fun j => (read j).2) w hend).written i.array (i.acc + j) (by omega) ⟨rfl, by omega, by omega⟩
  rw [if_pos hclr] at hrow
  rw [readOut_eq, deliver_frame]
  exact hrow

/-- To the finished-tile queue. -/
theorem readOut_tile (hdest : i.dest = false) : (n.readOut i ((List.range i.n).map read)).rows = n.rows ∧
    (n.readOut i ((List.range i.n).map read)).ftq = n.ftq ++ [readTile i ((List.range i.n).map (fun j => (read j).1))] := by
  rw [readOut_eq, deliver_tile _ _ hdest, (readBack_rows _ w hend).rest]
  exact ⟨rfl, rfl⟩

/-- To Inkwell rows. -/
theorem readOut_ftq (hdest : i.dest = true) : (n.readOut i ((List.range i.n).map read)).ftq = n.ftq := by
  rw [readOut_eq, ftq_deliver_rows _ _ hdest, (readBack_rows _ w hend).rest]

theorem readRow_readOut {k : Nat} {d : Row} (hdest : i.dest = true) (wr : n.RowsWf) (hk : k < i.rows.length)
    (hd : (packReadout i ((List.range i.n).map (fun j => (read j).1)))[k]? = some d) :
    (n.readOut i ((List.range i.n).map read)).readRow (i.dRow + k) = .ok d := by
  rw [readOut_eq]
  refine readRow_deliver ?_ hdest (by simp) hk hd
  rw [(readBack_rows _ w hend).rest]
  exact wr

end

/-- After a readout whose layer wants no feedback word only the flags are reported. -/
theorem afterRead_notes {s : State} {nib : Nat} (e : MxEntry) (i : Readout) (reads : List (List ReadOut × AccRow)) (hruns : nibRuns s nib = true)
    (hfb : wantFeedback s nib = false) : Notes s (afterRead nib e i reads s) := by
  have hnotes := (Notes.refl s).noteFlags hruns e.pc (readOvf (reads.map (fun p => p.1))) (readNf (reads.map (fun p => p.1)))
  rw [afterRead, hnotes.wantFeedback, hfb]
  exact hnotes

section
variable {s t : State} {nib : Fin 1024} {e : MxEntry} {rest : List MxEntry} (w : tabWf Nib.cold s.nibs = true)
include w

/-- Where a nib is written and then only votes and reports follow, nothing else differs. -/
theorem onlyNib_of_notes {n : Nib} (h : Notes (setNib nib.val n s) t) : onlyNib s t nib.val n := by
  have hnibs : t.nibs = (setNib nib.val n s).nibs := by
    rw [h.frame]
    rfl
  refine ⟨h.frame.trans (by rw [hnibs]; rfl), fun m hm => ?_, h.votes, ?_⟩
  · rw [h.getNib, getNib_setNib_ne s n hm]
  · rw [h.getNib, getNib_setNib w]

/-- A READOUT without stochastic rounding and without a feedback word writes its nib; its flags are reported. -/
theorem readout_issues {i : Readout} (hi : i = Readout.ofWord e.word) (h : mxHead s nib.val e rest 0x48) (hlegal : i.reason = 0)
    (hn : i.n ≠ 0) (hsr : i.sr = false) (hfb : wantFeedback s nib.val = false) : ∃ t, Answers (.readoutIssue nib) s t ∧
      onlyNib s t nib.val ((popMx (getNib s nib.val)).readOut i (readsOf s nib.val i)) := by
  obtain ⟨hruns, -, hop, -, -⟩ := id h
  refine ⟨_, ?_, onlyNib_of_notes w (afterRead_notes e i (readsOf s nib.val i) hruns hfb)⟩
  rw [Answers, exec, execReadoutIssue, mxRow_of_mxHead w h (by simp [hop]) (by omega)]
  dsimp only
  rw [← hi, if_neg (not_not.mpr hlegal), if_neg hn, runReadout_unrounded e hsr]

/-- A sparse MMA that executes writes its nib, which has left the queue's head and counted, and the words of its counters. -/
theorem onlyNib_sparse (h : mxHead s nib.val e rest 0x40) (i : Mma) (hd : SparseHead) (compacted : Bool) (tile : List (List (Nat × Nat)))
    (rows : List (Nat × Row)) : ∃ m : Nib, m = { getNib s nib.val with mq := rest, count := m.count } ∧ onlyNib s
      (modNib nib.val (fun n => countMma ((popMx n).runSparse i tile rows)) (countTile nib.val i hd compacted tile s)) nib.val
      (countMma (m.runSparse i tile rows)) := by
  obtain ⟨r, k, hcount⟩ := countTile_frame nib.val i hd compacted tile s
  have wr : tabWf Nib.cold ({ s with regs := r } : State).nibs = true := w
  rw [hcount, modNib, getNib_setNib wr]
  refine ⟨popMx { getNib s nib.val with count := k }, (congrArg (fun n : Nib => { n with count := k }) (popMx_of_mxHead h) :), rfl,
    fun m hm => ?_, fun _ => rfl, getNib_setNib (setNib_wf wr _ _) _ _⟩
  rw [getNib_setNib_ne _ _ hm, getNib_setNib_ne _ _ hm]
  rfl

end

theorem onlyNib_congr {s t : State} {nib : Nat} {n n' : Nib} (h : onlyNib s t nib n) (hn : n = n') : onlyNib s t nib n' := hn ▸ h

/-- Settles O51: each command of the matrix queue's head is what its lemma says, and a loop over accumulator rows writes each row once. -/
theorem matrixIssue : Obligations.MatrixIssue := by
  unfold Obligations.MatrixIssue
  intro s nib n e rest hn hok
  obtain ⟨w, wa⟩ := hok
  subst hn
  refine ⟨accClr_ofWord _, fun i hi h hlegal => ?clear, fun i ds hi h hdense halone hlegal hidle hcheck hread => ?mma,
    fun i err hi h hdense halone hlegal hidle hclr hcheck => ?refused, fun h hdense hopens => ?opens, fun hruns hopen => ?group, ?sparse, ?readout⟩
  case clear =>
    have hrows := clearRows_rows (n := popMx (getNib s nib.val)) wa hlegal
    refine ⟨_, accclr_clears w hi h hlegal, rfl, ?_, fun m hm => getNib_setNib_ne s _ hm, fun a r ha hr => ?_⟩
    · rw [getNib_setNib w, hrows.rest, popMx_of_mxHead h]
    · rw [getNib_setNib w]
      split
      · next hin => exact hrows.written a r hr ⟨⟨ha, hin.1⟩, hin.2⟩
      · next hout => exact hrows.kept a r hr fun hin => hout ⟨hin.1.2, hin.2⟩
  case mma =>
    have hend := shapeReason_end (shapeReason_of_reason hlegal)
    have wpop : tabWf AccRow.clear (popMx (getNib s nib.val)).acc = true := wa
    refine ⟨_, mma_issues w h hdense hi halone hlegal hidle hcheck hread, rfl, fun m hm => getNib_setNib_ne s _ hm, ?_, fun a r _ hr hout => ?_,
      fun a x ha hbit hx => ?_⟩
    · rw [getNib_setNib w, runMma_frame _ wpop hend, popMx_of_mxHead h]
      rfl
    · rw [getNib_setNib w]
      exact accRow_runMma_other _ wpop hend hr hout
    · have hheld := (loaded_held (popMx (getNib s nib.val)) _ ha hbit).trans hx
      rw [getNib_setNib w]
      refine ⟨?_, fun j b hj hb => runMma_adds _ wpop hend ha hbit hheld hj hb⟩
      rw [runMma_frame _ wpop hend]
      exact hheld
  case refused => exact ⟨_, mma_refused w h hdense hi halone hlegal hidle hclr hcheck, eventSet_accFault ..⟩
  case opens =>
    have hopen := mmaIssue_of_mxHead w h hdense
    rw [hopens, if_pos rfl] at hopen
    refine ⟨_, hopen, rfl, getNib_setNib w .., ?_⟩
    rw [modNib, getNib_setNib w]
    exact (growGroup_grows { getNib s nib.val with gather := 1 } 16).2
  case group =>
    obtain ⟨hframe, hmore⟩ := growGroup_grows (getNib s nib.val) 16
    refine ⟨fun ups => ⟨_, mmaIssue_joins hruns hopen ups, rfl, getNib_setNib w .., ?_⟩, fun late hdue =>
      ⟨_, gatherPass_issues hruns hopen w hdue, rfl, ?_⟩⟩
    · rw [getNib_setNib w]
      exact hmore
    · rw [modNib, getNib_setNib (setNib_wf w _ _), getNib_setNib w, hframe]
      exact ⟨rfl, rfl, rfl⟩
  case sparse =>
    intro i region head hd sd gd tile hi h hregion hshape hlegal hidle hcheck hhead hhd hstream htile hgather
    have hissue := sparse_issues w hi h hregion hshape hlegal hidle hcheck hhead hhd hstream htile hgather
    obtain ⟨m, hm, honly⟩ := onlyNib_sparse w h i hd (runsCompacted s region hd.total) tile
      ((gatheredRows i (runsCompacted s region hd.total) tile).zip gd)
    obtain ⟨-, -, -, hnib⟩ := id honly
    have hend := shapeReason_end hshape
    have hlen : tile.length = i.m := htile ▸ decodeTile_length ..
    have wm : tabWf AccRow.clear m.acc = true := hm ▸ wa
    have hacc (a r : Nat) : m.accRow a r = (getNib s nib.val).accRow a r := by rw [hm]; rfl
    refine ⟨_, hissue, onlyNib_congr honly ?_, fun a ha => ?_, fun a j ha hbit hj => ?_⟩
    · rw [hnib, runSparse_frame _ wm hend hlen, hm]
      rfl
    · rw [hnib, runSparse_frame _ wm hend hlen]
      exact vget_replicate none none ha
    · rw [hnib, ← hacc]
      exact accRow_runSparse _ wm hend hlen ha hbit hj
  case readout =>
    intro i outs hi h hlegal hn hsr hfb houts
    obtain ⟨t, hanswer, honly⟩ := readout_issues w hi h hlegal hn hsr hfb
    obtain ⟨-, -, -, hnib⟩ := id honly
    have hend := readout_end hlegal
    have wpop : tabWf AccRow.clear (popMx (getNib s nib.val)).acc = true := wa
    obtain rfl : outs = fun j => (readAt s nib.val i j).1 := funext houts
    refine ⟨t, hanswer, onlyNib_congr honly ?_, fun hclr j hj => ?_, fun hdest => ?_, fun hdest => ⟨?_, fun wr k d hk hd => ?_⟩⟩
    · rw [hnib, readsOf, readOut_frame _ wpop hend, popMx_of_mxHead h]
    · rw [hnib]
      exact accRow_readOut_clear _ wpop hend hclr hj
    · obtain ⟨hrows, hftq⟩ := readOut_tile (readAt s nib.val i) wpop hend hdest
      rw [hnib]
      refine ⟨hrows, _, hftq, rfl, by simp [readTile], fun j q hj hq => ?_⟩
      have hj' : j < ((List.range i.n).map (fun j => (readAt s nib.val i j).1)).length := by simpa using hj
      have hword := bits_readTile (i := i) ⟨0, false, false, false⟩ hj' (by simpa using readAt_length ..) hq
      simpa using hword
    · rw [hnib]
      exact readOut_ftq _ wpop hend hdest
    · rw [hnib]
      exact readRow_readOut _ wpop hend hdest wr hk hd

end Sys2Proof.Machine

/-! SUPPORT. The Inkwell's data movement: rows that land, descriptors that complete, rows between nibs, and the watchdog. -/

namespace Sys2Proof.Machine

open Sys2Proof.Spec (Answers eventSet reported onNib)

/-! ## Transfers and what counts them -/

section
variable {s : State} {nib seq row : Nat} {x : Xfer}

theorem key_of_findXfer (h : findXfer s nib seq row = some x) : x.nib = nib ∧ x.seq = seq ∧ x.row = row := by
  simpa [and_assoc] using List.find?_some h

/-- A transfer that is taken out is no longer found. -/
theorem findXfer_dropXfer (h : findXfer s nib seq row = some x) : findXfer (dropXfer x s) nib seq row = none := by
  obtain ⟨rfl, rfl, rfl⟩ := key_of_findXfer h
  refine findXfer_none fun y hy ⟨hn, hs, hr⟩ => ?_
  have hother : sameXfer x y = false := by simpa using (List.mem_filter.mp hy).2
  simp [sameXfer, hn, hs, hr] at hother

end

/-- Bytes moved count in register words and accounts of contexts alone. -/
theorem moveBytes_frame (c off n : Nat) (s : State) : ∃ r k, moveBytes c off n s = { s with regs := r, ctxs := k } := by
  unfold moveBytes
  dsimp only
  split
  · split
    · exact ⟨_, _, rfl⟩
    · exact ⟨_, _, rfl⟩
  · exact ⟨_, _, rfl⟩

theorem countRemote_frame (nib : Nat) (s : State) : ∃ r k, countRemote nib s = { s with regs := r, ctxs := k } := by
  unfold countRemote
  split
  · exact moveBytes_frame ..
  · exact ⟨_, _, rfl⟩

section
variable (nib : Nat) (s : State)

@[simp] theorem countRemote_nibs : (countRemote nib s).nibs = s.nibs := by obtain ⟨r, k, h⟩ := countRemote_frame nib s; rw [h]
@[simp] theorem countRemote_canopy : (countRemote nib s).canopy = s.canopy := by obtain ⟨r, k, h⟩ := countRemote_frame nib s; rw [h]
@[simp] theorem countRemote_hbm : (countRemote nib s).hbm = s.hbm := by obtain ⟨r, k, h⟩ := countRemote_frame nib s; rw [h]

end

/-! ## A row lands (R105, R114) -/

theorem row_writeRow_ne {n : Nib} {r q : Nat} (data : Row) (h : q ≠ r) : (n.writeRow r data).row q = n.row q := tabGet_set_ne n.rows _ h

/-- Of two descriptors written at one place in program order the second stays. -/
theorem setDesc_setDesc (n : Nib) {d e : Desc} (h : e.seq = d.seq) : (n.setDesc d).setDesc e = n.setDesc e := by
  unfold Nib.setDesc
  simp only [List.map_map]
  congr 2
  funext x
  by_cases hx : x.seq = d.seq <;> simp [hx, h]

/-- The descriptor once its row i has come to the engine. -/
def Desc.hold (d : Desc) (i : Nat) (data : Row) : Desc := { d with held := tabInsert d.held i data }

/-- And once that row has been written. -/
def Desc.land (d : Desc) (i : Nat) (data : Row) : Desc :=
  { d with landed := d.landed ++ [i], held := tabErase (d.hold i data).held i }

theorem block_untransposed {d : Desc} (h : d.transpose = false) (i : Nat) : d.block i = [i] := by simp [Desc.block, h]

theorem holdRow_of_desc? {n : Nib} {d : Desc} (hd : n.desc? d.seq = some d) (i : Nat) (data : Row) :
    holdRow d.seq i data n = n.setDesc (d.hold i data) := by simp only [holdRow, hd, Desc.hold]

/-- The nib once row i of its descriptor has been written. -/
def Nib.land (n : Nib) (d : Desc) (i : Nat) (data : Row) : Nib :=
  { (n.writeRow (d.lrow + i) data).setDesc (d.land i data) with count := { n.count with dmaIn := n.count.dmaIn + 1 } }

section
variable {n : Nib} {d : Desc} {i : Nat} {data : Row} (hd : n.desc? d.seq = some d)
include hd

/-- A row that is no part of a transpose block is written as it comes. -/
theorem landBlock_holdRow (ht : d.transpose = false) : landBlock d.seq i (holdRow d.seq i data n) = n.land d i data := by
  have hheld : (n.setDesc (d.hold i data)).desc? d.seq = some (d.hold i data) := desc?_setDesc hd rfl
  have hblock : (d.hold i data).block i = [i] := block_untransposed ht i
  have htranspose : (d.hold i data).transpose = false := ht
  have hfind : tabFind? (d.hold i data).held i = some data := tabFind_insert_self ..
  have hwrite := setDesc_setDesc (n.writeRow (d.lrow + i) data) (d := d.hold i data) (e := d.land i data) rfl
  rw [holdRow_of_desc? hd, landBlock, hheld]
  dsimp only
  rw [hblock, htranspose, List.filterMap_cons, hfind, Nib.land, ← hwrite]
  rfl

theorem desc?_land : (n.land d i data).desc? d.seq = some (d.land i data) := desc?_setDesc (n := n.writeRow (d.lrow + i) data) hd rfl

end

/-- The landed row's transfer leaves. -/
theorem dropLanded_row {s : State} {nib row : Nat} {d e : Desc} {x : Xfer} (ht : d.transpose = false)
    (he : (getNib s nib).desc? d.seq = some e) (hrow : row ∈ e.landed) (hx : findXfer s nib d.seq row = some x) :
    dropLanded nib d row s = dropXfer x s := by
  unfold dropLanded
  rw [he]
  simp [hrow, Desc.block, ht, forEach, hx]

theorem dmaRowLand_lands {s : State} {nib : Fin 1024} {d : Desc} {row : Nat} {x : Xfer} (hmoves : nibMoves s nib.val = true)
    (hd : (getNib s nib.val).desc? d.seq = some d) (ht : d.transpose = false) (hmay : (getNib s nib.val).mayLand d row = true)
    (hx : findXfer s nib.val d.seq row = some x) (hst : x.st = .arrived) (hk : x.kind ≠ .push) :
    Answers (.dmaRowLand nib d.seq row) s (dropXfer x (setNib nib.val ((getNib s nib.val).land d row x.data) s)) := by
  have hland : (getNib (setNib nib.val ((getNib s nib.val).land d row x.data) s) nib.val).desc? d.seq = some (d.land row x.data) := by
    rw [getNib_setNib_of_desc? _ _ (desc?_land hd), desc?_land hd]
  change execDmaRowLand nib d.seq row s = _
  unfold execDmaRowLand
  dsimp only
  rw [hmoves, hd]
  dsimp only
  rw [hmay, hx, if_neg (by simp)]
  dsimp only
  rw [if_pos ⟨hst, hk⟩, modNib, landBlock_holdRow hd ht, dropLanded_row ht hland (by simp [Desc.land]) hx]

/-! ## A descriptor completes (R115) -/

/-- A nib without its completed descriptor d, whose tag has done one more. -/
def Nib.complete (n : Nib) (d : Desc) : Nib :=
  { n with descs := n.descs.filter (fun e => e.seq != d.seq), tags := tabSet (0, 0) n.tags d.tag ((tagOf n d.tag).1, d.ord) }

/-- Done stays where the descriptors are still under way. -/
theorem advanceTag_underWay {n : Nib} (t fuel : Nat) (h : ∀ e ∈ n.descs, e.done = false) : advanceTag t fuel n = n := by
  cases fuel with
  | zero => rfl
  | succ k =>
    rw [advanceTag]
    cases hf : n.descs.find? (fun d => d.tag == t) with
    | none => rfl
    | some e => simp [h e (List.mem_of_find?_eq_some hf)]

/-- Past the one descriptor that is done Done advances, and no further. -/
theorem advanceTag_first {n : Nib} {d : Desc} {fuel : Nat} (hfuel : fuel ≠ 0) (hfirst : n.descs.find? (fun e => e.tag == d.tag) = some d)
    (hdone : d.done = true) (hothers : ∀ e ∈ n.descs, e.seq ≠ d.seq → e.done = false) : advanceTag d.tag fuel n = n.complete d := by
  obtain ⟨k, rfl⟩ := Nat.exists_eq_succ_of_ne_zero hfuel
  rw [advanceTag, hfirst]
  simp only [hdone, if_true]
  refine advanceTag_underWay (n := n.complete d) d.tag k fun e he => ?_
  obtain ⟨hmem, hseq⟩ := List.mem_filter.mp he
  exact hothers e hmem (by simpa using hseq)

/-- What two searches both find first is what a search for either finds. -/
theorem find?_or {α : Type} {p q : α → Bool} {l : List α} {x : α} (hp : l.find? p = some x) (hq : l.find? q = some x) :
    l.find? (fun y => p y || q y) = some x := by
  induction l with
  | nil => cases hp
  | cons y l ih =>
    rw [List.find?_cons] at hp hq ⊢
    cases hpy : p y with
    | true => simpa [hpy] using hp
    | false =>
      cases hqy : q y with
      | true => simpa [hpy, hqy] using hq
      | false => simpa [hpy, hqy] using ih (by simpa [hpy] using hp) (by simpa [hqy] using hq)

/-- The first descriptor of its tag, written over, is still that. -/
theorem find?_tag_setDesc {n : Nib} {d e : Desc} (hd : n.desc? d.seq = some d) (hfirst : n.descs.find? (fun y => y.tag == d.tag) = some d)
    (hs : e.seq = d.seq) (ht : e.tag = d.tag) : (n.setDesc e).descs.find? (fun y => y.tag == d.tag) = some e := by
  have hkey : ((fun y : Desc => y.tag == d.tag) ∘ fun y => if y.seq = e.seq then e else y) =
      fun y => y.seq == d.seq || y.tag == d.tag := by
    funext y
    by_cases hy : y.seq = d.seq <;> simp [hy, hs, ht]
  rw [Nib.setDesc, List.find?_map, hkey, find?_or hd hfirst, Option.map_some, if_pos hs.symm]

/-- A descriptor that has completed. -/
def Desc.complete (d : Desc) : Desc := { d with done := true }

section
variable {n : Nib} {d : Desc}

theorem advanceTag_setDesc (hd : n.desc? d.seq = some d) (hfirst : n.descs.find? (fun e => e.tag == d.tag) = some d)
    (hothers : ∀ e ∈ n.descs, e.seq ≠ d.seq → e.done = false) :
    advanceTag d.tag n.descs.length (n.setDesc d.complete) = (n.setDesc d.complete).complete d.complete := by
  have hfuel : n.descs.length ≠ 0 := List.length_eq_zero_iff.not.mpr (List.ne_nil_of_mem (List.mem_of_find?_eq_some hd))
  have hfound : (n.setDesc d.complete).descs.find? (fun e => e.tag == d.tag) = some d.complete := find?_tag_setDesc hd hfirst rfl rfl
  refine advanceTag_first (d := d.complete) hfuel hfound rfl fun e he hne => ?_
  obtain ⟨y, hy, rfl⟩ := List.mem_map.mp he
  split at hne
  · exact absurd rfl hne
  · next hys =>
    rw [if_neg hys]
    exact hothers y hy hys

theorem desc?_complete (n : Nib) (d : Desc) : (n.complete d).desc? d.seq = none := by
  refine List.find?_eq_none.mpr fun e he => ?_
  have := (List.mem_filter.mp he).2
  simpa using this

theorem tagOf_complete (w : tabWf ((0, 0) : Nat × Nat) n.tags = true) : tagOf (n.complete d) d.tag = ((tagOf n d.tag).1, d.ord) :=
  tabGet_set_wf n.tags d.tag _ w

end

theorem descriptorComplete_completes {s : State} {nib : Fin 1024} {d : Desc} (hmoves : nibMoves s nib.val = true)
    (hd : (getNib s nib.val).desc? d.seq = some d) (hready : descReady d = true)
    (hfirst : (getNib s nib.val).descs.find? (fun e => e.tag == d.tag) = some d)
    (hothers : ∀ e ∈ (getNib s nib.val).descs, e.seq ≠ d.seq → e.done = false) :
    Answers (.descriptorComplete nib d.seq) s
      (setNib nib.val (((getNib s nib.val).setDesc d.complete).complete d.complete) s) := by
  change execDescriptorComplete nib d.seq s = _
  unfold execDescriptorComplete
  dsimp only
  rw [hmoves, hd]
  dsimp only
  rw [if_pos hready, ← advanceTag_setDesc hd hfirst hothers]
  rfl

/-! ## A pushed row arrives (R120) -/

/-- The remote nib once a pushed row has been written. -/
def Nib.pushed (n : Nib) (x : Xfer) : Nib := { n.writeRow x.addr x.data with count := { n.count with dmaIn := n.count.dmaIn + 1 } }

/-- It has counted the row, so it is not the cold one and reads as written. -/
theorem getNib_setNib_pushed (nib : Nat) (n : Nib) (x : Xfer) (s : State) : getNib (setNib nib (n.pushed x) s) nib = n.pushed x := by
  refine getNib_setNib_self s nib fun h => ?_
  cases congrArg (fun m : Nib => m.count.dmaIn) h

theorem desc?_markLanded {n : Nib} {d : Desc} (i : Nat) (hd : n.desc? d.seq = some d) :
    (markLanded d.seq i n).desc? d.seq = some { d with landed := d.landed ++ [i] } := by
  simp only [markLanded, hd]
  exact desc?_setDesc hd rfl

section
variable {s : State} {x : Xfer}

/-- The row is written at the other nib. -/
theorem getNib_writeRemote_place (h : x.place ≠ x.nib) : getNib (writeRemote x s) x.place = (getNib s x.place).pushed x := by
  unfold writeRemote
  rw [getNib, countRemote_nibs, ← getNib, modNib, getNib_setNib_ne _ _ h]
  exact getNib_setNib_pushed ..

/-- And has landed at its source. -/
theorem desc?_writeRemote {d : Desc} (h : x.place ≠ x.nib) (hs : x.seq = d.seq) (hd : (getNib s x.nib).desc? d.seq = some d) :
    (getNib (writeRemote x s) x.nib).desc? d.seq = some { d with landed := d.landed ++ [x.row] } := by
  unfold writeRemote
  rw [getNib, countRemote_nibs, ← getNib, modNib, modNib, getNib_setNib_ne _ _ (Ne.symm h), hs]
  have hmark := desc?_markLanded x.row hd
  rw [getNib_setNib_of_desc? _ _ hmark, hmark]

theorem writeRemote_canopy : (writeRemote x s).canopy = s.canopy := by simp [writeRemote]
theorem writeRemote_hbm : (writeRemote x s).hbm = s.hbm := by simp [writeRemote]

end

theorem remotePushArrive_writes {s : State} {nib : Fin 1024} {d : Desc} {row : Nat} {x : Xfer} (hmoves : nibMoves s nib.val = true)
    (hd : (getNib s nib.val).desc? d.seq = some d) (hsig : d.signal = false) (hx : findXfer s nib.val d.seq row = some x)
    (hk : x.kind = .push) (hst : x.st = .arrived) (hplace : x.place ≠ nib.val) :
    Answers (.remotePushArrive nib d.seq row) s (writeRemote x (dropXfer x s)) := by
  obtain ⟨hn, hs, -⟩ := key_of_findXfer hx
  rw [← hn] at hd hplace
  have hmarked := desc?_writeRemote (s := dropXfer x s) hplace hs hd
  rw [hn] at hmarked
  change execRemotePushArrive nib d.seq row s = _
  unfold execRemotePushArrive
  rw [hmoves, hx]
  dsimp only
  rw [if_pos ⟨hk, hst⟩, deliverSignal_none hmarked hsig]

/-! ## A pull is served (R120) -/

/-- The state once a nib has read a row for a pull, before its flits leave. -/
def servedPull (y : Xfer) (s : State) : State := setXfer y (countRemote y.nib (modNib y.place countOut s))

/-- A nib's descriptors stay while a row is read for a pull, its own or another's. -/
theorem desc?_servedPull {s : State} {nib q : Nat} {e : Desc} (y : Xfer) (h : (getNib s nib).desc? q = some e) :
    (getNib (servedPull y s) nib).desc? q = some e := by
  have hnibs : (servedPull y s).nibs = (modNib y.place countOut s).nibs := countRemote_nibs ..
  rw [getNib, hnibs, ← getNib]
  by_cases hp : nib = y.place
  · rw [← hp]
    exact desc?_countOut h
  · rw [modNib, getNib_setNib_ne _ _ hp, h]

theorem pullServe_serves {s : State} {nib : Fin 1024} {d : Desc} {row : Nat} {x : Xfer} (hmoves : nibMoves s nib.val = true)
    (hd : (getNib s nib.val).desc? d.seq = some d) (hsig : d.signal = false) (hx : findXfer s nib.val d.seq row = some x)
    (hk : x.kind = .pull) (hst : x.st = .travel) (w : tabWf Nib.cold s.nibs = true) {y : Xfer}
    (hread : (getNib s x.place).readRow x.addr = .ok y.data) (hy : y = { x with st := .flying, data := y.data }) :
    Answers (.pullServe nib d.seq row []) s
      (sendFlits y (planeOf (servedPull y s) (d.lrow + row)) (nibStop x.place) (nibStop nib.val) (servedPull y s)) := by
  obtain ⟨hn, -, -⟩ := key_of_findXfer hx
  have hups : modNib x.place (fun n => n.upset []) s = s := setNib_getNib w x.place
  have hserved : setXfer y (countRemote nib.val (modNib x.place countOut s)) = servedPull y s := by
    rw [servedPull, hy, ← hn]
  have hdesc := desc?_servedPull y hd
  change execPullServe nib d.seq row [] s = _
  unfold execPullServe
  rw [hmoves, hx]
  dsimp only
  rw [if_neg (by simp [hk, hst]), hups, hread]
  dsimp only
  rw [← hy, hd, hserved]
  exact congrArg Host.Outcome.next (deliverSignal_none hdesc hsig)

/-! ## The watchdog (R125) -/

theorem MemEdit.ctxs {s t : State} (h : MemEdit s t) : t.ctxs = s.ctxs := by cases h <;> rfl

theorem MemEdits.ctxs {s t : State} (h : MemEdits s t) : t.ctxs = s.ctxs := by
  induction h with
  | refl => rfl
  | tail _ e ih => exact e.ctxs.trans ih

/-- Counting and raising an event changes what is reported, nothing else. -/
theorem reported_raise_countEvent (q p : Page) (j : Nat) {off : Nat} (hi lo e : Nat) (n : Note) (s : State)
    (ho : off < 0x1000 ∧ off ≠ 0x40 ∧ off ≠ 0x10) :
    raise p j e n (countEvent q (regAt p j off) hi lo s) = reported (raise p j e n (countEvent q (regAt p j off) hi lo s)) s := by
  obtain ⟨hlt, h40, h10⟩ := ho
  have hnotes := ((Notes.refl s).countEvent q p j hi lo ⟨hlt, h40⟩).raise p j e n
  have hctxs : (raise p j e n (countEvent q (regAt p j off) hi lo s)).ctxs = s.ctxs :=
    (memEdits_raise (memEdits_countEvent .refl q p j hi lo ⟨hlt, h10⟩) p j e n).ctxs
  exact hnotes.frame.trans (by rw [hctxs])

/-- The nib once the stall of its descriptor has been reported. -/
def Nib.stall (n : Nib) (d : Desc) : Nib := { n.setDesc { d with stalled := true } with count := { n.count with dTag := d.tag } }

theorem dmaStall_reports {s u : State} {nib : Fin 1024} {d : Desc} (hruns : nibRuns s nib.val = true)
    (hd : (getNib s nib.val).desc? d.seq = some d) (hon : getF s (regAt .dma 0 0x40) 19 8 ≠ 0) (hstalled : d.stalled = false)
    (hdone : d.done = false) (hu : u = onNib nib.val ((getNib s nib.val).stall d) s) : Answers (.dmaStall nib d.seq) s
      (raise .dma 0 3 (nibNote u nib.val d.pc (descWait s nib.val d + 16 * d.tag)) (countEvent .dma (regAt .dma 0 0x48) 31 16 u)) := by
  subst hu
  change execDmaStall nib d.seq s = _
  unfold execDmaStall
  dsimp only
  rw [hruns, hd]
  dsimp only
  rw [if_neg (by simp [hon, hstalled, hdone])]
  rfl

/-- Settles O55: each command answers the state that its lemma names, whose nib, descriptor and transfer read as stated; a stall marks its
descriptor and is reported. -/
theorem dmaLanding : Obligations.DmaLanding := by
  unfold Obligations.DmaLanding
  rintro s nib _ d rfl hd
  refine ⟨fun hmoves => ⟨fun row x ht hmay hx hst hk wr => ?lands, fun hready hfirst hothers w wt => ?completes,
    fun row x hsig hx hk hst hplace wr => ?pushed, fun row x v hsig hx hk hst w hread => ?pulled⟩, fun hruns hon hstalled hdone => ?stalls⟩
  case lands =>
    have hnib : getNib (dropXfer x (setNib nib.val ((getNib s nib.val).land d row x.data) s)) nib.val = (getNib s nib.val).land d row x.data :=
      getNib_setNib_of_desc? _ _ (desc?_land hd)
    refine ⟨_, dmaRowLand_lands hmoves hd ht hmay hx hst hk, ?_, fun r hr => ?_, findXfer_dropXfer hx, ?_, rfl,
      fun m hm => getNib_setNib_ne s _ hm⟩
    · rw [hnib]
      exact readRow_writeRow_self wr _ _
    · rw [hnib]
      exact row_writeRow_ne x.data hr
    · rw [hnib]
      exact ⟨_, desc?_land hd, rfl⟩
  case completes =>
    refine ⟨_, descriptorComplete_completes hmoves hd hready hfirst hothers, rfl, ?_⟩
    rw [getNib_setNib w]
    exact ⟨desc?_complete _ d.complete, tagOf_complete (d := d.complete) wt, rfl⟩
  case pushed =>
    obtain ⟨hn, hs, hr⟩ := key_of_findXfer hx
    have hplace' : x.place ≠ x.nib := by rwa [hn]
    have hnib := getNib_writeRemote_place (s := dropXfer x s) hplace'
    have hdesc := desc?_writeRemote (s := dropXfer x s) hplace' hs (by rw [hn]; exact hd)
    refine ⟨_, remotePushArrive_writes hmoves hd hsig hx hk hst hplace, ?_, fun r hr => ?_, ?_, ?_, writeRemote_hbm⟩
    · rw [hnib]
      exact readRow_writeRow_self wr _ _
    · rw [hnib]
      exact row_writeRow_ne x.data hr
    · rw [findXfer, writeRemote_canopy]
      exact findXfer_dropXfer hx
    · rw [← hn, ← hr]
      exact ⟨_, hdesc, rfl⟩
  case pulled =>
    obtain ⟨hn, hs, hr⟩ := key_of_findXfer hx
    have hxfers : findXfer (countRemote x.nib (modNib x.place countOut s)) nib.val d.seq row = some x := by
      rw [findXfer, countRemote_canopy]
      exact hx
    refine ⟨_, pullServe_serves (y := { x with st := .flying, data := v }) hmoves hd hsig hx hk hst w hread rfl,
      findXfer_setXfer hxfers hn hs hr, ?_, countRemote_hbm ..⟩
    simp [sendFlits, servedPull, setXfer]
  case stalls =>
    exact ⟨_, dmaStall_reports hruns hd hon hstalled hdone rfl, eventSet_raise .dma 0 _ _ (by decide),
      reported_raise_countEvent _ _ _ _ _ _ _ _ (by decide)⟩

end Sys2Proof.Machine

/-! SUPPORT. The Quill family: what the end of a layer by a fault or a drain leaves of a nib's fault and of a context's standing. -/

namespace Sys2Proof.Machine

/-! ## What settling a plot keeps (R127, R158, R337) -/

/-- A nib with the fault that another one has noted. -/
def Nib.SameFault (n m : Nib) : Prop := m.count.qReason = n.count.qReason ∧ m.count.qPc = n.count.qPc

theorem Nib.SameFault.trans {n m k : Nib} (h : n.SameFault m) (g : m.SameFault k) : n.SameFault k := ⟨g.1.trans h.1, g.2.trans h.2⟩

theorem sameFault_markLanded (seq i : Nat) (n : Nib) : n.SameFault (markLanded seq i n) := by
  unfold markLanded
  split <;> exact ⟨rfl, rfl⟩

theorem sameFault_failDesc (seq : Nat) (n : Nib) : n.SameFault (failDesc seq n) := by
  unfold failDesc
  split <;> exact ⟨rfl, rfl⟩

theorem sameFault_holdRow (seq i : Nat) (data : Row) (n : Nib) : n.SameFault (holdRow seq i data n) := by
  unfold holdRow
  split <;> exact ⟨rfl, rfl⟩

theorem sameFault_landBlock (seq i : Nat) (n : Nib) : n.SameFault (landBlock seq i n) := by
  unfold landBlock
  split
  · exact ⟨rfl, rfl⟩
  · next d _ =>
    have hrows (ps : List (Nat × Row)) : n.SameFault (ps.foldl (fun n p => n.writeRow (d.lrow + p.1) p.2) n) :=
      List.foldlRecOn (motive := n.SameFault) _ _ ⟨rfl, rfl⟩ fun _ h _ _ => h
    dsimp only
    split
    · exact hrows _
    · exact ⟨rfl, rfl⟩

/-- A context as another one stands. -/
def Ctx.Stands (x y : Ctx) : Prop := y.st = x.st ∧ y.replays = x.replays ∧ y.lastCode = x.lastCode

/-- A nib that has noted a program fault keeps its reason and PC, and a context that is not FREE its state, its replays and its last code. -/
structure FaultsKept (s t : State) : Prop where
  fault : ∀ n, (getNib s n).count.qReason ≠ 0 → (getNib s n).SameFault (getNib t n)
  standing : ∀ c, (getCtx s c).st ≠ .free → (getCtx s c).Stands (getCtx t c)

namespace FaultsKept
variable {s t : State}

theorem refl (s : State) : FaultsKept s s := ⟨fun _ _ => ⟨rfl, rfl⟩, fun _ _ => ⟨rfl, rfl, rfl⟩⟩

variable (h : FaultsKept s t)
include h

theorem trans {u : State} (k : FaultsKept t u) : FaultsKept s u where
  fault n hn := (h.fault n hn).trans (k.fault n ((h.fault n hn).1 ▸ hn))
  standing c hc := by
    obtain ⟨hs, hr, hl⟩ := h.standing c hc
    obtain ⟨hs', hr', hl'⟩ := k.standing c (hs ▸ hc)
    exact ⟨hs'.trans hs, hr'.trans hr, hl'.trans hl⟩

/-- Where nibs and contexts are as they were. -/
theorem same {u : State} (hn : u.nibs = t.nibs) (hc : u.ctxs = t.ctxs) : FaultsKept s u := by
  have hnib (n : Nat) : getNib u n = getNib t n := by rw [getNib, hn, ← getNib]
  have hctx (c : Nat) : getCtx u c = getCtx t c := by rw [getCtx, hc, ← getCtx]
  exact h.trans ⟨fun n _ => hnib n ▸ ⟨rfl, rfl⟩, fun c _ => hctx c ▸ ⟨rfl, rfl, rfl⟩⟩

/-- An access of memory touches neither. -/
theorem mem {u : State} (e : MemEdits t u) : FaultsKept s u := h.same e.nibs e.ctxs

theorem forEach {α : Type} (xs : List α) {f : α → State → State} (hf : ∀ x v, FaultsKept s v → FaultsKept s (f x v)) :
    FaultsKept s (Machine.forEach xs f t) := by
  induction xs generalizing t with
  | nil => exact h
  | cons x xs ih => exact ih (hf x t h)

omit h in
theorem ite {p : Prop} [Decidable p] {a b : State} (ha : FaultsKept s a) (hb : FaultsKept s b) : FaultsKept s (if p then a else b) := by
  split
  · exact ha
  · exact hb

theorem modNib (m : Nat) {f : Nib → Nib} (hf : ∀ n : Nib, n.SameFault (f n) := by exact fun _ => ⟨rfl, rfl⟩) :
    FaultsKept s (modNib m f t) := by
  refine h.trans ⟨fun n hn => ?_, fun _ _ => ⟨rfl, rfl, rfl⟩⟩
  by_cases hm : n = m
  · subst hm
    rw [Machine.modNib, getNib_setNib_self]
    · exact hf _
    · intro hcold
      rw [← (hf _).1, hcold] at hn
      exact hn rfl
  · rw [Machine.modNib, getNib_setNib_ne _ _ hm]
    exact ⟨rfl, rfl⟩

theorem modCtx (c : Nat) {f : Ctx → Ctx} (hf : ∀ x : Ctx, x.Stands (f x) := by exact fun _ => ⟨rfl, rfl, rfl⟩) :
    FaultsKept s (modCtx c f t) := by
  refine h.trans ⟨fun _ _ => ⟨rfl, rfl⟩, fun d hd => ?_⟩
  by_cases hc : d = c
  · subst hc
    rw [Machine.modCtx, getCtx_setCtx_self]
    · exact hf _
    · intro hfree
      rw [← (hf _).1, hfree] at hd
      exact hd rfl
  · rw [Machine.modCtx, getCtx_setCtx_ne _ _ hc]
    exact ⟨rfl, rfl, rfl⟩

theorem raise (p : Page) (j e : Nat) (n : Note) : FaultsKept s (raise p j e n t) := h.mem (memEdits_raise .refl p j e n)

theorem countEvent (q p : Page) (j : Nat) {off : Nat} (hi lo : Nat) (ho : off < 0x1000 ∧ off ≠ 0x10 := by decide) :
    FaultsKept s (countEvent q (regAt p j off) hi lo t) := h.mem (memEdits_countEvent .refl q p j hi lo ho)

/-! Writes of HBM. -/

theorem memWriteAs (al : Alloc) (a : Nat) (data : List Byte) : FaultsKept s (memWriteAs al a data t) := by
  have hrows : FaultsKept s (Machine.forEach (pieces 512 a data.length) (fun p s => writeRowAt al p.1 p.2 s)
      (readsFirst a (a + data.length) t)) :=
    (h.mem (memEdits_readsFirst .refl _ _)).forEach _ fun p v k => k.mem (memEdits_writeRowAt .refl al p.1 p.2)
  exact hrows.same rfl rfl

theorem memWrite (a : Nat) (data : List Byte) : FaultsKept s (memWrite a data t) :=
  (h.forEach _ fun _ _ k => k.mem (memEdits_comeToBank .refl _)).memWriteAs ..

theorem writePieces (ps : List (Nat × Nat)) (data : List Byte) : FaultsKept s (writePieces ps data t) := by
  induction ps generalizing data t with
  | nil => exact h
  | cons p ps ih => exact ih (h.memWrite ..) _

/-! A completion word (R333, R334). -/

theorem translate (c va : Nat) (write : Bool) : FaultsKept s (translate c va write t).2 := by
  have hwalk := h.mem (memEdits_walk .refl c va)
  unfold Machine.translate
  generalize walk c va t = q at hwalk ⊢
  obtain ⟨b, v⟩ := q
  cases b with
  | bad r => exact hwalk
  | ok a w scrub =>
    dsimp only
    split
    · exact hwalk
    · exact hwalk

theorem ptFault (c va reason : Nat) : FaultsKept s (ptFault c va reason t) :=
  h.mem (memEdits_raise (memEdits_setPair (memEdits_countEvent .refl _ _ _ _ _) _ _ _) _ _ _ _)

theorem vTargets (c va n : Nat) : FaultsKept s (vTargets c va n t).2 := by
  unfold Machine.vTargets vTargetsBy
  refine List.foldlRecOn (motive := fun p : Except VErr (List (Nat × Nat)) × State => FaultsKept s p.2) _ _ h ?_
  rintro ⟨got, v⟩ k x -
  cases got with
  | error e => exact k
  | ok got =>
    have htr := k.translate c x.1 true
    dsimp only
    generalize Machine.translate c x.1 true v = q at htr ⊢
    obtain ⟨b, w⟩ := q
    cases b with
    | inl a => exact htr
    | inr r => exact htr

theorem vWrite (c va : Nat) (data : List Byte) : FaultsKept s (vWrite c va data t).2 := by
  have htr := h.vTargets c va data.length
  unfold Machine.vTargets at htr
  unfold Machine.vWrite vWriteBy
  generalize vTargetsBy _ _ _ t = q at htr ⊢
  obtain ⟨b, v⟩ := q
  cases b with
  | error e => exact htr
  | ok ps => exact htr.writePieces ps data

theorem putCompletion (c code : Nat) : FaultsKept s (putCompletion c code t).2 := by
  unfold Machine.putCompletion
  dsimp only
  split
  · exact h
  · next r _ =>
    split
    · exact h
    · have hwrite := h.vWrite c r.compl (completionBytes (getCtx t c) r code)
      generalize Machine.vWrite _ _ _ t = q at hwrite ⊢
      obtain ⟨b, v⟩ := q
      have hv : FaultsKept s v := hwrite
      cases b with
      | none =>
        dsimp only
        exact hv.modCtx c
      | some e => cases e with
        | page va why => exact hv.ptFault c va why
        | data dpa => exact hv

/-! Rows of a plot that drains (R127). -/

theorem moveBytes (c off n : Nat) : FaultsKept s (moveBytes c off n t) := by
  have hpair : FaultsKept s (addPair (regAt .ctx c off) n t) := h.same rfl rfl
  have hmove : FaultsKept s (Machine.modCtx c (fun x => { x with tickBytes := x.tickBytes + n }) (addPair (regAt .ctx c off) n t)) :=
    hpair.modCtx c
  unfold Machine.moveBytes
  dsimp only
  split
  · exact ite (hmove.same rfl rfl) hmove
  · exact hmove

theorem countRemote (nib : Nat) : FaultsKept s (countRemote nib t) := by
  unfold Machine.countRemote
  split
  · exact h.moveBytes ..
  · exact h

theorem pushRow (nib va : Nat) (data : Row) : FaultsKept s (pushRow nib va data t) := by
  unfold Machine.pushRow
  dsimp only
  split
  · exact (h.modNib nib).modNib nib
  · exact h.modNib nib

theorem acceptWrite (x : Xfer) : FaultsKept s (acceptWrite x t) := by
  have hwrite := (h.memWriteAs (xferAlloc x) x.place (bytesOfRow x.data)).modNib x.nib (sameFault_markLanded x.seq x.row)
  have hpush := ite (p := aperture ≤ x.addr) (hwrite.pushRow x.nib x.addr x.data) hwrite
  unfold Machine.acceptWrite
  dsimp only
  split
  · exact hpush.moveBytes ..
  · exact hpush

theorem writeRemote (x : Xfer) : FaultsKept s (writeRemote x t) :=
  ((h.modNib x.place).modNib x.nib (sameFault_markLanded _ _)).countRemote _

theorem deliverSignal (nib seq : Nat) : FaultsKept s (deliverSignal nib seq t) := by
  unfold Machine.deliverSignal
  dsimp only
  split
  · split
    · exact (h.modNib nib).modNib _
    · exact h
  · exact h

theorem settleRow (nib seq i : Nat) (data : Row) : FaultsKept s (settleRow nib seq i data t) := by
  refine h.modNib nib fun n => ?_
  have hhold := sameFault_holdRow seq i data n
  dsimp only
  split
  · split
    · exact hhold.trans (sameFault_landBlock seq i _)
    · exact hhold
  · exact hhold

theorem failDraining (nib seq : Nat) (b : Blame) : FaultsKept s (failDraining nib seq b t) := by
  have hfail := h.modNib nib (sameFault_failDesc seq)
  unfold Machine.failDraining
  dsimp only
  split
  · refine hfail.modCtx _ fun x => ?_
    split <;> exact ⟨rfl, rfl, rfl⟩
  · exact hfail

theorem noteIwDetect (c nib row reader : Nat) : FaultsKept s (noteIwDetect c nib row reader t) :=
  (((h.modNib nib).countEvent ..).raise ..).same rfl rfl

theorem settlePull (x : Xfer) : FaultsKept s (settlePull x t) := by
  unfold Machine.settlePull
  split
  · exact (((h.modNib x.place).countRemote _).settleRow ..).deliverSignal ..
  · dsimp only
    split
    · exact (h.noteIwDetect ..).failDraining ..
    · exact h.failDraining ..
  · exact h.modNib x.nib (sameFault_failDesc _)

theorem readDraining (x : Xfer) : FaultsKept s (readDraining x t).2 := by
  unfold Machine.readDraining
  split
  · exact ite h (h.mem (memEdits_serveReads .refl x.place))
  · exact h
  · have hread := memEdits_readRowAt (memEdits_comeToBank (.refl (a := t)) x.place) (xferAlloc x) x.place
    generalize readRowAt _ _ _ = q at hread ⊢
    exact h.mem hread

theorem settleHint (x : Xfer) : FaultsKept s (settleHint x t) := by
  unfold Machine.settleHint
  split
  · exact h.readDraining x
  · exact h
  · exact ite h (h.readDraining x)

theorem settleXfer (x : Xfer) : FaultsKept s (settleXfer x t) := by
  unfold Machine.settleXfer
  split
  · exact h.settleHint x
  · exact (h.mem (memEdits_comeToBank .refl _)).acceptWrite x
  · exact (h.writeRemote x).deliverSignal ..
  · exact h.settleRow ..
  · split
    · exact h.settlePull x
    · exact h.settlePull x
    · exact h.settleRow ..
  · split
    · exact h.settleRow ..
    · exact h.settleRow ..
    · have hread := h.readDraining x
      generalize Machine.readDraining x t = q at hread ⊢
      obtain ⟨b, v⟩ := q
      cases b with
      | none => exact hread.failDraining ..
      | some b =>
        have hrow := hread.settleRow x.nib x.seq x.row b
        dsimp only
        split
        · exact hrow.moveBytes ..
        · exact hrow

theorem drainPlot (plot : List Nat) : FaultsKept s (drainPlot plot t) := by
  unfold Machine.drainPlot
  refine FaultsKept.same (h.forEach _ fun x v k => ?_) rfl rfl
  split
  · exact (k.settleXfer _).same rfl rfl
  · exact k

theorem quiesce (c : Nat) : FaultsKept s (quiesce c t) := by
  have hcharge : FaultsKept s (chargeTime c t) := h.same (by rw [chargeTime_frame]) (by rw [chargeTime_frame])
  exact (hcharge.drainPlot _).forEach _ fun n v k => k.modNib n

/-! Groves that a layer leaves (R417), and the fault of its context (R337). -/

theorem wakeGrove (g : Nat) : FaultsKept s (wakeGrove g t) := by
  unfold Machine.wakeGrove
  dsimp only
  split <;> exact h.same rfl rfl

theorem setGrove (g : Nat) (x : Grove) : FaultsKept s (setGrove g x t) := h.same rfl rfl

theorem modGroveNibs (g : Nat) {f : Nib → Nib} (hf : ∀ n : Nib, n.SameFault (f n)) : FaultsKept s (modGroveNibs g f t) :=
  h.forEach _ fun _ _ k => k.modNib _ hf

theorem dropGrove (g : Nat) : FaultsKept s (dropGrove g t) := by
  unfold Machine.dropGrove
  dsimp only
  split
  · split
    · exact (h.setGrove g _).wakeGrove g
    · exact h.setGrove g _
  · exact (h.setGrove g _).modGroveNibs g fun _ => ⟨rfl, rfl⟩
  · exact (h.setGrove g _).wakeGrove g
  · exact h.setGrove g _
  · exact h.setGrove g _

theorem freePlot (c : Nat) : FaultsKept s (freePlot c t) := by
  unfold Machine.freePlot
  exact (h.forEach _ fun g v k => ite (k.dropGrove g) k).modCtx c

theorem stopScribes (c : Nat) : FaultsKept s (stopScribes c t) := h.forEach _ fun _ _ k => k.same rfl rfl

theorem ctxMessage (c : Nat) : FaultsKept s (ctxMessage c t) := ite (h.mem (memEdits_sendMsix .refl _ _)) h

end FaultsKept

/-! ## A context's fault (R337) -/

/-- A context that enters FAULTED does so with its code, and nibs keep the faults that they have noted. -/
theorem enterFaulted_stands (c code wanted : Nat) (s : State) :
    (getCtx (enterFaulted c code wanted s) c).st = .faulted ∧ (getCtx (enterFaulted c code wanted s) c).lastCode = code ∧
      ∀ n, (getNib s n).count.qReason ≠ 0 → (getNib s n).SameFault (getNib (enterFaulted c code wanted s) n) := by
  unfold enterFaulted
  dsimp only
  generalize hu : modCtx c _ s = u
  have hctx : (getCtx u c).st = .faulted ∧ (getCtx u c).lastCode = code := by
    rw [← hu, modCtx, getCtx_setCtx_self]
    · exact ⟨rfl, rfl⟩
    · intro hfree
      cases congrArg Ctx.st hfree
  have hnibs : u.nibs = s.nibs := by rw [← hu]; rfl
  have hkept (n : Note) (b : Bool) : FaultsKept u (if b then modCtx c (fun x => { x with retain := true }) (ctxMessage c (raise .ranger 0 0 n u))
      else freePlot c (ctxMessage c (raise .ranger 0 0 n u))) :=
    have hmsg := ((FaultsKept.refl u).raise .ranger 0 0 n).ctxMessage c
    .ite (hmsg.modCtx c) (hmsg.freePlot c)
  obtain ⟨hst, -, hlast⟩ := (hkept _ _).standing c (by rw [hctx.1]; decide)
  refine ⟨hst.trans hctx.1, hlast.trans hctx.2, fun n hn => ?_⟩
  have hnib : getNib u n = getNib s n := by rw [getNib, hnibs, ← getNib]
  rw [← hnib] at hn ⊢
  exact (hkept _ _).fault n hn

/-- A fault leaves its context FAULTED with the code, or with that of a completion word that could not be written. -/
theorem ctxFault_stands (c code : Nat) (s : State) :
    ((getCtx s c).st = .running → (getCtx (ctxFault c code s) c).st = .faulted ∧
      ((getCtx (ctxFault c code s) c).lastCode = code ∨ (getCtx (ctxFault c code s) c).lastCode = 0x0205)) ∧
      ∀ n, (getNib s n).count.qReason ≠ 0 → (getNib s n).SameFault (getNib (ctxFault c code s) n) := by
  unfold ctxFault
  dsimp only
  split
  · have hput := (((FaultsKept.refl s).quiesce c).stopScribes c).putCompletion c code
    generalize putCompletion _ _ _ = q at hput ⊢
    obtain ⟨b, v⟩ := q
    have hv : FaultsKept s v := hput
    have hnib (code wanted : Nat) (n : Nat) (hn : (getNib s n).count.qReason ≠ 0) :
        (getNib s n).SameFault (getNib (enterFaulted c code wanted v) n) :=
      (hv.fault n hn).trans ((enterFaulted_stands c code wanted v).2.2 n ((hv.fault n hn).1 ▸ hn))
    cases b with
    | true =>
      obtain ⟨hst, hlast, -⟩ := enterFaulted_stands c code 0 v
      exact ⟨fun _ => ⟨hst, .inl hlast⟩, hnib _ _⟩
    | false =>
      obtain ⟨hst, hlast, -⟩ := enterFaulted_stands c 0x0205 code v
      exact ⟨fun _ => ⟨hst, .inr hlast⟩, hnib _ _⟩
  · next hst => exact ⟨fun hr => absurd (.inl hr) hst, fun _ _ => ⟨rfl, rfl⟩⟩

/-- So does a program fault of a nib. -/
theorem nibFault_sameFault (p : Page) (event k nib pc reason : Nat) {s : State} {n : Nat} (hn : (getNib s n).count.qReason ≠ 0) :
    (getNib s n).SameFault (getNib (nibFault p event k nib pc reason s) n) := by
  have hraise := ((FaultsKept.refl s).raise p 0 event (nibNote s nib pc reason)).fault n hn
  unfold nibFault
  dsimp only
  split
  · next c _ => exact hraise.trans ((ctxFault_stands c (0x0100 + k) _).2 n (hraise.1 ▸ hn))
  · exact hraise

end Sys2Proof.Machine

/-! SUPPORT. The Quill family: the ALU, immediates, data memory, branches, waits, END and the watchdogs. -/

namespace Sys2Proof.Machine

open Sys2Proof.Spec

/-! ## Numbers and patterns -/

theorem signed_toNat (a : Word32) : signed 32 a.toNat = a.toInt := by
  rw [signed, BitVec.toInt_eq_toNat_cond]
  split <;> split <;> omega

theorem ofNat_wrap (x : Int) : BitVec.ofNat 32 (wrap 32 x) = BitVec.ofInt 32 x := by
  rw [wrap, ← BitVec.toNat_ofInt, BitVec.ofNat_toNat, BitVec.setWidth_eq]

theorem ofNat_ite_one (p : Prop) [Decidable p] : BitVec.ofNat 32 (if p then 1 else 0) = if p then 1 else 0 := by
  split <;> rfl

/-- The ALU's functions on patterns are those on the numbers that they stand for. -/
theorem alu_eq_aluOp (fn : Nat) (a b : Word32) : BitVec.ofNat 32 (aluOp fn a.toNat b.toNat) = Spec.alu fn a b := by
  unfold aluOp Spec.alu
  match fn with
  | 0 =>
    refine BitVec.eq_of_toNat_eq ?_
    simp [BitVec.toNat_add]
  | 1 =>
    have hb := b.isLt
    refine BitVec.eq_of_toNat_eq ?_
    simp only [BitVec.toNat_ofNat, BitVec.toNat_sub]
    omega
  | 2 => simp [BitVec.ofNat_and]
  | 3 => simp [BitVec.ofNat_or]
  | 4 => simp [BitVec.ofNat_xor]
  | 5 =>
    refine BitVec.eq_of_toNat_eq ?_
    simp [BitVec.toNat_shiftLeft, Nat.shiftLeft_eq]
  | 6 =>
    refine BitVec.eq_of_toNat_eq ?_
    simp [BitVec.toNat_ushiftRight, Nat.shiftRight_eq_div_pow]
    exact lt_of_le_of_lt (Nat.div_le_self _ _) a.isLt
  | 7 =>
    have hshift : a.toInt / 2 ^ (b.toNat % 32) = a.toInt >>> (b.toNat % 32) := by
      rw [Int.shiftRight_eq_div_pow, Nat.cast_pow, Nat.cast_ofNat]
    simp only [ofNat_wrap, signed_toNat, hshift]
    rw [← BitVec.toInt_sshiftRight, BitVec.ofInt_toInt]
  | 8 =>
    refine BitVec.eq_of_toNat_eq ?_
    simp [BitVec.toNat_mul]
  | 9 => simp [ofNat_ite_one, signed_toNat, BitVec.slt]
  | 10 => simp [ofNat_ite_one, BitVec.ult]
  | 11 => simp only [ofNat_ite_one]
  | 12 => simp only [ofNat_ite_one]
  | 13 => rfl
  | _ + 14 => rfl

theorem ofInt_shiftLeft (x : Int) : BitVec.ofInt 32 (x * 2 ^ 12) = BitVec.ofInt 32 x <<< 12 := by
  rw [BitVec.ofInt_mul, BitVec.shiftLeft_eq_mul_twoPow]
  rfl

/-- A target that lies whole words away from an aligned PC, modulo 2^32, is aligned. -/
theorem wrap_target {pc : Nat} (off : Int) (haligned : pc % 4 = 0) :
    wrap 32 (pc + 4 * off) = (BitVec.ofNat 32 pc + 4 * BitVec.ofInt 32 off).toNat ∧
      (BitVec.ofNat 32 pc + 4 * BitVec.ofInt 32 off).toNat % 4 = 0 := by
  have hwrap : wrap 32 (pc + 4 * off) = (BitVec.ofNat 32 pc + 4 * BitVec.ofInt 32 off).toNat := by
    rw [wrap, ← BitVec.toNat_ofInt, BitVec.ofInt_add, BitVec.ofInt_mul, BitVec.ofInt_natCast]
    rfl
  refine ⟨hwrap, ?_⟩
  rw [← hwrap, wrap]
  omega

/-! ## One instruction, whatever it does to its nib -/

/-- An instruction that leaves its nib as `m` completes and goes on at an instruction word. -/
theorem quillGo_setNib {m : Nib} (nib : Nat) {pc : Nat} (s : State) (hm : m ≠ Nib.cold) (haligned : pc % 4 = 0) (hinside : pc < 16384) :
    quillGo nib pc (setNib nib m s) = onNib nib (stepped pc m) s := by
  have hstepped : stepped pc m ≠ Nib.cold := ne_cold_of_running rfl
  unfold quillGo
  dsimp only
  rw [if_neg (by omega), modNib, getNib_setNib_self s nib hm]
  exact congrArg (fun t => { s with nibs := t }) (tabSet_set s.nibs nib hm hstepped)

/-- One that changes nothing but the core's place. -/
theorem quillGo_here (nib : Nat) {pc : Nat} (s : State) (haligned : pc % 4 = 0) (hinside : pc < 16384) :
    quillGo nib pc s = onNib nib (stepped pc (getNib s nib)) s := by
  unfold quillGo
  dsimp only
  rw [if_neg (by omega)]
  rfl

/-- A program fault leaves the core faulted, with its reason and PC, whatever becomes of its context (R158). -/
theorem quillFault_notes (nib pc : Nat) {reason : Nat} (s : State) (hreason : reason ≠ 0) :
    (getNib (quillFault nib pc reason s) nib).quill.run = .faulted ∧ (getNib (quillFault nib pc reason s) nib).count.qReason = reason ∧
      (getNib (quillFault nib pc reason s) nib).count.qPc = pc := by
  unfold quillFault
  dsimp only
  generalize hu : modNib nib _ s = u
  have hnoted : (getNib u nib).count.qReason = reason ∧ (getNib u nib).count.qPc = pc := by
    rw [← hu, modNib, getNib_setNib_self]
    · exact ⟨rfl, rfl⟩
    · intro hcold
      exact hreason (congrArg (fun n : Nib => n.count.qReason) hcold)
  have hcount : (getNib u nib).SameFault (getNib (countEvent .quill (regAt .quill 0 0x44) 15 0 u) nib) :=
    ((FaultsKept.refl u).countEvent ..).fault nib (hnoted.1.symm ▸ hreason)
  have hfault := hcount.trans (nibFault_sameFault .quill 0 7 nib pc reason (by rw [hcount.1, hnoted.1]; exact hreason))
  rw [modNib, getNib_setNib_self]
  · exact ⟨rfl, hfault.1.trans hnoted.1, hfault.2.trans hnoted.2⟩
  · intro hcold
    cases congrArg (fun n : Nib => n.quill.run) hcold

theorem aligned_of_atQuill {s : State} {nib : Fin 1024} {w : Nat} (h : atQuill s nib w) :
    (getNib s nib.val).quill.pc % 4 = 0 ∧ (getNib s nib.val).quill.pc + 4 < 16384 := by
  obtain ⟨-, -, -, -, haligned, hinside⟩ := h
  exact ⟨haligned, hinside⟩

/-- A nib whose core runs still does once a register is written. -/
theorem withReg_ne_cold {n : Nib} (r : Nat) (v : Word32) (h : n.quill.run = .running) : withReg n r v ≠ Nib.cold :=
  ne_cold_of_running ((withReg_run n r v).trans h)

section
variable {s : State} {nib : Fin 1024} {w : Nat} {n : Nib} (hn : n = getNib s nib.val) (h : atQuill s nib w)
include hn h

/-! ## ALU (R156) -/

/-- An instruction that writes RD with what it finds in its own nib, and goes on at the next word. -/
theorem quillRow_writes {kind : Nat → Bool} (v : Nat → Nib → Nat) (hk : kind w = true) :
    quillRow kind (fun nib pc w s => quillGo nib (pc + 4) (modNib nib (fun n => n.setReg (qRd w) (v w n)) s)) nib s =
      .next (onNib nib.val (stepped (n.quill.pc + 4) (withReg n (qRd w) (BitVec.ofNat 32 (v w n)))) s) := by
  subst hn
  rw [quillRow_of_atQuill h hk, quillGo_modNib h ((withReg_run ..).trans (running_of_atQuill h)), setReg_eq_withReg]

theorem aluRow_writes {fn : Nat} (ho : qOp w = 1) (hfn : qFn w = fn) : aluRow fn nib s = .next (onNib nib.val
    (stepped (n.quill.pc + 4) (withReg n (qRd w) (Spec.alu fn (Spec.sreg n (qRa w)) (Spec.sreg n (qRb w))))) s) := by
  refine (quillRow_writes hn h (fun w n => aluOp fn (n.reg (qRa w)) (n.reg (qRb w))) (by simp [ho, hfn])).trans ?_
  rw [reg_eq_sreg, reg_eq_sreg, alu_eq_aluOp]

/-! ## Immediates and data memory (R156, R158) -/

theorem addi_writes (ho : qOp w = 2) : Answers (.addi nib) s (onNib nib.val (stepped (n.quill.pc + 4)
    (withReg n (qRd w) (Spec.sreg n (qRa w) + BitVec.ofInt 32 (qImm15 w)))) s) := by
  refine (quillRow_writes hn h (fun w n => addrOf n w) (opIs_of_eq ho)).trans ?_
  rw [addrOf_eq_sreg, BitVec.ofNat_toNat, BitVec.setWidth_eq]

theorem lui_writes (ho : qOp w = 3) : Answers (.lui nib) s (onNib nib.val (stepped (n.quill.pc + 4)
    (withReg n (qRd w) (BitVec.ofInt 32 (qImm20 w) <<< 12))) s) := by
  refine (quillRow_writes hn h (fun w _ => wrap 32 (qImm20 w * 2 ^ 12)) (opIs_of_eq ho)).trans ?_
  rw [ofNat_wrap, ofInt_shiftLeft]

theorem lw_reads {a : Nat} (ho : qOp w = 4) (ha : a = addrOf n w) (hok : dmemBad a = false) : Answers (.lw nib) s (onNib nib.val
    (stepped (n.quill.pc + 4) (withReg n (qRd w) (tabGet 0 n.quill.dmem (a / 4)))) s) := by
  subst hn
  rw [Answers, exec, execLw, quillRow_of_atQuill h (opIs_of_eq ho)]
  dsimp only
  rw [← ha, if_neg (by simp [hok]), quillGo_modNib h ((withReg_run ..).trans (running_of_atQuill h)), setReg_eq_withReg, BitVec.ofNat_toNat,
    BitVec.setWidth_eq]

theorem sw_writes {a : Nat} (ho : qOp w = 5) (ha : a = addrOf n w) (hok : dmemBad a = false) : Answers (.sw nib) s (onNib nib.val
    (stepped (n.quill.pc + 4)
      { n with quill := { n.quill with dmem := tabSet 0 n.quill.dmem (a / 4) (Spec.sreg n (qRd w)) } }) s) := by
  subst hn
  rw [Answers, exec, execSw, quillRow_of_atQuill h (opIs_of_eq ho)]
  dsimp only
  rw [← ha, if_neg (by simp [hok]), quillGo_modNib h (running_of_atQuill h), Nib.modQuill, reg_eq_sreg, BitVec.ofNat_toNat, BitVec.setWidth_eq]

/-- A misaligned or outside address is a program fault. -/
theorem dmem_faults (hbad : dmemBad (addrOf n w) = true) :
    (qOp w = 4 → Answers (.lw nib) s (quillFault nib.val n.quill.pc 2 s)) ∧
      (qOp w = 5 → Answers (.sw nib) s (quillFault nib.val n.quill.pc 2 s)) := by
  subst hn
  constructor <;> intro ho
  · rw [Answers, exec, execLw, quillRow_of_atQuill h (opIs_of_eq ho)]
    exact congrArg _ (if_pos hbad)
  · rw [Answers, exec, execSw, quillRow_of_atQuill h (opIs_of_eq ho)]
    exact congrArg _ (if_pos hbad)

/-! ## Branches and jumps (R155, R156) -/

/-- A branch goes to its target where its condition holds, else to the next word. -/
theorem quillRow_branches {o target : Nat} {taken : Bool} {cond : Nat → Nat → Bool} (ho : qOp w = o)
    (hcond : cond (n.reg (qRa w)) (n.reg (qBrb w)) = taken)
    (htarget : target = (BitVec.ofNat 32 n.quill.pc + 4 * BitVec.ofInt 32 (qImm15 w)).toNat) (hinside : taken = true → target < 16384) :
    quillRow (opIs o) (branchBody cond) nib s =
      .next (onNib nib.val (stepped (if taken then target else n.quill.pc + 4) n) s) := by
  obtain ⟨haligned, hlast⟩ := hn ▸ aligned_of_atQuill h
  have hwrap := wrap_target (qImm15 w) haligned
  subst hn
  rw [quillRow_of_atQuill h (opIs_of_eq ho), branchBody]
  rw [hcond, hwrap.1, ← htarget, quillGo_here]
  · split
    · rw [htarget]
      exact hwrap.2
    · omega
  · split
    · exact hinside ‹_›
    · exact hlast

theorem jal_jumps {target : Nat} (ho : qOp w = 0x0A) (htarget : target = (BitVec.ofNat 32 n.quill.pc + 4 * BitVec.ofInt 32 (qImm20 w)).toNat)
    (hinside : target < 16384) : Answers (.jal nib) s
      (onNib nib.val (stepped target (withReg n (qRd w) (BitVec.ofNat 32 (n.quill.pc + 4)))) s) := by
  obtain ⟨haligned, hlast⟩ := hn ▸ aligned_of_atQuill h
  have hwrap := wrap_target (qImm20 w) haligned
  subst hn
  rw [Answers, exec, execJal, quillRow_of_atQuill h (opIs_of_eq ho)]
  rw [hwrap.1, ← htarget, modNib, setReg_eq_withReg, quillGo_setNib nib.val s (withReg_ne_cold _ _ (running_of_atQuill h))
    (htarget ▸ hwrap.2) hinside]

theorem jalr_jumps {target : Nat} (ho : qOp w = 0x0B) (htarget : target = addrOf n w) (haligned : target % 4 = 0)
    (hinside : target < 16384) : Answers (.jalr nib) s
      (onNib nib.val (stepped target (withReg n (qRd w) (BitVec.ofNat 32 (n.quill.pc + 4)))) s) := by
  subst hn
  rw [Answers, exec, execJalr, quillRow_of_atQuill h (opIs_of_eq ho)]
  rw [← htarget, modNib, setReg_eq_withReg, quillGo_setNib nib.val s (withReg_ne_cold _ _ (running_of_atQuill h)) haligned hinside]

end

/-- The ALU's commands by FN. -/
def aluCommands (nib : Fin 1024) : List (Nat × Instr) :=
  [(0, .aluAdd nib), (1, .aluSub nib), (2, .aluAnd nib), (3, .aluOr nib), (4, .aluXor nib), (5, .aluSll nib), (6, .aluSrl nib),
    (7, .aluSra nib), (8, .aluMul nib), (9, .aluSlt nib), (10, .aluSltu nib), (11, .aluFlt nib), (12, .aluFeq nib), (13, .aluFadd nib),
    (14, .aluFmul nib)]

theorem exec_aluCommands (nib : Fin 1024) (s : State) : ∀ p ∈ aluCommands nib, exec p.2 s = aluRow p.1 nib s := by
  simp only [aluCommands, List.forall_mem_cons, List.not_mem_nil, false_imp_iff, implies_true, and_true]
  exact ⟨rfl, rfl, rfl, rfl, rfl, rfl, rfl, rfl, rfl, rfl, rfl, rfl, rfl, rfl, rfl⟩

/-- Settles O43: each command is the ALU's row with its function, which on patterns is that of the statement. -/
theorem quillAlu : Obligations.QuillAlu := by
  unfold Obligations.QuillAlu
  intro s nib w n hn h ho fn c hc hfn
  exact (exec_aluCommands nib s (fn, c) hc).trans (aluRow_writes hn h ho hfn)

theorem dmemBad_iff (a : Nat) : dmemBad a = true ↔ a % 4 ≠ 0 ∨ 8192 ≤ a := by
  simp [dmemBad]

/-- Settles O44: each instruction steps past its write; a bad address is a program fault, which notes its reason and PC. -/
theorem quillImmediateAndMemory : Obligations.QuillImmediateAndMemory := by
  unfold Obligations.QuillImmediateAndMemory
  intro s nib w n a hn h ha
  have haddr : a.toNat = addrOf n w := by rw [addrOf_eq_sreg, ha]
  have hok (h4 : a.toNat % 4 = 0) (hend : a.toNat < 8192) : dmemBad a.toNat = false := by
    rw [← Bool.not_eq_true, dmemBad_iff]
    omega
  refine ⟨fun ho => ha ▸ addi_writes hn h ho, fun ho => lui_writes hn h ho, fun ho h4 hend => lw_reads hn h ho haddr (hok h4 hend),
    fun ho h4 hend => sw_writes hn h ho haddr (hok h4 hend), fun ho hbad => ?_⟩
  obtain ⟨hlw, hsw⟩ := dmem_faults hn h (haddr ▸ (dmemBad_iff _).mpr hbad)
  refine ⟨_, ?_, quillFault_notes nib.val n.quill.pc s (by decide)⟩
  split
  · next h4 => exact hlw h4
  · next h4 => exact hsw (ho.resolve_left h4)

theorem beq_toNat (a b : Word32) : (a.toNat == b.toNat) = (a == b) := by
  simp [BitVec.toNat_inj]

/-- Settles O45: a branch's condition on the registers' numbers is that on their patterns; a jump writes RD before it goes on. -/
theorem quillControl : Obligations.QuillControl := by
  unfold Obligations.QuillControl
  intro s nib w n pc t15 t20 tr a b hn h hpc h15 h20 hr ha hb
  subst hpc
  have haddr : tr = addrOf n w := by rw [addrOf_eq_sreg, hr]
  refine ⟨fun c cond o hc ho hinside => ?_, fun hinside ho => jal_jumps hn h ho h20 hinside,
    fun haligned hinside ho => jalr_jumps hn h ho haddr haligned hinside⟩
  have hbranch {f : Nat → Nat → Bool} (hf : f a.toNat b.toNat = cond) := quillRow_branches (cond := f) hn h ho
    (by rw [reg_eq_sreg, reg_eq_sreg, ← ha, ← hb, hf]) h15 hinside
  simp only [List.mem_cons, Prod.mk.injEq, List.not_mem_nil, or_false] at hc
  obtain ⟨rfl, rfl, rfl⟩ | ⟨rfl, rfl, rfl⟩ | ⟨rfl, rfl, rfl⟩ | ⟨rfl, rfl, rfl⟩ := hc
  · exact hbranch (beq_toNat a b)
  · exact hbranch (congrArg not (beq_toNat a b))
  · exact hbranch (by simp [signed_toNat, BitVec.slt])
  · exact hbranch (by simp [signed_toNat, BitVec.slt, ← decide_not])

/-! ## Waits (R115, R121, R152, R156) -/

/-- A nib whose core waits. -/
def Nib.wait (n : Nib) (kind a b : Nat) : Nib := { n with quill := { n.quill with run := .waiting kind a b, stalled := false } }

section
variable {s : State} {nib : Fin 1024} {w : Nat} {n : Nib} (hn : n = getNib s nib.val) (h : atQuill s nib w)
include hn h

/-- The core goes on where what it waits for is there, else it waits. -/
theorem quillGo_or_wait (there : Bool) (kind a b : Nat) :
    (if there then quillGo nib.val (n.quill.pc + 4) s else quillWait nib.val kind a b s) =
      onNib nib.val (if there then stepped (n.quill.pc + 4) n else n.wait kind a b) s := by
  obtain ⟨haligned, hlast⟩ := hn ▸ aligned_of_atQuill h
  cases there with
  | true =>
    rw [if_pos rfl, if_pos rfl, quillGo_here nib.val s (by omega) hlast, ← hn]
  | false =>
    subst hn
    rfl

theorem wsig_waits (ho : qOp w = 0x13) (hk : qRd w ≤ 15) {there : Bool} {v : Nat} (hv : v = (Spec.sreg n (qRa w)).toNat)
    (hthere : there = sigReached n (qRd w) v) : Answers (.wsig nib) s
      (onNib nib.val (if there then stepped (n.quill.pc + 4) n else n.wait 4 (qRd w) v) s) := by
  rw [← quillGo_or_wait hn h there 4 (qRd w) v]
  subst hn hthere
  rw [hv, Answers, exec, execWsig, quillRow_of_atQuill h (opIs_of_eq ho)]
  dsimp only
  rw [if_neg (by omega), reg_eq_sreg]

theorem wtag_waits (ho : qOp w = 0x14) {t cap : Nat} (ht : t = qField w 5 0) (hcap : cap = (tagOf n t).1) : Answers (.wtag nib) s
    (onNib nib.val (if tagDone n t cap then stepped (n.quill.pc + 4) n else n.wait 5 t cap) s) := by
  rw [← quillGo_or_wait hn h (tagDone n t cap) 5 t cap]
  subst hn hcap ht
  rw [Answers, exec, execWtag, quillRow_of_atQuill h (opIs_of_eq ho)]

theorem vwait_waits (ho : qOp w = 0x18) : Answers (.vwait nib) s
    (onNib nib.val (if decide (n.vq = []) then stepped (n.quill.pc + 4) n else n.wait 7 0 0) s) := by
  rw [← quillGo_or_wait hn h (decide (n.vq = [])) 7 0 0]
  subst hn
  rw [Answers, exec, execVwait, quillRow_of_atQuill h (opIs_of_eq ho)]
  simp only [decide_eq_true_eq]

theorem rsum_waits (ho : qOp w = 0x15) {i f : Nat} (hi : i = qField w 1 0) (hf : f = qField w 3 2) : Answers (.rsum nib) s
    (onNib nib.val (if slotReady n i then stepped (n.quill.pc + 4) (withReg n (qRd w) (BitVec.ofNat 32 (slotField n i f)))
      else n.wait 6 (i + 4 * f) (qRd w)) s) := by
  obtain ⟨haligned, hlast⟩ := hn ▸ aligned_of_atQuill h
  subst hn hi hf
  rw [Answers, exec, execRsum, quillRow_of_atQuill h (opIs_of_eq ho)]
  dsimp only
  split
  · rw [setReg_eq_withReg, quillGo_setNib nib.val s (withReg_ne_cold _ _ (running_of_atQuill h)) (by omega) hlast]
  · rfl

end

/-- A wait that is over ends: its nib is finished and goes on at the next word. -/
theorem waitDone_ends {s : State} {nib : Fin 1024} {n : Nib} {kind a b : Nat} {ended : Nib → Nat → Nat → Bool} {finish : Nib → Nat → Nat → Nib}
    (hn : n = getNib s nib.val) (hruns : nibRuns s nib.val = true) (hrun : n.quill.run = .waiting kind a b) (hended : ended n a b = true)
    (haligned : n.quill.pc % 4 = 0) (hlast : n.quill.pc + 4 < 16384)
    (hwaits : (finish n a b).quill.run = n.quill.run) :
    waitDone kind ended finish nib s = .next (onNib nib.val (stepped (n.quill.pc + 4) (finish n a b)) s) := by
  have hcold : finish n a b ≠ Nib.cold := fun hcold => by
    rw [hcold, hrun] at hwaits
    cases hwaits
  subst hn
  unfold waitDone
  dsimp only
  rw [hruns, hrun]
  dsimp only
  rw [if_pos ⟨rfl, hended⟩, quillGo_setNib nib.val s hcold (by omega) hlast]

section
variable {s : State} {nib : Fin 1024} {n : Nib} (hn : n = getNib s nib.val) (hruns : nibRuns s nib.val = true)
  (haligned : n.quill.pc % 4 = 0) (hlast : n.quill.pc + 4 < 16384)
include hn hruns haligned hlast

theorem wsigDone_ends {k v : Nat} (hrun : n.quill.run = .waiting 4 k v) (hended : sigReached n k v = true) :
    Answers (.wsigDone nib) s (onNib nib.val (stepped (n.quill.pc + 4) n) s) :=
  waitDone_ends (ended := fun n k v => sigReached n k v) (finish := fun n _ _ => n) hn hruns hrun hended haligned hlast rfl

theorem wtagDone_ends {t cap : Nat} (hrun : n.quill.run = .waiting 5 t cap) (hended : tagDone n t cap = true) :
    Answers (.wtagDone nib) s (onNib nib.val (stepped (n.quill.pc + 4) n) s) :=
  waitDone_ends (ended := fun n t cap => tagDone n t cap) (finish := fun n _ _ => n) hn hruns hrun hended haligned hlast rfl

theorem vwaitDone_ends {a b : Nat} (hrun : n.quill.run = .waiting 7 a b) (hempty : n.vq = []) :
    Answers (.vwaitDone nib) s (onNib nib.val (stepped (n.quill.pc + 4) n) s) :=
  waitDone_ends (ended := fun n _ _ => decide (n.vq = [])) (finish := fun n _ _ => n) hn hruns hrun (decide_eq_true hempty) haligned hlast rfl

theorem rsumDone_ends {i f rd : Nat} (hi : i < 4) (hrun : n.quill.run = .waiting 6 (i + 4 * f) rd) (hready : slotReady n i = true) :
    Answers (.rsumDone nib) s
      (onNib nib.val (stepped (n.quill.pc + 4) (withReg n rd (BitVec.ofNat 32 (slotField n i f)))) s) := by
  have hslot : (i + 4 * f) % 4 = i := by omega
  have hfield : (i + 4 * f) / 4 = f := by omega
  have hend := waitDone_ends (ended := fun n a _ => slotReady n (a % 4)) (finish := fun n a rd => n.setReg rd (slotField n (a % 4) (a / 4)))
    hn hruns hrun (by rw [hslot]; exact hready) haligned hlast (withReg_run ..)
  rw [hslot, hfield, setReg_eq_withReg] at hend
  exact hend

end

/-- Settles O47: a wait's command goes on or waits as its lemma says, and the end of a wait is that of its kind. -/
theorem quillWaits : Obligations.QuillWaits := by
  unfold Obligations.QuillWaits
  intro s nib w n hn hruns haligned hlast
  refine ⟨fun c o kind a b there h ho hk hc => ?_, fun i f h ho hi hf => rsum_waits hn h ho hi hf,
    fun k v hrun hended => wsigDone_ends hn hruns haligned hlast hrun hended,
    fun t cap hrun hended => wtagDone_ends hn hruns haligned hlast hrun hended,
    fun i f rd hi hrun hready => rsumDone_ends hn hruns haligned hlast hi hrun hready,
    fun a b hrun hempty => vwaitDone_ends hn hruns haligned hlast hrun hempty⟩
  simp only [List.mem_cons, Prod.mk.injEq, List.not_mem_nil, or_false] at hc
  obtain ⟨rfl, rfl, rfl, rfl, rfl, rfl⟩ | ⟨rfl, rfl, rfl, rfl, rfl, rfl⟩ | ⟨rfl, rfl, rfl, rfl, rfl, rfl⟩ := hc
  · exact wsig_waits hn h ho (hk rfl) rfl rfl
  · exact wtag_waits hn h ho rfl rfl
  · exact vwait_waits hn h ho

/-! ## Strands without prediction (R160) -/

/-- A nib at PC 0 of strand st, which is not a sampled one. -/
def Nib.beginStrand (st : Nat) (n : Nib) : Nib :=
  n.modQuill (fun q => { q with pc := 0, sregs := [], run := .running, strand := st, sampled := false, stalled := false })

/-- A nib whose last strand has ended. -/
def Nib.noStrand (n : Nib) : Nib := n.modQuill (fun q => { q with run := .idle, finished := true })

/-- A nib that takes strand st of a grid, or has finished where the grid has none. -/
def Nib.takeStrand (grid st : Nat) (n : Nib) : Nib := if st < grid then n.beginStrand st else n.noStrand

theorem takeStrand_ne_cold (grid st : Nat) (n : Nib) : Nib.takeStrand grid st n ≠ Nib.cold := by
  unfold Nib.takeStrand
  split
  · exact ne_cold_of_running rfl
  · intro hcold
    cases congrArg (fun n : Nib => n.quill.finished) hcold

theorem goStrand_unpredicted {s : State} {nib c : Nat} {r : Record} (st : Nat) (hc : ctxOfNib s nib = some c)
    (hr : (getCtx s c).record = some r) (hplot : (getCtx s c).plot ≠ []) (hpred : (getNib s nib).pred = none) :
    goStrand nib st s = modNib nib (Nib.takeStrand r.grid st) s := by
  have hstep : 16 * (getCtx s c).plot.length ≠ 0 := Nat.mul_ne_zero (by decide) (List.length_eq_zero_iff.not.mpr hplot)
  unfold goStrand
  rw [hc]
  dsimp only
  rw [hr]
  dsimp only
  rw [nextStrand, hpred]
  by_cases hst : st < r.grid
  · rw [if_neg (by omega)]
    exact congrArg (fun n => setNib nib n s) (if_pos hst).symm
  · rw [if_pos (.inl (by omega))]
    exact congrArg (fun n => setNib nib n s) (if_neg hst).symm

/-- The second of two changes of a nib is made to what the first one left. -/
theorem modNib_setNib (nib : Nat) {m : Nib} (f : Nib → Nib) (s : State) (hm : m ≠ Nib.cold) (hf : f m ≠ Nib.cold) :
    modNib nib f (setNib nib m s) = setNib nib (f m) s := by
  rw [modNib, getNib_setNib_self s nib hm]
  exact congrArg (fun t => { s with nibs := t }) (tabSet_set s.nibs nib hm hf)

/-- A nib that has counted the end of a strand. -/
def Nib.endStrand (n : Nib) : Nib :=
  { n.modQuill (fun q => { q with ended := q.ended + 1 }) with count := { n.count with instrs := n.count.instrs + 1 } }

/-- It has counted an instruction. -/
theorem endStrand_ne_cold (n : Nib) : n.endStrand ≠ Nib.cold := fun hcold => by
  cases congrArg (fun n : Nib => n.count.instrs) hcold

theorem strandEnd_ends {s : State} {nib : Fin 1024} {w c : Nat} {n : Nib} {r : Record} (hn : n = getNib s nib.val) (h : atQuill s nib w)
    (ho : qOp w = 0x19) (hc : ctxOfNib s nib.val = some c) (hr : (getCtx s c).record = some r) (hplot : (getCtx s c).plot ≠ [])
    (hpred : n.pred = none) : Answers (.strandEnd nib) s
      (onNib nib.val (Nib.takeStrand r.grid (n.quill.strand + 16 * (getCtx s c).plot.length) n.endStrand) s) := by
  have hended : getNib (setNib nib.val n.endStrand s) nib.val = n.endStrand := getNib_setNib_self s nib.val (endStrand_ne_cold n)
  have hgo := goStrand_unpredicted (s := setNib nib.val n.endStrand s) (n.quill.strand + 16 * (getCtx s c).plot.length) hc hr hplot
    (by rw [hended]; exact hpred)
  rw [modNib_setNib _ _ _ (endStrand_ne_cold n) (takeStrand_ne_cold _ _ _)] at hgo
  subst hn
  rw [Answers, exec, execStrandEnd, quillRow_of_atQuill h (opIs_of_eq ho)]
  dsimp only
  rw [hc]
  exact congrArg _ hgo

/-! ## Watchdogs (R88, R159) -/

/-- A command that marks its nib, counts and raises an event of its page changes nothing else but what is reported. -/
theorem reports_mark {c : Instr} (p : Page) {off hi lo e : Nat} (note : Note) (nib : Nat) (f : Nib → Nib) {s : State} (he : e < 32)
    (ho : off < 0x1000 ∧ off ≠ 0x40 ∧ off ≠ 0x10)
    (h : exec c s = .next (raise p 0 e note (modNib nib f (countEvent p (regAt p 0 off) hi lo s)))) :
    ∃ t, Answers c s t ∧ eventSet t p 0 e ∧ t = reported t (onNib nib (f (getNib s nib)) s) := by
  have hswap : modNib nib f (countEvent p (regAt p 0 off) hi lo s) =
      countEvent p (regAt p 0 off) hi lo (onNib nib (f (getNib s nib)) s) := by
    have hfull : crossFull p (onNib nib (f (getNib s nib)) s) = crossFull p s := rfl
    unfold countEvent
    rw [hfull]
    split <;> rfl
  rw [hswap] at h
  exact ⟨_, h, eventSet_raise p 0 _ _ he, reported_raise_countEvent _ _ _ _ _ _ _ _ ho⟩

section
variable {s : State} {nib : Fin 1024} {n : Nib} (hn : n = getNib s nib.val) (hruns : nibRuns s nib.val = true)
include hn hruns

theorem quillWait_reports {k a b : Nat} (hrun : n.quill.run = .waiting k a b) (hon : getF s (regAt .quill 0 0x40) 11 0 ≠ 0)
    (hstalled : n.quill.stalled = false) : ∃ t, Answers (.quillWait nib) s t ∧ eventSet t .quill 0 1 ∧
      t = reported t (onNib nib.val { n with quill := { n.quill with stalled := true } } s) := by
  subst hn
  refine reports_mark (off := 0x44) (hi := 31) (lo := 16) .quill ?note nib.val
    (fun n => n.modQuill (fun q => { q with stalled := true })) (by decide) (by decide) ?answers
  case answers =>
    change execQuillWait nib s = _
    rw [execQuillWait, hruns, hrun]
    dsimp only
    rw [if_neg (by simp [hon, hstalled])]

theorem issueStall_reports {e : MxEntry} {rest : List MxEntry} (hmq : n.mq = e :: rest) (hon : getF s (regAt .matrix 0 0x40) 23 12 ≠ 0)
    (hwait : mxEntryWait n e ≠ 0) (hnew : n.mqStall ≠ some e.seq) : ∃ t, Answers (.issueStall nib) s t ∧ eventSet t .matrix 0 1 ∧
      t = reported t (onNib nib.val { n with mqStall := some e.seq } s) := by
  subst hn
  have hhead : mxWait (getNib s nib.val) ≠ 0 := by rwa [mxWait, hmq]
  refine reports_mark (off := 0x44) (hi := 31) (lo := 16) .matrix ?note nib.val
    (fun n => { n with mqStall := some e.seq }) (by decide) (by decide) ?answers
  case answers =>
    change execIssueStall nib s = _
    rw [execIssueStall, hmq]
    dsimp only
    rw [if_pos ⟨hruns, hon, hhead, hnew⟩]

theorem vecStall_reports {e : VecEntry} {rest : List VecEntry} (hvq : n.vq = e :: rest) (hon : getF s (regAt .vector 0 0x40) 11 0 ≠ 0)
    (hwait : vxEntryWait n e ≠ 0) (hnew : n.vqStall ≠ some e.seq) : ∃ t, Answers (.vecStall nib) s t ∧ eventSet t .vector 0 1 ∧
      t = reported t (onNib nib.val { n with vqStall := some e.seq } s) := by
  subst hn
  have hhead : vxWait (getNib s nib.val) ≠ 0 := by rwa [vxWait, hvq]
  refine reports_mark (off := 0x44) (hi := 31) (lo := 16) .vector ?note nib.val
    (fun n => { n with vqStall := some e.seq }) (by decide) (by decide) ?answers
  case answers =>
    change execVecStall nib s = _
    rw [execVecStall, hvq]
    dsimp only
    rw [if_pos ⟨hruns, hon, hhead, hnew⟩]

end

/-- Settles O48: END counts the strand and takes the next one of the grid; each watchdog marks its nib once and reports. -/
theorem strandEndAndStalls : Obligations.StrandEndAndStalls := by
  unfold Obligations.StrandEndAndStalls
  intro s nib n hn hruns
  refine ⟨fun w c r next h ho hc hr hplot hpred hnext => ?_, fun k a b hrun hon hstalled => quillWait_reports hn hruns hrun hon hstalled,
    fun e rest hmq hon hwait hnew => issueStall_reports hn hruns hmq hon hwait hnew,
    fun e rest hvq hon hwait hnew => vecStall_reports hn hruns hvq hon hwait hnew⟩
  have hend := strandEnd_ends hn h ho hc hr hplot hpred
  rw [← hnext, Nib.takeStrand] at hend
  split at hend
  · next hlt => rwa [if_pos hlt]
  · next hge => rwa [if_neg hge]

end Sys2Proof.Machine

/-! SUPPORT. The vector engine: tables written key by key, lanes of a tile row, tile registers, and the head of the vector queue. -/

namespace Sys2Proof.Machine

open Sys2Proof.Spec

/-! ## Tables written key by key -/

section
variable {α β : Type} [DecidableEq β] {d : β}

/-- A table in which, for one element after another, the value at the element's key is replaced by what `g` makes of it. -/
def tabUpdate (d : β) (key : α → Nat) (g : α → β → β) (xs : List α) (t : Tab β) : Tab β :=
  xs.foldl (fun t x => tabSet d t (key x) (g x (tabGet d t (key x)))) t

variable {key : α → Nat} {g : α → β → β} {xs : List α} {t : Tab β}

theorem tabUpdate_wf (w : tabWf d t = true) : tabWf d (tabUpdate d key g xs t) = true :=
  List.foldlRecOn (motive := fun t => tabWf d t = true) _ _ w fun _ h _ _ => tabSet_wf _ _ _ h

theorem tabGet_tabUpdate_other {i : Nat} (h : ∀ x ∈ xs, key x ≠ i) : tabGet d (tabUpdate d key g xs t) i = tabGet d t i := by
  induction xs generalizing t with
  | nil => rfl
  | cons x xs ih =>
    rw [tabUpdate, List.foldl_cons, ← tabUpdate, ih fun y hy => h y (List.mem_cons_of_mem x hy),
      tabGet_set_ne t _ (Ne.symm (h x List.mem_cons_self))]

/-- Of keys that are all different each holds what was made of its own value. -/
theorem tabGet_tabUpdate (w : tabWf d t = true) (hd : (xs.map key).Nodup) {x : α} (hx : x ∈ xs) :
    tabGet d (tabUpdate d key g xs t) (key x) = g x (tabGet d t (key x)) := by
  induction xs generalizing t with
  | nil => cases hx
  | cons y xs ih =>
    obtain ⟨hy, hxs⟩ := List.nodup_cons.mp hd
    rw [tabUpdate, List.foldl_cons, ← tabUpdate]
    obtain rfl | hx := List.mem_cons.mp hx
    · have hother : ∀ z ∈ xs, key z ≠ key x := fun z hz he => hy (he ▸ List.mem_map_of_mem hz)
      rw [tabGet_tabUpdate_other hother, tabGet_set_wf t _ _ w]
    · have hne : key x ≠ key y := fun he => hy (he ▸ List.mem_map_of_mem hx)
      rw [ih (tabSet_wf t _ _ w) hxs hx, tabGet_set_ne t _ hne]

theorem tabErase_insert {lo : Nat} (i : Nat) (v : β) (w : tabWfFrom d lo t = true) : tabErase (tabInsert t i v) i = tabErase t i := by
  induction t generalizing lo with
  | nil => simp [tabInsert, tabErase]
  | cons p t ih =>
    obtain ⟨k, x⟩ := p
    simp only [tabWfFrom, Bool.and_eq_true] at w
    by_cases hlt : i < k
    · have hgone : tabErase t i = t := tabErase_of_find (tabFind_below t w.2 (by omega))
      have hne : i ≠ k := by omega
      simp [tabInsert, tabErase, hlt, hne, hgone]
    · by_cases he : i = k
      · simp [tabInsert, tabErase, he]
      · simp [tabInsert, tabErase, hlt, he, ih w.2]

theorem tabInsert_erase {lo : Nat} (i : Nat) (v : β) (w : tabWfFrom d lo t = true) : tabInsert (tabErase t i) i v = tabInsert t i v := by
  induction t generalizing lo with
  | nil => rfl
  | cons p t ih =>
    obtain ⟨k, x⟩ := p
    simp only [tabWfFrom, Bool.and_eq_true] at w
    by_cases he : i = k
    · subst he
      cases t with
      | nil => simp [tabInsert, tabErase]
      | cons q t =>
        obtain ⟨j, y⟩ := q
        have hlt : i < j := by
          have := w.2
          simp only [tabWfFrom, Bool.and_eq_true, decide_eq_true_eq] at this
          omega
        simp [tabInsert, tabErase, hlt]
    · by_cases hlt : i < k
      · have hgone : tabErase t i = t := tabErase_of_find (tabFind_below t w.2 (by omega))
        simp [tabInsert, tabErase, hlt, he, hgone]
      · simp [tabInsert, tabErase, hlt, he, ih w.2]

/-- The second of two writes of a key counts, in a canonical table whatever the values. -/
theorem tabSet_set_wf (i : Nat) (v u : β) (w : tabWf d t = true) : tabSet d (tabSet d t i v) i u = tabSet d t i u := by
  by_cases hv : v = d
  · have hgone : tabErase (tabErase t i) i = tabErase t i := tabErase_of_find (tabFind_erase_self t i w)
    by_cases hu : u = d
    · simp [tabSet, hv, hu, hgone]
    · simp [tabSet, hv, hu, tabInsert_erase i u w]
  · by_cases hu : u = d
    · simp [tabSet, hv, hu, tabErase_insert i v w]
    · exact tabSet_set t i hv hu

end

/-- Two writes of one nib. -/
theorem setNib_setNib {s : State} (w : tabWf Nib.cold s.nibs = true) (nib : Nat) (a b : Nib) :
    setNib nib b (setNib nib a s) = setNib nib b s := congrArg (fun t => { s with nibs := t }) (tabSet_set_wf nib a b w)

/-! ## Fields of numbers -/

theorem testBit_bits (v : Nat) {hi lo : Nat} (i : Nat) : (bits v hi lo).testBit i = (decide (i < hi + 1 - lo) && v.testBit (lo + i)) := by
  rw [bits, Nat.testBit_mod_two_pow, Nat.testBit_div_two_pow, Nat.add_comm i]

/-- A number is what stands below, in and above a field; a field's write replaces the middle. -/
theorem putBits_parts (v x : Nat) {hi lo : Nat} (h : lo ≤ hi) :
    putBits v hi lo x = 2 ^ lo * (2 ^ (hi + 1 - lo) * (v / 2 ^ (hi + 1)) + x % 2 ^ (hi + 1 - lo)) + v % 2 ^ lo := by
  have hpow : 2 ^ (hi + 1) = 2 ^ lo * 2 ^ (hi + 1 - lo) := by rw [← Nat.pow_add]; congr 1; omega
  have hlow := Nat.div_add_mod v (2 ^ lo)
  have hmid := Nat.div_add_mod (v / 2 ^ lo) (2 ^ (hi + 1 - lo))
  rw [Nat.div_div_eq_div_mul, ← hpow] at hmid
  have hfield : v - bits v hi lo * 2 ^ lo = 2 ^ lo * (2 ^ (hi + 1 - lo) * (v / 2 ^ (hi + 1))) + v % 2 ^ lo := by
    refine Nat.sub_eq_of_eq_add ?_
    calc v = 2 ^ lo * (2 ^ (hi + 1 - lo) * (v / 2 ^ (hi + 1)) + v / 2 ^ lo % 2 ^ (hi + 1 - lo)) + v % 2 ^ lo := by rw [hmid, hlow]
      _ = _ := by rw [bits]; ring
  rw [putBits, hfield]
  ring

theorem testBit_putBits (v x : Nat) {hi lo : Nat} (h : lo ≤ hi) (i : Nat) :
    (putBits v hi lo x).testBit i = if lo ≤ i ∧ i ≤ hi then x.testBit (i - lo) else v.testBit i := by
  rw [putBits_parts v x h, Nat.testBit_two_pow_mul_add _ (Nat.mod_lt _ (Nat.two_pow_pos _)),
    Nat.testBit_two_pow_mul_add _ (Nat.mod_lt _ (Nat.two_pow_pos _)), Nat.testBit_mod_two_pow, Nat.testBit_mod_two_pow,
    Nat.testBit_div_two_pow]
  by_cases hlow : i < lo
  · have hout : ¬(lo ≤ i ∧ i ≤ hi) := by omega
    simp only [hlow, hout, if_true, if_false, decide_true, Bool.true_and]
  · by_cases hin : i ≤ hi
    · have hoff : i - lo < hi + 1 - lo := by omega
      have hfield : lo ≤ i ∧ i ≤ hi := by omega
      simp only [hlow, hoff, hfield, and_self, if_true, if_false, decide_true, Bool.true_and]
    · have hoff : ¬i - lo < hi + 1 - lo := by omega
      have hout : ¬(lo ≤ i ∧ i ≤ hi) := by omega
      have hpos : i - lo - (hi + 1 - lo) + (hi + 1) = i := by omega
      simp only [hlow, hoff, hout, if_false, hpos]

/-! ## Lanes of a tile row (R132) -/

theorem testBit_lane (l : Lanes) (k i : Nat) : (lane l k).testBit i = (decide (i < 32) && l.toNat.testBit (32 * k + i)) := by
  have hwidth : 32 * k + 31 + 1 - 32 * k = 32 := by omega
  rw [lane, testBit_bits, hwidth]

theorem bits_foldr_words {vs : List Nat} {k : Nat} (hk : k < vs.length) :
    bits (vs.foldr (fun v acc => v % 2 ^ 32 + 2 ^ 32 * acc) 0) (32 * k + 31) (32 * k) = vs[k] % 2 ^ 32 := by
  induction vs generalizing k with
  | nil => exact absurd hk (Nat.not_lt_zero k)
  | cons v vs ih =>
    have hv : v % 2 ^ 32 < 2 ^ 32 := Nat.mod_lt _ (by decide)
    cases k with
    | zero => simp [bits]
    | succ k =>
      have hwidth (k : Nat) : 32 * k + 31 + 1 - 32 * k = 32 := by omega
      have hpow : 2 ^ (32 * (k + 1)) = 2 ^ 32 * 2 ^ (32 * k) := by rw [← Nat.pow_add]; congr 1; omega
      have h := ih (Nat.lt_of_succ_lt_succ hk)
      rw [bits, hwidth] at h ⊢
      rw [List.foldr_cons, hpow, ← Nat.div_div_eq_div_mul, Nat.add_mul_div_left _ _ (by decide), Nat.div_eq_of_lt hv, Nat.zero_add, h,
        List.getElem_cons_succ]

theorem bits_ofNat {w x hi lo : Nat} (h : hi < w) : bits (BitVec.ofNat w x).toNat hi lo = bits x hi lo := by
  rw [BitVec.toNat_ofNat, bits_mod_two_pow x h]

theorem lane_packLanes {vs : List Nat} {k : Nat} (hk : k < vs.length) (h64 : k < 64) : lane (packLanes vs) k = vs[k] % 2 ^ 32 := by
  rw [lane, packLanes, bits_ofNat (by omega), bits_foldr_words hk]

/-- Columns of one array are the popped tile's, the others stay. -/
theorem lane_patchLanes (l : Lanes) (a : Nat) (v : BitVec 512) {k : Nat} (h64 : k < 64) : lane (patchLanes l a v) k =
    if 16 * a ≤ k ∧ k < 16 * a + 16 then bits v.toNat (32 * (k - 16 * a) + 31) (32 * (k - 16 * a)) else lane l k := by
  refine Nat.eq_of_testBit_eq fun i => ?_
  rw [testBit_lane, patchLanes, BitVec.toNat_ofNat, Nat.testBit_mod_two_pow _ 2048, testBit_putBits _ _ (by omega)]
  by_cases hi : i < 32
  · have hin : 32 * k + i < 2048 := by omega
    by_cases hk : 16 * a ≤ k ∧ k < 16 * a + 16
    · have hfield : 512 * a ≤ 32 * k + i ∧ 32 * k + i ≤ 512 * a + 511 := by omega
      have hpos : 32 * k + i - 512 * a = 32 * (k - 16 * a) + i := by omega
      have hoff : i < 32 * (k - 16 * a) + 31 + 1 - 32 * (k - 16 * a) := by omega
      rw [if_pos hfield, if_pos hk, testBit_bits, hpos]
      simp only [hi, hin, hoff, decide_true, Bool.true_and]
    · have hout : ¬(512 * a ≤ 32 * k + i ∧ 32 * k + i ≤ 512 * a + 511) := by omega
      rw [if_neg hout, if_neg hk, testBit_lane]
      simp only [hi, hin, decide_true, Bool.true_and]
  · have hoff : ¬i < 32 * (k - 16 * a) + 31 + 1 - 32 * (k - 16 * a) := by omega
    rw [apply_ite (fun v => Nat.testBit v i), testBit_bits, testBit_lane]
    simp only [hi, hoff, decide_false, Bool.false_and, ite_self]

end Sys2Proof.Machine

/-! SUPPORT. The vector engine: the head of the vector queue, and what the element-wise instructions write. -/

namespace Sys2Proof.Machine

open Sys2Proof.Spec

/-! ## Tile registers (R132) -/

theorem setTiles_eq {α : Type} (reg row : α → Nat) (g : α → Lanes → Lanes) (xs : List α) (n : Nib) :
    xs.foldl (fun n x => n.setTile (reg x) (row x) (g x (n.tileRow (reg x) (row x)))) n =
      { n with tiles := tabUpdate 0 (fun x => 16 * reg x + row x) g xs n.tiles } := by
  induction xs generalizing n with
  | nil => rfl
  | cons x xs ih => rw [List.foldl_cons, ih]; rfl

/-- A nib whose tile register `dst` holds in its first rows what `v` gives for row and column. -/
def Nib.withTile (dst rows : Nat) (v : Nat → Nat → Nat) (n : Nib) : Nib :=
  (List.range rows).foldl (fun n r => n.setTile dst r (packLanes ((List.range 64).map (v r)))) n

section
variable {n : Nib} {dst rows : Nat} {v : Nat → Nat → Nat}

theorem withTile_eq : n.withTile dst rows v = { n with
    tiles := tabUpdate 0 (fun r => 16 * dst + r) (fun r _ => packLanes ((List.range 64).map (v r))) (List.range rows) n.tiles } :=
  setTiles_eq (fun _ => dst) id (fun r _ => packLanes ((List.range 64).map (v r))) (List.range rows) n

theorem tiles_withTile : (n.withTile dst rows v).tiles =
    tabUpdate 0 (fun r => 16 * dst + r) (fun r _ => packLanes ((List.range 64).map (v r))) (List.range rows) n.tiles := by
  rw [withTile_eq]

/-- The rows of a tile register have keys of their own. -/
theorem nodup_rowKeys (dst rows : Nat) : ((List.range rows).map (fun r => 16 * dst + r)).Nodup :=
  List.nodup_range.map fun _ _ h => Nat.add_left_cancel h

theorem tileRow_withTile_new (w : tabWf (0 : Lanes) n.tiles = true) {r : Nat} (hr : r < rows) :
    (n.withTile dst rows v).tileRow dst r = packLanes ((List.range 64).map (v r)) := by
  rw [Nib.tileRow, tiles_withTile]
  exact tabGet_tabUpdate (key := fun r => 16 * dst + r) w (nodup_rowKeys dst rows) (List.mem_range.mpr hr)

theorem tileRow_withTile_old {d r : Nat} (h : ∀ k, k < rows → 16 * dst + k ≠ 16 * d + r) :
    (n.withTile dst rows v).tileRow d r = n.tileRow d r := by
  rw [Nib.tileRow, tiles_withTile, tabGet_tabUpdate_other fun k hk => h k (List.mem_range.mp hk), Nib.tileRow]

theorem lane_withTile (w : tabWf (0 : Lanes) n.tiles = true) {r k : Nat} (hk : k < 64) :
    lane ((n.withTile dst rows v).tileRow dst r) k = if r < rows then v r k % 2 ^ 32 else lane (n.tileRow dst r) k := by
  by_cases hr : r < rows
  · rw [if_pos hr, tileRow_withTile_new w hr, lane_packLanes (by simpa using hk) hk]
    simp
  · rw [if_neg hr, tileRow_withTile_old fun j hj => by omega]

end

/-! ## The head of the queue (R144, R153) -/

section
variable {s t : State} {nib : Fin 1024} {e : VecEntry} {rest : List VecEntry} {o : Nat}

theorem popVx_of_vecHead (h : vecHead s nib.val e rest o) : popVx (getNib s nib.val) = { getNib s nib.val with vq := rest } := by
  obtain ⟨-, hvq, -⟩ := h
  rw [popVx, hvq]
  rfl

/-- The command of the head's opcode carries it out; an instruction of zero rows only leaves the queue. -/
theorem vxRow_of_vecHead {body : Nat → VecEntry → State → State} (h : vecHead s nib.val e rest o) (ho : 0x60 ≤ o ∧ o ≤ 0x78) :
    vxRow o body nib [] s = .next (if vxEmpty e.word then modNib nib.val popVx s else body nib.val e s) := by
  obtain ⟨hruns, hvq, hop, hwait, hreason, w, -⟩ := h
  have hupset : modNib nib.val (fun n => n.upset []) s = s := setNib_getNib w nib.val
  unfold vxRow
  dsimp only
  rw [hruns, hvq]
  dsimp only
  rw [if_neg (by omega), if_neg (by simp [hop, hwait]), if_neg (by simp [hreason]), hupset, apply_ite Host.Outcome.next]

/-- A legal instruction has at most 16 rows. -/
theorem vxRows_of_vecHead (h : vecHead s nib.val e rest o) (hpop : o ≠ 0x74) (hload : o ≠ 0x78) : vxRows e.word ≤ 16 := by
  obtain ⟨-, -, hop, -, hreason, -⟩ := h
  unfold vxReason at hreason
  rw [hop] at hreason
  by_contra hbig
  rw [if_pos ⟨by omega, hpop, hload⟩] at hreason
  exact absurd hreason (by decide)

theorem vxEmpty_iff (h : vecHead s nib.val e rest o) (hpop : o ≠ 0x74) (hload : o ≠ 0x78) : vxEmpty e.word = true ↔ vxRows e.word = 0 := by
  obtain ⟨-, -, hop, -⟩ := h
  simp [vxEmpty, hop, hpop, hload]

/-- An instruction of some rows is carried out. -/
theorem vxRow_of_rows {body : Nat → VecEntry → State → State} (h : vecHead s nib.val e rest o) (ho : 0x60 ≤ o ∧ o ≤ 0x78)
    (hrows : vxEmpty e.word = false) : vxRow o body nib [] s = .next (body nib.val e s) := by
  rw [vxRow_of_vecHead h ho, hrows]
  rfl

/-- The nib once its tile flags are noted; they are reported. -/
theorem notes_vecFlags (h : vecHead s nib.val e rest o) (pc : Nat) (ovf nf : Bool) (n : Nib) :
    Notes (setNib nib.val (n.flag ovf nf) s) (vecFlags nib.val pc ovf nf (setNib nib.val n s)) := by
  obtain ⟨hruns, -, -, -, -, w, -⟩ := h
  have hmod : modNib nib.val (fun n => n.flag ovf nf) (setNib nib.val n s) = setNib nib.val (n.flag ovf nf) s := by
    rw [modNib, getNib_setNib w, setNib_setNib w]
  have hruns' : nibRuns (setNib nib.val (n.flag ovf nf) s) nib.val = true := hruns
  rw [vecFlags, hmod]
  exact (Notes.refl _).noteFlags hruns' pc ovf nf

theorem flag_none (n : Nib) : n.flag false false = n := by
  unfold Nib.flag
  rw [Bool.or_false, Bool.or_false]

/-- Whose nib's tile register DST was written and its flags noted, has done a vector instruction. -/
theorem tileDone_of_notes (h : vecHead s nib.val e rest o) {dst rows : Nat} {v : Nat → Nat → Nat} {ovf nf : Bool} (hrows : rows ≤ 16)
    (hn : Notes (setNib nib.val (((popVx (getNib s nib.val)).withTile dst rows v).flag ovf nf) s) t) :
    tileDone s t nib.val rest dst rows v ∧ (getNib t nib.val).tileNf = ((getNib s nib.val).tileNf || nf) ∧
      (getNib t nib.val).tileOvf = ((getNib s nib.val).tileOvf || ovf) := by
  have hpop := popVx_of_vecHead h
  obtain ⟨-, -, -, -, -, w, wt⟩ := h
  have wpop : tabWf (0 : Lanes) (popVx (getNib s nib.val)).tiles = true := wt
  have hnib : getNib t nib.val = ((popVx (getNib s nib.val)).withTile dst rows v).flag ovf nf := by rw [hn.getNib, getNib_setNib w]
  have htiles (d r : Nat) : (getNib t nib.val).tileRow d r = ((popVx (getNib s nib.val)).withTile dst rows v).tileRow d r := by rw [hnib]; rfl
  have hfields : ((popVx (getNib s nib.val)).withTile dst rows v).flag ovf nf = { getNib s nib.val with
      vq := rest, tiles := (getNib t nib.val).tiles, tileOvf := (getNib t nib.val).tileOvf, tileNf := (getNib t nib.val).tileNf } := by
    rw [hnib, withTile_eq, hpop]
    rfl
  refine ⟨⟨hfields ▸ onlyNib_of_notes w hn, fun r k _ hk => ?_, fun d r hd hr => ?_⟩, ?_, ?_⟩
  · rw [htiles, lane_withTile wpop hk]
    rfl
  · rw [htiles, tileRow_withTile_old fun k hk => by omega]
    rfl
  · rw [hnib, withTile_eq]
    rfl
  · rw [hnib, withTile_eq]
    rfl

/-- An instruction of zero rows writes no row and raises no flag. -/
theorem tileDone_of_noRows (h : vecHead s nib.val e rest o) (dst : Nat) (v : Nat → Nat → Nat) :
    tileDone s (modNib nib.val popVx s) nib.val rest dst 0 v ∧ (getNib (modNib nib.val popVx s) nib.val).tileNf = (getNib s nib.val).tileNf ∧
      (getNib (modNib nib.val popVx s) nib.val).tileOvf = (getNib s nib.val).tileOvf := by
  have hn : Notes (setNib nib.val (((popVx (getNib s nib.val)).withTile dst 0 v).flag false false) s) (modNib nib.val popVx s) := by
    rw [flag_none]
    exact Notes.refl _
  simpa only [Bool.or_false] using tileDone_of_notes h (Nat.zero_le 16) hn

/-! ## Element-wise instructions (R133, R134, R136) -/

theorem runElem_notes {f : Nib → Nat → Nat → Nat → Nat → LaneOut} (h : vecHead s nib.val e rest o) :
    Notes (setNib nib.val (((popVx (getNib s nib.val)).withTile (vxDst e.word) (vxRows e.word) fun r k =>
          (elemAt (getNib s nib.val) e.word (f (getNib s nib.val) e.word) r k).1).flag false
        (((List.range (vxRows e.word)).map (fun r => (r, elemRow (f (getNib s nib.val) e.word) (getNib s nib.val) e.word r))).any
          (fun p => p.2.any badElem))) s)
      (runElem f nib.val e s) := by
  have hrows := notes_vecFlags h e.pc false
    (((List.range (vxRows e.word)).map (fun r => (r, elemRow (f (getNib s nib.val) e.word) (getNib s nib.val) e.word r))).any
      (fun p => p.2.any badElem))
    ((popVx (getNib s nib.val)).withTile (vxDst e.word) (vxRows e.word) fun r k =>
      (elemAt (getNib s nib.val) e.word (f (getNib s nib.val) e.word) r k).1)
  have htile : (popVx (getNib s nib.val)).withTile (vxDst e.word) (vxRows e.word)
      (fun r k => (elemAt (getNib s nib.val) e.word (f (getNib s nib.val) e.word) r k).1) =
      ((List.range (vxRows e.word)).map (fun r => (r, elemRow (f (getNib s nib.val) e.word) (getNib s nib.val) e.word r))).foldl
        (fun n p => n.setTile (vxDst e.word) p.1 (packLanes (p.2.map (fun x => x.1)))) (popVx (getNib s nib.val)) := by
    rw [List.foldl_map, Nib.withTile]
    simp only [elemRow, List.map_map]
    rfl
  rw [htile] at hrows ⊢
  exact hrows

theorem badRows_iff {f : Nat → Nat → Nat → LaneOut} {n : Nib} {w : Nat} :
    ((List.range (vxRows w)).map (fun r => (r, elemRow f n w r))).any (fun p => p.2.any badElem) = true ↔
      ∃ r k, r < vxRows w ∧ k < 64 ∧ badElem (elemAt n w f r k) = true := by
  simp only [List.any_map, List.any_eq_true, List.mem_range, Function.comp, elemRow]
  constructor
  · rintro ⟨r, hr, k, hk, hbad⟩
    exact ⟨r, k, hr, hk, hbad⟩
  · rintro ⟨r, k, hr, hk, hbad⟩
    exact ⟨r, hr, k, hk, hbad⟩

theorem runElem_done {f : Nib → Nat → Nat → Nat → Nat → LaneOut} (h : vecHead s nib.val e rest o) (ho : 0x60 ≤ o ∧ o ≤ 0x71) :
    ∃ t, vxRow o (runElem f) nib [] s = .next t ∧
      tileDone s t nib.val rest (vxDst e.word) (vxRows e.word) (fun r k =>
        (elemAt (getNib s nib.val) e.word (f (getNib s nib.val) e.word) r k).1) ∧
      ((getNib t nib.val).tileNf = true ↔ (getNib s nib.val).tileNf = true ∨
        ∃ r k, r < vxRows e.word ∧ k < 64 ∧ badElem (elemAt (getNib s nib.val) e.word (f (getNib s nib.val) e.word) r k) = true) ∧
      (getNib t nib.val).tileOvf = (getNib s nib.val).tileOvf := by
  have hempty := vxEmpty_iff h (by omega) (by omega)
  rw [vxRow_of_vecHead h (by omega)]
  by_cases hrows : vxRows e.word = 0
  · obtain ⟨htile, hnf, hovf⟩ := tileDone_of_noRows h (vxDst e.word) fun r k =>
      (elemAt (getNib s nib.val) e.word (f (getNib s nib.val) e.word) r k).1
    refine ⟨_, by rw [if_pos (hempty.mpr hrows)], hrows ▸ htile, ?_, hovf⟩
    rw [hnf, hrows]
    simp only [Nat.not_lt_zero, false_and, exists_false, or_false]
  · obtain ⟨htile, hnf, hovf⟩ := tileDone_of_notes h (vxRows_of_vecHead h (by omega) (by omega)) (runElem_notes h)
    refine ⟨_, by rw [if_neg (fun he => hrows (hempty.mp he))], htile, ?_, by rw [hovf, Bool.or_false]⟩
    rw [hnf, Bool.or_eq_true, badRows_iff]

end

/-- The element-wise commands of the opcodes 0x60 to 0x70 but VFN, with their functions. -/
def elemCommands (nib : Fin 1024) : List (Instr × Nat × (Nat → Nat → Nat → LaneOut)) :=
  [(.vadd nib, 0x60, elem2 fadd), (.vsub nib, 0x61, elem2 fsub), (.vmul nib, 0x62, elem2 fmul), (.vfma nib, 0x63, elem3 ffma),
    (.vmax nib, 0x64, elem2 fmaxp), (.vmin nib, 0x65, elem2 fminp), (.vabs nib, 0x66, elem1 fabs), (.vneg nib, 0x67, elem1 fneg),
    (.vrcp nib, 0x68, elem1 frcp), (.vsqrt nib, 0x69, elem1 fsqrt), (.vrsqrt nib, 0x6A, elem1 frsqrt), (.vexp2 nib, 0x6B, elem1 fexp2),
    (.vlog2 nib, 0x6C, elem1 flog2), (.vcmplt nib, 0x6D, elem2 fcmplt), (.vsel nib, 0x6E, elem3 fsel), (.vmov nib, 0x70, elem1 fcopy)]

theorem exec_elemCommands (nib : Fin 1024) (s : State) :
    ∀ p ∈ elemCommands nib, (0x60 ≤ p.2.1 ∧ p.2.1 ≤ 0x71) ∧ exec p.1 s = vxRow p.2.1 (runElem fun _ _ => p.2.2) nib [] s := by
  simp only [elemCommands, List.forall_mem_cons, List.not_mem_nil, false_imp_iff, implies_true, and_true]
  refine ⟨⟨by decide, rfl⟩, ⟨by decide, rfl⟩, ⟨by decide, rfl⟩, ⟨by decide, rfl⟩, ⟨by decide, rfl⟩, ⟨by decide, rfl⟩, ⟨by decide, rfl⟩,
    ⟨by decide, rfl⟩, ⟨by decide, rfl⟩, ⟨by decide, rfl⟩, ⟨by decide, rfl⟩, ⟨by decide, rfl⟩, ⟨by decide, rfl⟩, ⟨by decide, rfl⟩,
    ⟨by decide, rfl⟩, ⟨by decide, rfl⟩⟩

theorem execVrng_done {s : State} {nib : Fin 1024} {e : VecEntry} {rest : List VecEntry} (h : vecHead s nib.val e rest 0x71) :
    Answers (.vrng nib) s (setNib nib.val ((popVx (getNib s nib.val)).withTile (vxDst e.word) (vxRows e.word) fun r k =>
      round32 (.fin false (bits (tileSpatter (spatterKey s nib.val) e.word r k) 31 8) (-24))) s) := by
  have hempty := vxEmpty_iff h (by omega) (by omega)
  change vxRow 0x71 runVrng nib [] s = _
  rw [vxRow_of_vecHead h (by omega)]
  by_cases hrows : vxRows e.word = 0
  · rw [if_pos (hempty.mpr hrows), hrows]
    rfl
  · rw [if_neg (fun he => hrows (hempty.mp he))]
    rfl

/-- Settles O52: a command of the list runs `runElem` of its function, VFN of the table's value at the element; VRNG writes the numbers of
its stream. -/
theorem vectorElements : Obligations.VectorElements := by
  unfold Obligations.VectorElements
  rintro s nib n e rest rfl
  refine ⟨fun c o f hmem h => ?_, fun h => ?_⟩
  · have hsplit : (c, o, f) ∈ elemCommands nib ∨
        (c, o, f) = (.vfn nib, 0x6F, fun a _ _ => fnValue (((getNib s nib.val).fnTable e.word).getD []) a) := by
      rw [← List.mem_singleton, ← List.mem_append]
      exact hmem
    obtain hmem | hvfn := hsplit
    · obtain ⟨ho, hexec⟩ := exec_elemCommands nib s _ hmem
      obtain ⟨t, ht, hdone⟩ := runElem_done (f := fun _ _ => f) h ho
      exact ⟨t, hexec.trans ht, hdone⟩
    · cases hvfn
      exact runElem_done (f := fun n w a _ _ => fnValue ((n.fnTable w).getD []) a) h (by decide)
  · have hnotes (m : Nib) : Notes (setNib nib.val (m.flag false false) s) (setNib nib.val m s) := by
      rw [flag_none]
      exact Notes.refl _
    exact ⟨_, execVrng_done h, rfl, (tileDone_of_notes h (vxRows_of_vecHead h (by omega) (by omega)) (hnotes _)).1⟩

end Sys2Proof.Machine

/-! SUPPORT. The vector engine: transfers, reductions and summaries. -/

namespace Sys2Proof.Machine

open Sys2Proof.Spec

/-! ## Loads and stores (R139, R140, R150) -/

section
variable {s : State} {nib : Fin 1024} {e : VecEntry} {rest : List VecEntry}

theorem loadTile_notes {o : Nat} (h : vecHead s nib.val e rest o) (rows : List (Nat × Row)) : ∃ nf,
    Notes (setNib nib.val (((popVx (getNib s nib.val)).withTile (vxDst e.word) (vxRows e.word) fun r k =>
        (widen (tileValue e.word rows rows (if vxBrow e.word then 0 else r) k)).bits).flag false nf) s)
      (loadTile nib.val e rows s) := by
  have htile : (popVx (getNib s nib.val)).withTile (vxDst e.word) (vxRows e.word)
      (fun r k => (widen (tileValue e.word rows rows (if vxBrow e.word then 0 else r) k)).bits) =
      ((List.range (vxRows e.word)).map (fun r => (r, (List.range 64).map (fun c =>
        widen (tileValue e.word rows rows (if vxBrow e.word then 0 else r) c))))).foldl
        (fun n p => n.setTile (vxDst e.word) p.1 (packLanes (p.2.map (fun x => x.bits)))) (popVx (getNib s nib.val)) := by
    rw [List.foldl_map, Nib.withTile]
    simp only [List.map_map]
    rfl
  rw [htile]
  exact ⟨_, notes_vecFlags h e.pc false _ _⟩

theorem vld_loads {ds : List Row} (h : vecHead s nib.val e rest 0x72) (hread : (getNib s nib.val).readRows (vxReads e.word) = .ok ds) :
    ∃ t, Answers (.vld nib []) s t ∧ tileDone s t nib.val rest (vxDst e.word) (vxRows e.word) fun r k =>
      (widen (tileValue e.word ((vxReads e.word).zip ds) ((vxReads e.word).zip ds) (if vxBrow e.word then 0 else r) k)).bits := by
  have hempty := vxEmpty_iff h (by omega) (by omega)
  by_cases hrows : vxRows e.word = 0
  · refine ⟨_, ?_, hrows ▸ (tileDone_of_noRows h (vxDst e.word) _).1⟩
    change vxRow 0x72 runVld nib [] s = _
    rw [vxRow_of_vecHead h (by omega), if_pos (hempty.mpr hrows)]
  · obtain ⟨nf, hnotes⟩ := loadTile_notes h ((vxReads e.word).zip ds)
    refine ⟨_, ?_, (tileDone_of_notes h (vxRows_of_vecHead h (by omega) (by omega)) hnotes).1⟩
    change vxRow 0x72 runVld nib [] s = _
    rw [vxRow_of_vecHead h (by omega), if_neg (fun he => hrows (hempty.mp he)), runVld, hread]

theorem vtload_loads {ds : List Row} (h : vecHead s nib.val e rest 0x78) (hread : (getNib s nib.val).readRows (vxReads e.word) = .ok ds) :
    Answers (.vtload nib []) s (modNib nib.val
      (fun n => if wb e.word 1 12 then { popVx n with fn1 := some ds } else { popVx n with fn0 := some ds }) s) := by
  obtain ⟨-, -, hop, -⟩ := id h
  change vxRow 0x78 runVtload nib [] s = _
  rw [vxRow_of_rows h (by omega) (by simp [vxEmpty, hop]), runVtload, hread]

theorem vstRows_nodup (w : Nat) : (vstRows w).Nodup := by
  unfold vstRows
  split
  · exact List.nodup_nil
  · exact List.nodup_range.map fun _ _ h => Nat.add_left_cancel h

theorem row_writeRows_other {n : Nib} {ps : List (Nat × Row)} {q : Nat} (h : ∀ p ∈ ps, p.1 ≠ q) : (n.writeRows ps).row q = n.row q := by
  induction ps generalizing n with
  | nil => rfl
  | cons p ps ih =>
    rw [Nib.writeRows, List.foldl_cons, ← Nib.writeRows, ih fun p' hp' => h p' (List.mem_cons_of_mem p hp'),
      row_writeRow_ne p.2 (Ne.symm (h p List.mem_cons_self))]

/-- The rows that a VST without a scale row or stochastic rounding writes, with their data. -/
def storedRows (s : State) (nib : Nat) (w : Nat) : List (Nat × Row) :=
  (vstRows w).map fun r => (r, rowOfFields (storeTile w (getNib s nib) (fp8Sat s) false (spatterKey s nib)).data r)

theorem vst_stores (h : vecHead s nib.val e rest 0x73) (hscale : vxScaleRows e.word = []) (hsr : vxSr e.word = false ∨ vxFmt e.word = 0)
    (hrows : vxRows e.word ≠ 0) : ∃ nf t, Answers (.vst nib []) s t ∧
      Notes (setNib nib.val ((popVx ((getNib s nib.val).writeRows (storedRows s nib.val e.word))).flag false nf) s) t := by
  have hempty : vxEmpty e.word = false := by
    rw [← Bool.not_eq_true, vxEmpty_iff h (by omega) (by omega)]
    exact hrows
  obtain ⟨-, -, -, -, -, w, -⟩ := id h
  have hwant : wantSr nib.val e.pc (vxSr e.word && vxFmt e.word != 0) s = (false, s) := by
    obtain hsr | hfmt := hsr
    · simp [wantSr, hsr]
    · simp [wantSr, hfmt]
  have hrun : runVst nib.val e s = vecFlags nib.val e.pc false
      (storeTile e.word (getNib s nib.val) (fp8Sat s) false (spatterKey s nib.val)).nf
      (setNib nib.val (popVx ((getNib s nib.val).writeRows (storedRows s nib.val e.word))) s) := by
    unfold runVst
    dsimp only
    rw [hwant]
    dsimp only
    rw [hscale, readRowsBy]
    dsimp only
    rw [modNib, getNib_setNib w, setNib_setNib w, Nib.writeRows, storedRows, List.foldl_map]
    rfl
  have hexec : Answers (.vst nib []) s (runVst nib.val e s) := vxRow_of_rows h (by omega) hempty
  exact ⟨_, _, hrun ▸ hexec, notes_vecFlags h e.pc false _ _⟩

/-! ## VPOP (R145) -/

theorem nodup_popKeys {α : Type} (dst : Nat) (xs : List α) : (xs.zipIdx.map (fun p => 16 * (dst + p.2 / 16) + p.2 % 16)).Nodup := by
  have hkeys : xs.zipIdx.map (fun p => 16 * (dst + p.2 / 16) + p.2 % 16) = (xs.zipIdx.map Prod.snd).map (fun j => 16 * dst + j) := by
    rw [List.map_map]
    refine List.map_congr_left fun p _ => ?_
    dsimp only [Function.comp]
    omega
  rw [hkeys, List.zipIdx_map_snd]
  exact (List.nodup_range' ..).map fun _ _ h => Nat.add_left_cancel h

/-- A popped tile's rows in the columns of its array, from tile register `dst` on. -/
def popTile (dst : Nat) (tile : Tile) (t : Tab Lanes) : Tab Lanes :=
  tabUpdate 0 (fun p => 16 * (dst + p.2 / 16) + p.2 % 16) (fun p l => patchLanes l tile.array p.1) tile.rows.zipIdx t

theorem vpop_pops {tile : Tile} {more : List Tile} (h : vecHead s nib.val e rest 0x74) (hftq : (getNib s nib.val).ftq = tile :: more) :
    Answers (.vpop nib) s (setNib nib.val { getNib s nib.val with
      vq := rest, ftq := more, tiles := popTile (vxDst e.word) tile (getNib s nib.val).tiles,
      tileOvf := (getNib s nib.val).tileOvf || tile.ovf, tileNf := (getNib s nib.val).tileNf || tile.nf } s) := by
  obtain ⟨-, -, hop, -⟩ := id h
  change vxRow 0x74 runVpop nib [] s = _
  rw [vxRow_of_rows h (by omega) (by simp [vxEmpty, hop]), runVpop, modNib, hftq]
  dsimp only
  rw [setTiles_eq (fun p : BitVec 512 × Nat => vxDst e.word + p.2 / 16) (fun p => p.2 % 16) (fun p l => patchLanes l tile.array p.1),
    popVx_of_vecHead h]
  rfl

theorem lane_popTile {dst : Nat} {tile : Tile} {t : Tab Lanes} (w : tabWf (0 : Lanes) t = true) {j k : Nat} {v : BitVec 512}
    (hj : tile.rows[j]? = some v) (hk : k < 64) : lane (tabGet 0 (popTile dst tile t) (16 * (dst + j / 16) + j % 16)) k =
      if 16 * tile.array ≤ k ∧ k < 16 * tile.array + 16 then bits v.toNat (32 * (k - 16 * tile.array) + 31) (32 * (k - 16 * tile.array))
      else lane (tabGet 0 t (16 * (dst + j / 16) + j % 16)) k := by
  have hrow : tabGet 0 (popTile dst tile t) (16 * (dst + j / 16) + j % 16) =
      patchLanes (tabGet 0 t (16 * (dst + j / 16) + j % 16)) tile.array v :=
    tabGet_tabUpdate (key := fun p : BitVec 512 × Nat => 16 * (dst + p.2 / 16) + p.2 % 16) (x := (v, j)) w (nodup_popKeys dst tile.rows)
      (List.mem_zipIdx_iff_getElem?.mpr hj)
  rw [hrow, lane_patchLanes _ _ _ hk]

end

/-! ## Reductions (R147 to R149) -/

section
variable {s : State} {nib : Fin 1024} {e : VecEntry} {rest : List VecEntry} {byRow : Bool} {n : Nib} {w : Nat}

theorem redInputs_eq : redInputs byRow n w = (List.range (if byRow then vxRows w else 64)).map (fun i =>
    (i, if byRow then (List.range 64).map (fun c => lane (n.tileRow (vxA w) i) c)
      else (List.range (vxRows w)).map (fun r => lane (n.tileRow (vxA w) r) i))) := by
  unfold redInputs
  cases byRow <;> rfl

theorem redInputs_keys : (redInputs byRow n w).map Prod.fst = List.range (if byRow then vxRows w else 64) := by
  rw [redInputs_eq, List.map_map]
  exact List.map_id' _

/-- The index of an entry is its place. -/
theorem redInputs_getElem {p : Nat × List Nat} (hp : p ∈ redInputs byRow n w) :
    p.1 < (if byRow then vxRows w else 64) ∧ (redInputs byRow n w)[p.1]? = some p := by
  rw [redInputs_eq] at hp ⊢
  obtain ⟨i, hi, rfl⟩ := List.mem_map.mp hp
  have hlt := List.mem_range.mp hi
  exact ⟨hlt, by rw [List.getElem?_map, List.getElem?_range hlt]; rfl⟩

/-- The results, in their order. -/
def redResults (byRow : Bool) (start : Nat → RedEntry) (n : Nib) (w : Nat) : List ReadOut :=
  (redInputs byRow n w).map (fun p => ((start p.1).addAll w p.2).result w)

/-- The accumulators once an instruction's elements are in. -/
def redAdded (byRow : Bool) (start : Nat → RedEntry) (n : Nib) (w : Nat) : Tab RedEntry :=
  tabUpdate RedEntry.zero Prod.fst (fun p _ => (start p.1).addAll w p.2) (redInputs byRow n w) n.red

theorem setReds_eq (f : Nat × List Nat → RedEntry) (xs : List (Nat × List Nat)) (m : Nib) :
    (xs.map (fun p => (p.1, f p))).foldl (fun n p => n.setRed p.1 p.2) m =
      { m with red := tabUpdate RedEntry.zero Prod.fst (fun p _ => f p) xs m.red } := by
  rw [List.foldl_map]
  induction xs generalizing m with
  | nil => rfl
  | cons x xs ih => rw [List.foldl_cons, ih]; rfl

theorem redAdded_entry {start : Nat → RedEntry} (wr : tabWf RedEntry.zero n.red = true) {p : Nat × List Nat} (hp : p ∈ redInputs byRow n w) :
    tabGet RedEntry.zero (redAdded byRow start n w) p.1 = (start p.1).addAll w p.2 :=
  tabGet_tabUpdate wr (by rw [redInputs_keys]; exact List.nodup_range) hp

theorem redResults_getD {start : Nat → RedEntry} {p : Nat × List Nat} (hp : p ∈ redInputs byRow n w) :
    ((redResults byRow start n w).map (fun r => r.bits)).getD p.1 0 = (((start p.1).addAll w p.2).result w).bits := by
  rw [redResults, List.getD_eq_getElem?_getD, List.getElem?_map, List.getElem?_map, (redInputs_getElem hp).2]
  rfl

theorem redResults_length {start : Nat → RedEntry} :
    ((redResults byRow start n w).map (fun r => r.bits)).length = if byRow then vxRows w else 64 := by
  rw [redResults, List.length_map, List.length_map, redInputs_eq, List.length_map, List.length_range]

theorem zipIdx_eq_range {α : Type} (d : α) (xs : List α) : xs.zipIdx = (List.range xs.length).map (fun i => (xs.getD i d, i)) := by
  refine List.ext_getElem (by simp) fun i h _ => ?_
  have hi : i < xs.length := by simpa using h
  simp [hi]

/-- A row's result fills the row, a column's result the column. -/
theorem writeReds_eq {rs : List Nat} (hlen : rs.length = if byRow then vxRows w else 64) :
    writeReds byRow w rs n = n.withTile (vxDst w) (if byRow then vxRows w else 16) (fun r k => rs.getD (if byRow then r else k) 0) := by
  unfold writeReds Nib.withTile
  cases byRow with
  | true =>
    have hrow (x : Nat) : List.replicate 64 x = (List.range 64).map (fun _ => x) := by rw [List.map_const', List.length_range]
    simp only [if_true] at hlen ⊢
    rw [zipIdx_eq_range 0 rs, List.foldl_map, hlen]
    simp only [hrow]
  | false =>
    have hcols : (List.range 64).map (fun k => rs.getD k 0) = rs := by
      refine List.ext_getElem (by simpa using hlen.symm) fun i h hi => ?_
      simp [hi]
    simp only [Bool.false_eq_true, if_false, hcols]

/-- The nib of a reduction, whose accumulators and whose tile registers are written as the mode says. -/
def Nib.reduced (byRow : Bool) (start : Nat → RedEntry) (w : Nat) (n : Nib) : Nib :=
  let m : Nib := if redMode w = 0 then popVx n else { popVx n with red := redAdded byRow start n w }
  if redMode w = 1 then m
  else m.withTile (vxDst w) (if byRow then vxRows w else 16) (fun r k =>
    ((redResults byRow start n w).map (fun r => r.bits)).getD (if byRow then r else k) 0)

theorem reduced_red {start : Nat → RedEntry} :
    (n.reduced byRow start w).red = if redMode w = 0 then n.red else redAdded byRow start n w := by
  unfold Nib.reduced
  dsimp only
  rw [withTile_eq]
  split
  · split <;> rfl
  · split <;> rfl

theorem reduced_frame {start : Nat → RedEntry} : n.reduced byRow start w = { popVx n with
    red := (n.reduced byRow start w).red, tiles := (n.reduced byRow start w).tiles } := by
  unfold Nib.reduced
  dsimp only
  rw [withTile_eq]
  split
  · split <;> rfl
  · split <;> rfl

theorem reduced_tiles {start : Nat → RedEntry} (hmode : redMode w = 1) : (n.reduced byRow start w).tiles = n.tiles := by
  unfold Nib.reduced
  rw [if_pos hmode, if_neg (by omega)]
  rfl

theorem lane_reduced {start : Nat → RedEntry} (wt : tabWf (0 : Lanes) n.tiles = true) (hmode : redMode w ≠ 1) {p : Nat × List Nat}
    (hp : p ∈ redInputs byRow n w) {j : Nat} (hj : if byRow then j < 64 else j < 16) :
    lane ((n.reduced byRow start w).tileRow (vxDst w) (if byRow then p.1 else j)) (if byRow then j else p.1) =
      (((start p.1).addAll w p.2).result w).bits % 2 ^ 32 := by
  obtain ⟨hp1, -⟩ := redInputs_getElem hp
  have hres := redResults_getD (start := start) hp
  unfold Nib.reduced
  dsimp only
  rw [if_neg hmode]
  have wm : tabWf (0 : Lanes) (if redMode w = 0 then popVx n else { popVx n with red := redAdded byRow start n w }).tiles = true := by
    split <;> exact wt
  cases byRow with
  | true =>
    simp only [if_true] at hj hp1 ⊢
    rw [lane_withTile wm hj, if_pos hp1, hres]
  | false =>
    simp only [Bool.false_eq_true, if_false] at hj hp1 ⊢
    rw [lane_withTile wm hp1, if_pos hj, hres]

/-- A reduction whose elements its entries take writes the nib and reports the results' flags. -/
theorem runRed_notes {start : Nat → RedEntry} (h : vecHead s nib.val e rest (if byRow then 0x75 else 0x76))
    (hstart : ∀ i, start i = if redMode e.word = 0 ∨ redClr e.word = true then RedEntry.clear else (getNib s nib.val).redEntry i)
    (hcheck : redCheck e.word ((redInputs byRow (getNib s nib.val) e.word).map (fun p => (start p.1, p.2.length))) = none) :
    ∃ ovf nf, Notes (setNib nib.val (((getNib s nib.val).reduced byRow start e.word).flag ovf nf) s) (runRed byRow nib.val e s) := by
  have hres : ((redInputs byRow (getNib s nib.val) e.word).map (fun p => (p.1, (start p.1).addAll e.word p.2))).map
      (fun p => p.2.result e.word) = redResults byRow start (getNib s nib.val) e.word := List.map_map
  unfold runRed Nib.reduced
  dsimp only
  simp only [← hstart]
  rw [hcheck]
  dsimp only
  rw [setReds_eq, hres, writeReds_eq redResults_length]
  by_cases hmode : redMode e.word = 1
  · refine ⟨false, false, ?_⟩
    rw [if_pos hmode, flag_none, if_pos hmode]
    exact Notes.refl _
  · rw [if_neg hmode, if_neg hmode]
    exact ⟨_, _, notes_vecFlags h e.pc _ _ _⟩

theorem red_reduces (h : vecHead s nib.val e rest (if byRow then 0x75 else 0x76)) (hrows : vxRows e.word ≠ 0) :
    Answers (if byRow then .vredr nib else .vredc nib) s (runRed byRow nib.val e s) := by
  have hempty : vxEmpty e.word = false := by
    rw [← Bool.not_eq_true, vxEmpty_iff h (by split <;> omega) (by split <;> omega)]
    exact hrows
  have hrow := vxRow_of_rows (body := runRed byRow) h (by split <;> omega) hempty
  cases byRow <;> exact hrow

end

/-! ## VSUM (R152) -/

section
variable {s t : State} {nib : Fin 1024} {e : VecEntry} {rest : List VecEntry}

/-- A nib written after votes and reports is written. -/
theorem onlyNib_modNib {nib : Nat} {n : Nib} (h : onlyNib s t nib n) (wt : tabWf Nib.cold t.nibs = true) (g : Nib → Nib) :
    onlyNib s (modNib nib g t) nib (g n) := by
  obtain ⟨hframe, hothers, hvotes, hnib⟩ := h
  refine ⟨congrArg (fun u : State => { u with nibs := (modNib nib g t).nibs }) hframe, fun m hm => ?_, hvotes, ?_⟩
  · rw [modNib, getNib_setNib_ne t _ hm, hothers m hm]
  · rw [modNib, getNib_setNib wt, hnib]

theorem Notes.wf {m : Nib} (h : Notes (setNib nib.val m s) t) (w : tabWf Nib.cold s.nibs = true) : tabWf Nib.cold t.nibs = true := by
  rw [h.frame]
  exact setNib_wf w nib.val m

/-- A nib with a summary in its slot; FCLR clears its tile flags. -/
def Nib.summed (w : Nat) (x : Summary) (n : Nib) : Nib :=
  { n with slots := tabInsert n.slots (wf w 1 1 0) x, tileOvf := n.tileOvf && !wb w 1 2, tileNf := n.tileNf && !wb w 1 2 }

theorem summed_eq (w : Nat) (x : Summary) (n : Nib) : (if wb w 1 2 then { n with
    slots := tabInsert n.slots (wf w 1 1 0) x, tileOvf := false, tileNf := false } else { n with slots := tabInsert n.slots (wf w 1 1 0) x }) =
    n.summed w x := by
  unfold Nib.summed
  cases wb w 1 2
  · simp only [Bool.false_eq_true, if_false, Bool.not_false, Bool.and_true]
  · simp only [if_true, Bool.not_true, Bool.and_false]

/-- A summary of the values, of some maximum and sum, with the tile flags of its nib. -/
def summaryOf (xs : List Num) (max sum : Nat) (ovf nf : Bool) : Summary :=
  let b (x : Bool) (i : Nat) : Nat := if x then 2 ^ i else 0
  { max := max, sum := sum, count := (xs.filter (fun v => !v.isZero)).length,
    flags := b (xs.any (fun v => v.isNaN)) 0 + b (xs.any (fun v => !v.isNaN && !v.isFin)) 1 + b ovf 2 + b nf 3 }

/-- The four flags of a summary are its four bits. -/
theorem bit_summaryFlags : ∀ x y z u : Bool,
    bit ((if x then 2 ^ 0 else 0) + (if y then 2 ^ 1 else 0) + (if z then 2 ^ 2 else 0) + (if u then 2 ^ 3 else 0)) 0 = x ∧
    bit ((if x then 2 ^ 0 else 0) + (if y then 2 ^ 1 else 0) + (if z then 2 ^ 2 else 0) + (if u then 2 ^ 3 else 0)) 1 = y := by
  decide

theorem summaryOf_flags (xs : List Num) (max sum : Nat) (ovf nf : Bool) :
    (bit (summaryOf xs max sum ovf nf).flags 0 = true ↔ ∃ v ∈ xs, v.isNaN = true) ∧
    (bit (summaryOf xs max sum ovf nf).flags 1 = true ↔ ∃ v ∈ xs, v.isNaN = false ∧ v.isFin = false) := by
  obtain ⟨hnan, hinf⟩ := bit_summaryFlags (xs.any (fun v => v.isNaN)) (xs.any (fun v => !v.isNaN && !v.isFin)) ovf nf
  dsimp only [summaryOf]
  rw [hnan, hinf]
  simp only [List.any_eq_true, Bool.and_eq_true, Bool.not_eq_true', and_self]

theorem runVsum_eq {xs : List Num} (hxs : xs = (List.range (vxRows e.word)).flatMap (fun r =>
      (List.range 64).map (fun k => val32 (lane ((getNib s nib.val).tileRow (vxA e.word) r) k)))) :
    ∃ (ovf nf : Bool) (max sum : Nat), runVsum nib.val e s =
      modNib nib.val (fun n => n.summed e.word (summaryOf xs max sum n.tileOvf n.tileNf))
        (vecFlags nib.val e.pc ovf nf (modNib nib.val popVx s)) := by
  have hvals : ((List.range (vxRows e.word)).flatMap (fun r => (List.range 64).map (fun c =>
      lane ((getNib s nib.val).tileRow (vxA e.word) r) c))).map val32 = xs := by
    rw [hxs, List.map_flatMap]
    simp only [List.map_map]
    rfl
  unfold runVsum
  dsimp only
  rw [hvals]
  exact ⟨_, _, _, _, congrArg (fun g => modNib nib.val g _) (funext fun n => summed_eq e.word _ n)⟩

theorem runVsum_onlyNib {xs : List Num} (h : vecHead s nib.val e rest 0x77) (hxs : xs = (List.range (vxRows e.word)).flatMap (fun r =>
      (List.range 64).map (fun k => val32 (lane ((getNib s nib.val).tileRow (vxA e.word) r) k)))) :
    ∃ (ovf nf ovf' nf' : Bool) (max sum : Nat), onlyNib s (runVsum nib.val e s) nib.val
      (((popVx (getNib s nib.val)).flag ovf nf).summed e.word (summaryOf xs max sum ovf' nf')) := by
  obtain ⟨ovf, nf, max, sum, hrun⟩ := runVsum_eq (s := s) (nib := nib) hxs
  have hnotes := notes_vecFlags h e.pc ovf nf (popVx (getNib s nib.val))
  obtain ⟨-, -, -, -, -, w, -⟩ := h
  rw [hrun]
  exact ⟨ovf, nf, _, _, max, sum, onlyNib_modNib (onlyNib_of_notes w hnotes) (hnotes.wf w) _⟩

theorem vsum_sums (h : vecHead s nib.val e rest 0x77) (hrows : vxRows e.word ≠ 0) :
    Answers (.vsum nib) s (runVsum nib.val e s) := by
  refine vxRow_of_rows h (by omega) ?_
  rw [← Bool.not_eq_true, vxEmpty_iff h (by omega) (by omega)]
  exact hrows

end

/-- Settles O53: each command of the head's opcode is what its lemma says; tables written key by key hold each value at its key. -/
theorem vectorTransfers : Obligations.VectorTransfers := by
  unfold Obligations.VectorTransfers
  rintro s nib n e rest w rfl rfl
  refine ⟨fun ds h hread => ?vtload, fun ds h hread => vld_loads h hread, fun h hscale hsr hrows wr => ?vst, fun tile more h hftq => ?vpop,
    fun byRow start h hrows wr hstart hcheck => ?red, fun xs h hrows hxs => ?vsum⟩
  case vtload =>
    have hpop := popVx_of_vecHead h
    obtain ⟨-, -, -, -, -, w, -⟩ := id h
    refine ⟨_, vtload_loads h hread, rfl, ?_⟩
    rw [modNib, getNib_setNib w, hpop]
  case vst =>
    obtain ⟨nf, t, hanswer, hnotes⟩ := vst_stores h hscale hsr hrows
    have hpop := popVx_of_vecHead h
    obtain ⟨-, hvq, -, -, -, w, -⟩ := id h
    have hnib : getNib t nib.val = (popVx ((getNib s nib.val).writeRows (storedRows s nib.val e.word))).flag false nf := by
      rw [hnotes.getNib, getNib_setNib w]
    have hkeys : ((storedRows s nib.val e.word).map Prod.fst) = vstRows e.word := by
      rw [storedRows, List.map_map]
      exact List.map_id' _
    refine ⟨t, hanswer, onlyNib_congr (onlyNib_of_notes w hnotes) ?_, fun r hr => ?_, fun r hr => ?_⟩
    · obtain ⟨rows, act, wt, scale, hframe⟩ := writeRows_frame (n := getNib s nib.val) (storedRows s nib.val e.word)
      rw [hnib, hframe, popVx, hvq]
      rfl
    · rw [hnib]
      exact readRow_writeRows wr (hkeys.symm ▸ vstRows_nodup e.word :) (List.mem_map_of_mem hr)
    · rw [hnib]
      refine row_writeRows_other fun p hp he => hr ?_
      rw [← he, ← hkeys]
      exact List.mem_map_of_mem hp
  case vpop =>
    obtain ⟨-, -, -, -, -, w, wt⟩ := id h
    refine ⟨_, vpop_pops h hftq, rfl, ?_, fun j k v hj hk => ?_⟩
    · rw [getNib_setNib w]
    · rw [getNib_setNib w]
      exact lane_popTile wt hj hk
  case red =>
    obtain ⟨ovf, nf, hnotes⟩ := runRed_notes h hstart hcheck
    have hpop := popVx_of_vecHead h
    obtain ⟨-, -, -, -, -, w, wt⟩ := id h
    have hnib : getNib (runRed byRow nib.val e s) nib.val = ((getNib s nib.val).reduced byRow start e.word).flag ovf nf := by
      rw [hnotes.getNib, getNib_setNib w]
    refine ⟨_, red_reduces h hrows, onlyNib_congr (onlyNib_of_notes w hnotes) ?_, fun hmode p hp => ?_, fun hmode => ?_, fun hmode => ?_,
      fun hmode p hp j hj => ?_⟩
    · rw [hnib, reduced_frame, hpop]
      rfl
    · rw [hnib, Nib.redEntry, Nib.flag, reduced_red, if_neg hmode]
      exact redAdded_entry wr hp
    · rw [hnib, Nib.flag, reduced_red, if_pos hmode]
    · rw [hnib, Nib.flag, reduced_tiles hmode]
    · rw [hnib]
      exact lane_reduced wt hmode hp hj
  case vsum =>
    obtain ⟨ovf, nf, ovf', nf', max, sum, honly⟩ := runVsum_onlyNib h hxs
    obtain ⟨hnan, hinf⟩ := summaryOf_flags xs max sum ovf' nf'
    obtain ⟨-, -, -, hnib⟩ := id honly
    refine ⟨_, _, vsum_sums h hrows, onlyNib_congr honly ?_, ?_, rfl, hnan, hinf, fun hclr => ?_⟩
    · rw [hnib, popVx_of_vecHead h]
      rfl
    · rw [hnib]
      exact tabFind_insert_self ..
    · rw [hnib, Nib.summed, hclr, Bool.not_true, Bool.and_false, Bool.and_false]
      exact ⟨rfl, rfl⟩

end Sys2Proof.Machine

/-! SUPPORT. The start of a layer: the nibs of a plot by rank, what each holds, and the strand that each takes. -/

namespace Sys2Proof.Machine

open Sys2Proof.Spec

/-! ## The nibs of a plot (R32) -/

theorem plotNibs_getElem? (plot : List Nat) (k : Nat) : (plotNibs plot)[k]? = nibOfRank plot k := by
  induction plot generalizing k with
  | nil => rfl
  | cons g plot ih =>
    have hlen : ((List.range 16).map (fun i => 16 * g + i)).length = 16 := by simp
    have hcons : plotNibs (g :: plot) = (List.range 16).map (fun i => 16 * g + i) ++ plotNibs plot := rfl
    rw [hcons, List.getElem?_append, hlen, nibOfRank]
    split
    · next hk =>
      have hdiv : k / 16 = 0 := by omega
      have hmod : k % 16 = k := Nat.mod_eq_of_lt hk
      simp [hdiv, hmod, List.getElem?_range hk]
    · next hk =>
      have hdiv : k / 16 = (k - 16) / 16 + 1 := by omega
      have hmod : (k - 16) % 16 = k % 16 := by omega
      rw [ih, nibOfRank, hdiv, List.getElem?_cons_succ, hmod]

theorem mem_plotNibs {plot : List Nat} {nib : Nat} : nib ∈ plotNibs plot ↔ nib / 16 ∈ plot := by
  unfold plotNibs
  simp only [List.mem_flatMap, List.mem_map, List.mem_range]
  constructor
  · rintro ⟨g, hg, i, hi, rfl⟩
    rwa [show (16 * g + i) / 16 = g by omega]
  · intro h
    exact ⟨nib / 16, h, nib % 16, Nat.mod_lt _ (by decide), Nat.div_add_mod nib 16⟩

theorem plotNibs_nodup {plot : List Nat} (h : plot.Nodup) : (plotNibs plot).Nodup := by
  refine List.nodup_flatMap.mpr ⟨fun g _ => List.nodup_range.map fun _ _ h => Nat.add_left_cancel h, ?_⟩
  refine h.imp fun {g g'} hne => ?_
  rw [Function.onFun, List.disjoint_left]
  simp only [List.mem_map, List.mem_range, not_exists, not_and]
  rintro _ ⟨i, hi, rfl⟩ j hj
  omega

theorem ranked_nibs (plot : List Nat) : (ranked plot).map Prod.snd = plotNibs plot := by
  rw [ranked, List.map_map]
  exact List.zipIdx_map_fst 0 (plotNibs plot)

theorem mem_ranked {plot : List Nat} {k nib : Nat} (h : nibOfRank plot k = some nib) : (k, nib) ∈ ranked plot := by
  rw [← plotNibs_getElem?] at h
  exact List.mem_map.mpr ⟨(nib, k), List.mem_zipIdx_iff_getElem?.mpr h, rfl⟩

/-! ## Nibs changed one after the other -/

theorem modNibs_eq {α : Type} (key : α → Nat) (g : α → Nib → Nib) (xs : List α) (s : State) :
    forEach xs (fun x s => modNib (key x) (g x) s) s = { s with nibs := tabUpdate Nib.cold key g xs s.nibs } := by
  induction xs generalizing s with
  | nil => rfl
  | cons x xs ih => exact ih _

/-- What a nib holds when a layer starts that does not predict. -/
structure Nib.Loaded (imem dmem : Tab Word32) (regions : List Nat) (n : Nib) : Prop where
  imem : n.quill.imem = imem
  dmem : n.quill.dmem = dmem
  regions : n.regions = regions
  mq : n.mq = []
  vq : n.vq = []
  descs : n.descs = []
  acc : n.acc = []
  pred : n.pred = none

theorem dropSlots_frame (drop : Nat × Nat × Nat → Bool) (n : Nib) :
    ∃ rows tags, dropSlots drop n = { n with rows := rows, slotTag := tags } := by
  unfold dropSlots
  generalize n.slotTag.filter (fun p => drop p.2) = ps
  induction ps generalizing n with
  | nil => exact ⟨_, _, rfl⟩
  | cons p ps ih => exact ih (n.dropSlot p.1)

theorem startNib_loaded (c : Nat) (imem dmem : Tab Word32) (regions : List Nat) (n : Nib) :
    (startNib c imem dmem (regions, none) n).Loaded imem dmem regions := by
  obtain ⟨rows, tags, hframe⟩ := dropSlots_frame (fun t => t.1 != c) n.stopped
  unfold startNib
  rw [hframe]
  exact ⟨rfl, rfl, rfl, rfl, rfl, rfl, rfl, rfl⟩

/-- A nib that has taken strand st of a grid, or has finished where there is none. -/
theorem takeStrand_loaded {imem dmem : Tab Word32} {regions : List Nat} {n : Nib} (h : n.Loaded imem dmem regions) (grid st : Nat) :
    (Nib.takeStrand grid st n).Loaded imem dmem regions := by
  obtain ⟨hi, hd, hr, hm, hv, hde, ha, hp⟩ := h
  unfold Nib.takeStrand
  split <;> exact ⟨hi, hd, hr, hm, hv, hde, ha, hp⟩

theorem takeStrand_runs {grid st : Nat} (h : st < grid) (n : Nib) : (Nib.takeStrand grid st n).quill.strand = st ∧
    (Nib.takeStrand grid st n).quill.run = .running ∧ (Nib.takeStrand grid st n).quill.pc = 0 := by
  rw [Nib.takeStrand, if_pos h]
  exact ⟨rfl, rfl, rfl⟩

theorem takeStrand_finished {grid st : Nat} (h : grid ≤ st) (n : Nib) : (Nib.takeStrand grid st n).quill.finished = true := by
  rw [Nib.takeStrand, if_neg (by omega)]
  rfl

/-! ## Starting strands (R160) -/

/-- A nib of a plot whose layer runs. -/
theorem nibRuns_of_owner {s : State} {c nib : Nat} (ho : (getGrove s (nib / 16)).owner = some c) (hp : (getGrove s (nib / 16)).pw = .awake)
    (hst : (getCtx s c).st = .running) (hph : (getCtx s c).phase = .running) : nibRuns s nib = true := by
  have hctx : ctxOfNib s nib = some c := ho
  unfold nibRuns
  rw [hp, hctx]
  dsimp only
  rw [hst, hph]
  rfl

/-- The nibs of a plot whose layer runs each take their strand: what one takes changes no other. -/
theorem strands_start {c : Nat} {r : Record} {xs : List (Nat × Nat)} {s : State} (hd : (xs.map Prod.snd).Nodup)
    (hr : (getCtx s c).record = some r) (hplot : (getCtx s c).plot ≠ []) (hruns : ∀ p ∈ xs, ctxOfNib s p.2 = some c ∧ nibRuns s p.2 = true)
    (hpred : ∀ p ∈ xs, (getNib s p.2).pred = none) :
    forEach xs (fun p s => if nibRuns s p.2 then goStrand p.2 p.1 s else s) s =
      forEach xs (fun p s => modNib p.2 (Nib.takeStrand r.grid p.1) s) s := by
  induction xs generalizing s with
  | nil => rfl
  | cons p xs ih =>
    obtain ⟨hp, hxs⟩ := List.nodup_cons.mp hd
    obtain ⟨hctx, hrun⟩ := hruns p List.mem_cons_self
    have hgo := goStrand_unpredicted p.1 hctx hr hplot (hpred p List.mem_cons_self)
    rw [forEach, forEach, List.foldl_cons, List.foldl_cons, if_pos hrun, hgo]
    refine ih hxs hr hplot (fun q hq => hruns q (List.mem_cons_of_mem p hq)) fun q hq => ?_
    have hne : q.2 ≠ p.2 := fun he => hp (he ▸ List.mem_map_of_mem hq)
    rw [modNib, getNib_setNib_ne _ _ hne]
    exact hpred q (List.mem_cons_of_mem p hq)

/-- Every nib of the plot as a layer starts it, the context running. -/
def plotLoaded (c : Nat) (imem dmem : Tab Word32) (regions : List Nat) (s : State) : State :=
  modCtx c (fun x => { x with phase := .running })
    (forEach (plotNibs (getCtx s c).plot) (fun n s => modNib n (startNib c imem dmem (regions, none)) s) s)

/-- Their contents. -/
def loadedNibs (c : Nat) (imem dmem : Tab Word32) (regions : List Nat) (s : State) : Tab Nib :=
  tabUpdate Nib.cold id (fun _ => startNib c imem dmem (regions, none)) (plotNibs (getCtx s c).plot) s.nibs

section
variable {s : State} {c : Nat} {r : Record} {imem dmem : Tab Word32} {regions : List Nat}

theorem plotLoaded_eq : plotLoaded c imem dmem regions s =
    { setCtx c { getCtx s c with phase := .running } s with nibs := loadedNibs c imem dmem regions s } := by
  have hload := modNibs_eq id (fun _ => startNib c imem dmem (regions, none)) (plotNibs (getCtx s c).plot) s
  exact congrArg (modCtx c (fun x => { x with phase := .running })) hload

theorem loadedNibs_loaded (w : tabWf Nib.cold s.nibs = true) (hd : (getCtx s c).plot.Nodup) {nib : Nat}
    (hn : nib ∈ plotNibs (getCtx s c).plot) : (tabGet Nib.cold (loadedNibs c imem dmem regions s) nib).Loaded imem dmem regions := by
  have hnib := tabGet_tabUpdate (key := id) (g := fun _ => startNib c imem dmem (regions, none)) w
    (by rw [List.map_id]; exact plotNibs_nodup hd) hn
  exact hnib ▸ startNib_loaded ..

theorem getCtx_plotLoaded (hst : (getCtx s c).st = .running) :
    getCtx (plotLoaded c imem dmem regions s) c = { getCtx s c with phase := .running } := by
  rw [plotLoaded_eq]
  refine getCtx_setCtx_self s c fun hfree => ?_
  have := hst.symm.trans (congrArg Ctx.st hfree :)
  cases this

/-- Every nib takes its strand. -/
theorem plotLoaded_starts (w : tabWf Nib.cold s.nibs = true) (hd : (getCtx s c).plot.Nodup) (hne : (getCtx s c).plot ≠ [])
    (hr : (getCtx s c).record = some r) (hst : (getCtx s c).st = .running)
    (hown : ∀ g ∈ (getCtx s c).plot, (getGrove s g).owner = some c ∧ (getGrove s g).pw = .awake) :
    startStrands c (plotLoaded c imem dmem regions s) = { plotLoaded c imem dmem regions s with
      nibs := tabUpdate Nib.cold Prod.snd (fun p => Nib.takeStrand r.grid p.1) (ranked (getCtx s c).plot)
        (loadedNibs c imem dmem regions s) } := by
  have hctx := getCtx_plotLoaded (imem := imem) (dmem := dmem) (regions := regions) hst
  have hgrove (g : Nat) : getGrove (plotLoaded c imem dmem regions s) g = getGrove s g := by rw [plotLoaded_eq]; rfl
  have hnibs : (plotLoaded c imem dmem regions s).nibs = loadedNibs c imem dmem regions s := by rw [plotLoaded_eq]
  have hplot : (getCtx (plotLoaded c imem dmem regions s) c).plot = (getCtx s c).plot := by rw [hctx]
  have hmem {p : Nat × Nat} (hp : p ∈ ranked (getCtx s c).plot) : p.2 ∈ plotNibs (getCtx s c).plot := by
    rw [← ranked_nibs]
    exact List.mem_map_of_mem hp
  have hruns (p : Nat × Nat) (hp : p ∈ ranked (getCtx s c).plot) : ctxOfNib (plotLoaded c imem dmem regions s) p.2 = some c ∧
      nibRuns (plotLoaded c imem dmem regions s) p.2 = true := by
    obtain ⟨ho, hpw⟩ := hown _ (mem_plotNibs.mp (hmem hp))
    rw [← hgrove] at ho hpw
    exact ⟨ho, nibRuns_of_owner ho hpw (by rw [hctx]; exact hst) (by rw [hctx])⟩
  have hpred (p : Nat × Nat) (hp : p ∈ ranked (getCtx s c).plot) : (getNib (plotLoaded c imem dmem regions s) p.2).pred = none := by
    rw [getNib, hnibs]
    exact (loadedNibs_loaded w hd (hmem hp)).pred
  unfold startStrands
  rw [hplot, strands_start (by rw [ranked_nibs]; exact plotNibs_nodup hd) (by rw [hctx]; exact hr) (by rwa [hplot]) hruns hpred,
    modNibs_eq Prod.snd (fun p => Nib.takeStrand r.grid p.1), hnibs]

/-- Each nib of the plot holds the image and has taken the strand of its rank. -/
theorem started_nib (w : tabWf Nib.cold s.nibs = true) (hd : (getCtx s c).plot.Nodup) (hne : (getCtx s c).plot ≠ [])
    (hr : (getCtx s c).record = some r) (hst : (getCtx s c).st = .running)
    (hown : ∀ g ∈ (getCtx s c).plot, (getGrove s g).owner = some c ∧ (getGrove s g).pw = .awake)
    {k nib : Nat} (hk : nibOfRank (getCtx s c).plot k = some nib) : ∃ n : Nib, n.Loaded imem dmem regions ∧
      getNib (startStrands c (plotLoaded c imem dmem regions s)) nib = Nib.takeStrand r.grid k n := by
  have hmem : nib ∈ plotNibs (getCtx s c).plot := List.mem_of_getElem? ((plotNibs_getElem? _ _).trans hk)
  refine ⟨_, loadedNibs_loaded w hd hmem, ?_⟩
  rw [plotLoaded_starts w hd hne hr hst hown]
  exact tabGet_tabUpdate (key := Prod.snd) (x := (k, nib)) (tabUpdate_wf w) (by rw [ranked_nibs]; exact plotNibs_nodup hd) (mem_ranked hk)

end

/-! ## LAYER_START (R163) -/

/-- A layer with nothing saved and no error before starts its attempt. -/
theorem layerStart_attempts {s : State} {ctx : Fin 256} {r : Record} (h : inLayer s ctx.val r .starting) (hready : plotReady s ctx.val = true)
    (hfresh : (getCtx s ctx.val).fresh = false) (hsaved : (getCtx s ctx.val).saved = none) (hcause : (getCtx s ctx.val).cause = 0)
    (hupdate : r.update = false) (hupd : (getCtx s ctx.val).upd = none) :
    Answers (.layerStart ctx) s (startAttempt ctx.val r (modCtx ctx.val (fun y => { y with started := true })
      (takeFree (modCtx ctx.val (fun y => { y with since := now s }) s)))) := by
  obtain ⟨hrecord, hst, hphase⟩ := h
  have hwalk : walkSaveArea ctx.val s = (true, s) := by
    unfold walkSaveArea
    rw [hfresh]
    rfl
  have hbring : bringPlot ctx.val r s = ((true, s), none) := by
    unfold bringPlot restartSaved
    dsimp only
    rw [hsaved, hcause]
    rfl
  have hctx : getCtx (takeFree (modCtx ctx.val (fun y => { y with since := now s }) s)) ctx.val =
      { getCtx s ctx.val with since := now s } := by
    refine getCtx_setCtx_self s ctx.val fun hfree => ?_
    have := hst.symm.trans (congrArg Ctx.st hfree :)
    cases this
  have hbegin : beginLayer ctx.val r none s = startAttempt ctx.val r (modCtx ctx.val (fun y => { y with started := true })
      (takeFree (modCtx ctx.val (fun y => { y with since := now s }) s))) := by
    have hresumes : resumes { getCtx s ctx.val with since := now s } none = false := by
      rw [resumes, hupd]
      rfl
    unfold beginLayer
    dsimp only
    rw [hctx, hresumes, if_neg Bool.false_ne_true, hupdate, if_neg Bool.false_ne_true]
  change execLayerStart ctx s = _
  unfold execLayerStart
  dsimp only
  rw [hrecord]
  dsimp only
  rw [if_neg (by simp [hst, hphase, hready]), hwalk]
  dsimp only
  rw [hbring]
  dsimp only
  rw [hbegin]

section
variable {c : Nat} {r : Record} {s u v z q : State} {i : Tab Word32} {d : List Byte} {regions : List Nat}

theorem startAttempt_noImage (h : loadImage c r s = (none, u)) : startAttempt c r s = u := by
  rw [startAttempt, h]

theorem startAttempt_noLitter (h : loadImage c r s = (some (i, d), u)) (hl : openLitter c r u = (false, v)) : startAttempt c r s = v := by
  rw [startAttempt, h]
  dsimp only
  rw [hl]

theorem startAttempt_noThin (h : loadImage c r s = (some (i, d), u)) (hl : openLitter c r u = (true, v)) (ht : loadThin c r d v = (none, z)) :
    startAttempt c r s = z := by
  rw [startAttempt, h]
  dsimp only
  rw [hl]
  dsimp only
  rw [ht]

theorem startAttempt_starts (h : loadImage c r s = (some (i, d), u)) (hl : openLitter c r u = (true, v))
    (ht : loadThin c r d v = (some (regions, none), z)) (hs : startCircle c r z = (true, q)) :
    startAttempt c r s = startStrands c (plotLoaded c i (wordsOf d) regions q) := by
  rw [startAttempt, h]
  dsimp only
  rw [hl]
  dsimp only
  rw [ht]
  dsimp only
  rw [hs]
  rfl

end

end Sys2Proof.Machine

/-! SUPPORT. The end of a layer, and its next attempt. -/

namespace Sys2Proof.Machine

open Sys2Proof.Spec

/-! ## LAYER_END (R161, R210) -/

section
variable {s : State} {ctx : Fin 256} {r : Record}

/-- Once every nib has ended, the plot drains; an attempt without prediction has ended. -/
theorem layerEnd_unpredicted (h : inLayer s ctx.val r .running) (hupdate : r.update = false) (hwait : (getCtx s ctx.val).ligWait = false)
    (hended : ∀ n ∈ plotNibs (getCtx s ctx.val).plot, nibEnded (getNib s n) = true)
    (hmiss : missSum (drainPlot (getCtx s ctx.val).plot s) (getCtx s ctx.val).plot = none) :
    Answers (.layerEnd ctx) s (closeLayer ctx.val r (drainPlot (getCtx s ctx.val).plot s)) := by
  obtain ⟨hrecord, hst, hphase⟩ := h
  change execLayerEnd ctx s = _
  unfold execLayerEnd
  dsimp only
  rw [hrecord]
  dsimp only
  rw [if_neg (by simpa [hst, hphase, hupdate, hwait] using hended), hmiss]

/-- A predicted one ends, or is discarded where it has missed too much. -/
theorem layerEnd_predicted (h : inLayer s ctx.val r .running) (hupdate : r.update = false) (hwait : (getCtx s ctx.val).ligWait = false)
    (hended : ∀ n ∈ plotNibs (getCtx s ctx.val).plot, nibEnded (getNib s n) = true) {m : Nat}
    (hmiss : missSum (drainPlot (getCtx s ctx.val).plot s) (getCtx s ctx.val).plot = some m) {again : Bool}
    (hagain : again = decide (r.rerun ≠ 0 ∧ r.rerun ≤ m)) :
    Answers (.layerEnd ctx) s (if again then rerunDense ctx.val (notePrediction ctx.val m true (drainPlot (getCtx s ctx.val).plot s))
      else closeLayer ctx.val r (notePrediction ctx.val m false (drainPlot (getCtx s ctx.val).plot s))) := by
  obtain ⟨hrecord, hst, hphase⟩ := h
  change execLayerEnd ctx s = _
  unfold execLayerEnd
  dsimp only
  rw [hrecord]
  dsimp only
  rw [if_neg (by simpa [hst, hphase, hupdate, hwait] using hended), hmiss]
  dsimp only
  by_cases hrerun : r.rerun ≠ 0 ∧ r.rerun ≤ m
  · rw [hagain, decide_eq_true hrerun, if_pos hrerun, if_pos rfl]
  · rw [hagain, decide_eq_false hrerun, if_neg hrerun, if_neg Bool.false_ne_true]

theorem faultsKept_notePrediction {t : State} (h : FaultsKept s t) (c m : Nat) (again : Bool) : FaultsKept s (notePrediction c m again t) := by
  have hregs : FaultsKept s (setR (regAt .thin 0 0x5C) (c + (if again then 2 ^ 8 else 0)) (setR (regAt .thin 0 0x58) m t)) := h.same rfl rfl
  have hmark := hregs.modCtx c (f := fun x => { x with miss := m, missFlag := m != 0 })
  unfold notePrediction
  dsimp only
  exact .ite (hmark.raise ..) hmark

/-- A context whose predicted attempt was discarded. -/
def Ctx.discarded (x : Ctx) : Ctx :=
  { x with phase := .starting, started := false, dense := true, rerunDense := true, lit := none, vote := 0 }

theorem discarded_replays (x : Ctx) : x.discarded.replays = x.replays := rfl

theorem getCtx_discarded (t : State) (c : Nat) : getCtx (modCtx c Ctx.discarded t) c = (getCtx t c).discarded := by
  refine getCtx_setCtx_self t c fun hfree => ?_
  cases (congrArg Ctx.dense hfree :)

/-- A discarded attempt starts again dense, which counts as no replay. -/
theorem rerunDense_starts {t : State} {c : Nat} (h : FaultsKept s t) (hst : (getCtx s c).st = .running) :
    (getCtx (rerunDense c t) c).phase = .starting ∧ (getCtx (rerunDense c t) c).dense = true ∧
      (getCtx (rerunDense c t) c).rerunDense = true ∧ (getCtx (rerunDense c t) c).replays = (getCtx s c).replays ∧
      eventSet (rerunDense c t) .thin 0 3 := by
  have hcount := h.countEvent .thin .thin 0 (off := 0x54) 31 16
  have hrun : rerunDense c t = modCtx c Ctx.discarded (quiesce c (raise .thin 0 3 (.of c 0 (getCtx t c).curRec)
      (countEvent .thin (regAt .thin 0 0x54) 31 16 t))) := rfl
  rw [hrun]
  generalize countEvent .thin (regAt .thin 0 0x54) 31 16 t = u at hcount ⊢
  generalize Note.of c 0 (getCtx t c).curRec = note
  have hraised := hcount.raise .thin 0 3 note
  have hevent : eventSet (raise .thin 0 3 note u) .thin 0 3 := eventSet_raise .thin 0 _ _ (by decide)
  generalize raise .thin 0 3 note u = v at hraised hevent ⊢
  obtain ⟨-, hreplays, -⟩ := (hraised.quiesce c).standing c (by rw [hst]; decide)
  rw [getCtx_discarded]
  exact ⟨rfl, rfl, rfl, (discarded_replays _).trans hreplays,
    (layerEdits_modCtx (layerEdits_quiesce (.refl (a := v)) c) c _).canopyKept.events .thin 0 3 (by decide) hevent⟩

end

/-! ## REPLAY (R361, R404, R405) -/

section
variable {s : State} {ctx : Fin 256} {r : Record}

theorem FaultsKept.bump {t : State} (h : FaultsKept s t) (a hi lo n : Nat) : FaultsKept s (bump a hi lo n t) :=
  h.same (by simp only [bump_nibs]) (by simp only [bump_ctxs])

/-- A suspect layer that may not replay faults once the dip's response has ended. -/
theorem replay_barred (hst : (getCtx s ctx.val).st = .running) (hphase : (getCtx s ctx.val).phase = .suspect) (hdip : s.supply.dip = false)
    (hrecord : (getCtx s ctx.val).record = some r) (hreplay : r.replay = false) (stuck : List (Fin 1088 × Fin 4608)) :
    ∃ t, Answers (.replay ctx stuck) s t ∧ (getCtx t ctx.val).st = .faulted ∧ eventSet t .seedbank 0 2 ∧
      ((getCtx t ctx.val).lastCode = 0x0302 ∨ (getCtx t ctx.val).lastCode = 0x0205) := by
  have hdue : ((getCtx s ctx.val).phase == .replaying || ((getCtx s ctx.val).phase == .suspect && !s.supply.dip)) = true := by
    rw [hphase, hdip]
    rfl
  have hanswer : Answers (.replay ctx stuck) s (barReplay ctx.val (getCtx s ctx.val).cause s) := by
    change execReplay ctx stuck s = _
    unfold execReplay
    dsimp only
    rw [hdue, hrecord]
    dsimp only
    rw [if_pos (by simp [hphase, hreplay])]
  unfold barReplay at hanswer
  generalize hu : raise .seedbank 0 2 _ _ = u at hanswer
  have hctx : (getCtx u ctx.val).st = .running := by
    have hkept := (((FaultsKept.refl s).bump (regAt .seedbank 0 0x64) 31 16 1).raise .seedbank 0 2
      (.of ctx.val (getCtx s ctx.val).cause (stepOfCtx s ctx.val))).standing ctx.val (by rw [hst]; decide)
    rw [hu] at hkept
    exact hkept.1.trans hst
  obtain ⟨hstands, -⟩ := ctxFault_stands ctx.val 0x0302 u
  obtain ⟨hfaulted, hcode⟩ := hstands hctx
  refine ⟨_, hanswer, hfaulted, ?_, hcode⟩
  exact (layerEdits_ctxFault .refl ctx.val 0x0302).canopyKept.events .seedbank 0 2 (by decide)
    (hu ▸ eventSet_raise .seedbank 0 _ _ (by decide))

end

end Sys2Proof.Machine

/-! SUPPORT. The replay of a layer on the groves that still serve, and the settled obligation of a layer's sequence. -/

namespace Sys2Proof.Machine

open Sys2Proof.Spec

/-! ## Step 3 of R404 without automatic replacement (R409) -/

/-- Physical nibs alone differ. -/
def OnlyPnibs (s t : State) : Prop := t = { s with pnibs := t.pnibs }

namespace OnlyPnibs
variable {s t u : State}

theorem refl (s : State) : OnlyPnibs s s := rfl

theorem trans (h : OnlyPnibs s t) (k : OnlyPnibs t u) : OnlyPnibs s u :=
  Eq.trans k (congrArg (fun v : State => { v with pnibs := u.pnibs }) h)

theorem autoSpare (h : OnlyPnibs s t) : autoSpare t = Machine.autoSpare s := by
  rw [h]
  rfl

theorem getCtx (h : OnlyPnibs s t) (c : Nat) : getCtx t c = Machine.getCtx s c := by
  rw [h]
  rfl

theorem liveGroves (h : OnlyPnibs s t) (c : Nat) : liveGroves t c = Machine.liveGroves s c := by
  rw [h]
  rfl

theorem awaitsReplacement (h : OnlyPnibs s t) (c : Nat) : awaitsReplacement t c = Machine.awaitsReplacement s c := by
  rw [h]
  rfl

theorem forEach {α : Type} (xs : List α) {f : α → State → State} (h : OnlyPnibs s t)
    (hf : ∀ x ∈ xs, ∀ v, OnlyPnibs s v → OnlyPnibs s (f x v)) : OnlyPnibs s (forEach xs f t) :=
  List.foldlRecOn (motive := OnlyPnibs s) _ _ h fun v k x hx => hf x hx v k

end OnlyPnibs

section
variable {s : State} (hauto : autoSpare s = false)
include hauto

theorem onlyPnibs_nibRetiring (p : Nat) : OnlyPnibs s (nibRetiring p s) := by
  have hset : Machine.autoSpare (setPNib p { getPNib s p with retiring := true } s) = false := hauto
  unfold nibRetiring
  dsimp only
  split
  · exact .refl s
  · split
    · rfl
    · rw [if_neg (by simp [hset])]
      rfl

theorem onlyPnibs_checkRows (p : Nat) (checked : Option (Nat → Bool)) : OnlyPnibs s (checkRows p checked s) := by
  unfold checkRows
  refine (OnlyPnibs.refl s).forEach _ fun e _ v k => ?_
  dsimp only
  split
  · exact k
  · exact k.trans rfl
  · have hdue : OnlyPnibs s (modPNib p (fun q => { q with rowsDue := tabInsert q.rowsDue e.1 true }) v) := k.trans rfl
    split
    · exact hdue.trans (onlyPnibs_nibRetiring (hdue.autoSpare.trans hauto) p)
    · exact hdue

theorem onlyPnibs_spareGroves (gs : List Nat) (checked : Option (Nat → Nat → Bool)) :
    OnlyPnibs s (forEach gs (spareGrove checked) s) := by
  refine (OnlyPnibs.refl s).forEach _ fun g _ v k => ?_
  have hv := k.autoSpare.trans hauto
  rw [spareGrove, hv, Bool.not_false, if_pos rfl]
  exact k.trans ((OnlyPnibs.refl v).forEach _ fun i _ w l => l.trans (onlyPnibs_checkRows (l.autoSpare.trans hv) _ _))

end

/-! ## Step 4 of R404 (R321, R405) -/

theorem ctxs_dropGrove (g : Nat) (s : State) : (dropGrove g s).ctxs = s.ctxs := by
  have hwake (v : State) : (wakeGrove g v).ctxs = v.ctxs := by
    unfold wakeGrove
    dsimp only
    split <;> rfl
  have hlost (f : Nib → Nib) (v : State) : (modGroveNibs g f v).ctxs = v.ctxs :=
    List.foldlRecOn (motive := fun u : State => u.ctxs = v.ctxs) _ _ rfl fun _ k _ _ => k
  unfold dropGrove
  dsimp only
  split
  · split
    · exact hwake _
    · rfl
  · exact hlost _ _
  · exact hwake _
  · rfl
  · rfl

theorem ctxs_dropGroves (gs : List Nat) (s : State) : (forEach gs dropGrove s).ctxs = s.ctxs :=
  List.foldlRecOn (motive := fun u : State => u.ctxs = s.ctxs) _ _ rfl fun _ k g _ => (ctxs_dropGrove g _).trans k

section
variable {s : State} {c cause : Nat}

/-- A context that has replayed at least once is not a free one. -/
theorem ne_free_of_replays {x : Ctx} (h : 0 < x.replays) : x ≠ Ctx.free := fun hfree => by
  rw [hfree] at h
  exact absurd h (by decide)

theorem noteReplay_ctx : getCtx (noteReplay c cause s) c = { getCtx s c with replays := (getCtx s c).replays + 1 } := by
  unfold noteReplay
  dsimp only
  rw [getCtx, (memEdits_raise .refl .seedbank 0 0 _).ctxs]
  exact getCtx_setCtx_self s c (ne_free_of_replays (Nat.succ_pos _))

theorem noteReplay_groves : (noteReplay c cause s).groves = s.groves := by
  unfold noteReplay
  dsimp only
  rw [((Notes.refl _).raise .seedbank 0 0 _).frame]
  rfl

theorem noteReplay_event : eventSet (noteReplay c cause s) .seedbank 0 0 := eventSet_raise .seedbank 0 _ _ (by decide)

theorem noteReplay_live : liveGroves (noteReplay c cause s) c = liveGroves s c := by
  have hgrove (g : Nat) : getGrove (noteReplay c cause s) g = getGrove s g := by rw [getGrove, noteReplay_groves, ← getGrove]
  unfold liveGroves
  rw [noteReplay_ctx]
  simp only [hgrove]

theorem shrinkPlot_ctx (h : 0 < (getCtx s c).replays) : getCtx (shrinkPlot c s) c = { getCtx s c with plot := liveGroves s c } := by
  unfold shrinkPlot
  dsimp only
  have hctx : getCtx (forEach ((heldBy s c).filter (fun g => !(liveGroves s c).contains g)) dropGrove s) c = getCtx s c := by
    rw [getCtx, ctxs_dropGroves, ← getCtx]
  rw [modCtx, hctx]
  exact getCtx_setCtx_self _ c (ne_free_of_replays h)

theorem shrinkPlot_event (h : eventSet s .seedbank 0 0) : eventSet (shrinkPlot c s) .seedbank 0 0 := by
  have hdrop : LayerEdits s (forEach ((heldBy s c).filter (fun g => !(liveGroves s c).contains g)) dropGrove s) :=
    forEach_chain _ (fun _ _ h => layerEdits_dropGrove h _) .refl
  exact (layerEdits_modCtx hdrop c _).canopyKept.events .seedbank 0 0 (by decide) h

/-- The replay counted, its plot rebuilt: how its context stands, and that it is logged. -/
theorem restarted_ctx : getCtx (shrinkPlot c (noteReplay c cause s)) c = { getCtx s c with
    replays := (getCtx s c).replays + 1, plot := liveGroves s c } ∧ eventSet (shrinkPlot c (noteReplay c cause s)) .seedbank 0 0 := by
  refine ⟨?_, shrinkPlot_event noteReplay_event⟩
  rw [shrinkPlot_ctx (by rw [noteReplay_ctx]; exact Nat.succ_pos _), noteReplay_live, noteReplay_ctx]

/-- A context whose layer starts again. -/
def Ctx.restarted (x : Ctx) : Ctx :=
  { setBlame (.ofCause 0) x with
    drawn := 0, started := x.upd.isSome, saved := x.saved.map (fun v => { v with restart := true, cause := 0 }) }

theorem restarted_replays (x : Ctx) : x.restarted.replays = x.replays := rfl

/-- The phase in which it does. -/
def Ctx.restartPhase (r : Record) (x : Ctx) : Phase :=
  if r.update = false ∧ x.plot.length < r.plotMin ∧ x.saved = none then .none else if x.upd.isSome then .running else .starting

/-- The layer starts again, or waits for another dispatch. -/
def finishReplay (c : Nat) (r : Record) (x : Ctx) (s : State) : State :=
  if !r.update ∧ x.plot.length < r.plotMin ∧ x.restarted.saved.isNone then
    setCtx c { x.restarted with st := .ready, phase := .none, urgent := false, wait := 0 } s
  else if x.upd.isSome then takeFree (setCtx c { x.restarted with phase := .running, since := now s } s)
  else setCtx c { x.restarted with phase := .starting } s

theorem restartLayer_eq {u : State} (r : Record) (stuck : Nat → Nat → Bool)
    (hu : forEach (liveGroves s c) (spareGrove (some stuck)) s = u) (hwait : awaitsReplacement u c = false) :
    restartLayer c r stuck s = finishReplay c r (getCtx (shrinkPlot c (noteReplay c (getCtx u c).cause u)) c)
      (shrinkPlot c (noteReplay c (getCtx u c).cause u)) := by
  unfold restartLayer
  generalize forEach (liveGroves s c) (spareGrove (some stuck)) s = w at hu ⊢
  subst hu
  extract_lets u cause v x again going
  rw [hwait, if_neg Bool.false_ne_true]
  change _ = finishReplay c r x v
  clear_value v x
  rfl

/-- A context as its layer's restart leaves it. -/
def Ctx.Restarted (r : Record) (x y : Ctx) : Prop :=
  y.replays = x.replays ∧ y.cause = 0 ∧ y.started = x.upd.isSome ∧
    y.saved = x.saved.map (fun v => { v with restart := true, cause := 0 }) ∧ y.plot = x.plot ∧ y.phase = x.restartPhase r

theorem finishReplay_restarts (r : Record) {x : Ctx} (h : 0 < x.replays) (hevent : eventSet s .seedbank 0 0) :
    x.Restarted r (getCtx (finishReplay c r x s) c) ∧ eventSet (finishReplay c r x s) .seedbank 0 0 := by
  have hnone : (!r.update ∧ x.plot.length < r.plotMin ∧ x.restarted.saved.isNone) ↔
      r.update = false ∧ x.plot.length < r.plotMin ∧ x.saved = none := by
    simp [Ctx.restarted]
  have hpos : 0 < x.restarted.replays := restarted_replays x ▸ h
  unfold finishReplay Ctx.Restarted Ctx.restartPhase
  split
  · next hsmall =>
    have hctx := getCtx_setCtx_self s c (x := { x.restarted with st := .ready, phase := .none, urgent := false, wait := 0 })
      (ne_free_of_replays hpos)
    rw [hctx, if_pos (hnone.mp hsmall)]
    exact ⟨⟨rfl, rfl, rfl, rfl, rfl, rfl⟩, hevent⟩
  · next hfits =>
    rw [if_neg (fun hsmall => hfits (hnone.mpr hsmall))]
    split
    · have hctx : getCtx (takeFree (setCtx c { x.restarted with phase := .running, since := now s } s)) c =
          { x.restarted with phase := .running, since := now s } := getCtx_setCtx_self s c (ne_free_of_replays hpos)
      rw [hctx]
      exact ⟨⟨rfl, rfl, rfl, rfl, rfl, rfl⟩, hevent⟩
    · have hctx := getCtx_setCtx_self s c (x := { x.restarted with phase := .starting }) (ne_free_of_replays hpos)
      rw [hctx]
      exact ⟨⟨rfl, rfl, rfl, rfl, rfl, rfl⟩, hevent⟩

theorem restartLayer_replays (r : Record) (stuck : Nat → Nat → Bool) (hauto : autoSpare s = false)
    (hwait : awaitsReplacement s c = false) :
    Ctx.Restarted r { getCtx s c with replays := (getCtx s c).replays + 1, plot := liveGroves s c } (getCtx (restartLayer c r stuck s) c) ∧
      eventSet (restartLayer c r stuck s) .seedbank 0 0 := by
  have hpnibs := onlyPnibs_spareGroves hauto (liveGroves s c) (some stuck)
  generalize hu : forEach (liveGroves s c) (spareGrove (some stuck)) s = u at hpnibs
  obtain ⟨hx, hevent⟩ := restarted_ctx (s := u) (c := c) (cause := (getCtx u c).cause)
  rw [restartLayer_eq r stuck hu ((hpnibs.awaitsReplacement c).trans hwait), hx, ← hpnibs.getCtx, ← hpnibs.liveGroves]
  exact finishReplay_restarts r (Nat.succ_pos _) hevent

end

/-- A replay that may go on restarts the layer. -/
theorem replay_restarts {s : State} {ctx : Fin 256} {r : Record} (hdue : (getCtx s ctx.val).phase = .replaying ∨
      ((getCtx s ctx.val).phase = .suspect ∧ s.supply.dip = false ∧ r.replay = true))
    (hrecord : (getCtx s ctx.val).record = some r) (stuck : List (Fin 1088 × Fin 4608)) : Answers (.replay ctx stuck) s
      (restartLayer ctx.val r (fun p row => stuck.any (fun e => e.1.val == p && e.2.val == row)) s) := by
  have hready : ((getCtx s ctx.val).phase == .replaying || ((getCtx s ctx.val).phase == .suspect && !s.supply.dip)) = true := by
    obtain hphase | ⟨hphase, hdip, -⟩ := hdue
    · rw [hphase]
      rfl
    · rw [hphase, hdip]
      rfl
  have hmay : ¬((getCtx s ctx.val).phase = .suspect ∧ (!r.replay) = true) := by
    rintro ⟨hphase, hreplay⟩
    obtain hother | ⟨-, -, hmay⟩ := hdue
    · cases hphase.symm.trans hother
    · rw [hmay] at hreplay
      cases hreplay
  change execReplay ctx stuck s = _
  unfold execReplay
  dsimp only
  rw [hready, hrecord]
  dsimp only
  rw [if_neg hmay]

/-- Settles O49: a start's attempt by the answers of its four steps, its strands rank by rank; an end by the misses counted; a replay by what
its restart makes of the context. -/
theorem layerSequence : Obligations.LayerSequence := by
  unfold Obligations.LayerSequence
  rintro s ctx r x rfl
  refine ⟨fun h hready hfresh hsaved hcause hupdate hupd s1 hs1 => ?start, fun h hupdate hwait hended => ?stop,
    fun hst hphase hdip hrecord hreplay stuck => replay_barred hst hphase hdip hrecord hreplay stuck, fun hdue hrecord hauto hwait stuck => ?replay⟩
  case start =>
    have hattempt := layerStart_attempts h hready hfresh hsaved hcause hupdate hupd
    rw [← hs1] at hattempt
    refine ⟨fun u hi => startAttempt_noImage hi ▸ hattempt, fun i d u v hi hl => startAttempt_noLitter hi hl ▸ hattempt,
      fun i d u v z hi hl ht => startAttempt_noThin hi hl ht ▸ hattempt,
      fun i d u v z regions q hi hl ht hq hnodup hne hrecord hst hplot w => ?_⟩
    have hown (g : Nat) (hg : g ∈ (getCtx q ctx.val).plot) : (getGrove q g).owner = some ctx.val ∧ (getGrove q g).pw = .awake := (hplot g hg).2
    have hstarts := plotLoaded_starts (imem := i) (dmem := wordsOf d) (regions := regions) w hnodup hne hrecord hst hown
    refine ⟨_, startAttempt_starts hi hl ht hq ▸ hattempt, ?_, ?_, fun k nib hk => ?_⟩
    · have hctx := getCtx_plotLoaded (imem := i) (dmem := wordsOf d) (regions := regions) hst
      rw [hstarts]
      exact (congrArg Ctx.phase hctx :)
    · rw [hstarts, plotLoaded_eq]
      rfl
    · obtain ⟨n, hn, hnib⟩ := started_nib (imem := i) (dmem := wordsOf d) (regions := regions) w hnodup hne hrecord hst hown hk
      obtain ⟨himem, hdmem, hregions, hmq, hvq, hdescs, hacc, -⟩ := takeStrand_loaded hn r.grid k
      rw [hnib]
      exact ⟨himem, hdmem, hregions, hmq, hvq, hdescs, hacc, fun hlt => takeStrand_runs hlt n, fun hge => takeStrand_finished hge n⟩
  case stop =>
    refine ⟨fun hmiss hlig => ?_, fun m hmiss hfew hlig => ?_, fun m hmiss hrerun hmany => ?_⟩
    · have hanswer := layerEnd_unpredicted h hupdate hwait hended hmiss
      rwa [closeLayer, if_pos hlig] at hanswer
    · have hfew' : ¬(r.rerun ≠ 0 ∧ r.rerun ≤ m) := by omega
      have hanswer := layerEnd_predicted h hupdate hwait hended hmiss (decide_eq_false hfew').symm
      rwa [if_neg Bool.false_ne_true, closeLayer, if_pos hlig] at hanswer
    · have hanswer := layerEnd_predicted h hupdate hwait hended hmiss (decide_eq_true ⟨hrerun, hmany⟩).symm
      rw [if_pos rfl] at hanswer
      obtain ⟨-, hst, -⟩ := h
      have hkept := faultsKept_notePrediction ((FaultsKept.refl s).drainPlot (getCtx s ctx.val).plot) ctx.val m true
      exact ⟨_, hanswer, rerunDense_starts hkept hst⟩
  case replay =>
    obtain ⟨⟨hreplays, hcause, hstarted, hsaved, hplot, hphase⟩, hevent⟩ := restartLayer_replays r _ hauto hwait
    exact ⟨_, replay_restarts hdue hrecord stuck, hreplays, hcause, hstarted, hsaved, hplot, hevent, hphase⟩

end Sys2Proof.Machine

/-! SUPPORT. The SPATTER page: its busy bit, its operands, SPT_GO and SPATTER_DONE, and where the common header stands in the model. -/

namespace Sys2Proof.Machine

open Sys2Proof.Spec

/-! ## Words -/

/-- A word lies under the mask of all its bits. -/
theorem and_ones {v : Nat} (h : v < 2 ^ 32) : v &&& 0xFFFF_FFFF = v := Nat.and_two_pow_sub_one_of_lt_two_pow h

theorem word32_getR (s : State) (a : Nat) : word32 (getR s a) = getR s a := Nat.mod_eq_of_lt (getR_lt s a)

/-! ## The common header (R9, R431) -/

/-- The catalogue lists a page's own registers, which begin at 0x40 (R9): the common header, the same on every page, is no entry of it. -/
theorem regInfo_header (p : Page) {off : Nat} (h : off < 0x40) : regInfo p off = none := by
  have hown : (pageRegs p).all (fun r => decide (0x40 ≤ r.off)) = true := by cases p <;> rfl
  refine List.find?_eq_none.mpr fun r hr hoff => ?_
  have hge := of_decide_eq_true (List.all_eq_true.mp hown r hr)
  have heq := eq_of_beq hoff
  omega

theorem pageAt_spatter {off : Nat} (h : off < 0x1000) : pageAt (regAt .spatter 0 off) = some (.spatter, 0) := by
  have hk : regAt .spatter 0 off / 0x1000 = 0x12 := by simp only [regAt, pageBase]; omega
  unfold pageAt
  rw [hk]
  rfl

theorem wordAt_spatter (s : State) {off : Nat} (h : off < 0x1000) :
    wordAt s (regAt .spatter 0 off) = word32 (pageValue s .spatter 0 off) := by
  rw [wordAt_page s (pageAt_spatter h), regAt_mod .spatter 0 h]

/-- The page nonetheless begins with the common header: ID, CAP, CTRL, STATUS, EVENT and EVENT_EN read as R431 has them. -/
theorem spatter_header (s : State) :
    wordAt s (regAt .spatter 0 0x00) = 0x3401_0013 ∧ wordAt s (regAt .spatter 0 0x04) = 0 ∧ wordAt s (regAt .spatter 0 0x08) = 0 ∧
    wordAt s (regAt .spatter 0 0x0C) = word32 (flag s.mmu.spatter.isSome 0 + flag (pend s .spatter 0) 31) ∧
    wordAt s (regAt .spatter 0 0x10) = getR s (regAt .spatter 0 0x10) ∧ wordAt s (regAt .spatter 0 0x14) = getR s (regAt .spatter 0 0x14) := by
  have hword (off : Nat) (h : off < 0x1000) := wordAt_spatter s h
  refine ⟨hword 0x00 (by decide), hword 0x04 (by decide), hword 0x08 (by decide), hword 0x0C (by decide), ?_, ?_⟩
  · exact (hword 0x10 (by decide)).trans (word32_getR s _)
  · exact (hword 0x14 (by decide)).trans (word32_getR s _)

/-- STATUS bit 0 of the page is BUSY, whatever PEND is. -/
theorem spatter_status (s : State) : bit (wordAt s (regAt .spatter 0 0x0C)) 0 = s.mmu.spatter.isSome := by
  obtain ⟨-, -, -, hstatus, -, -⟩ := spatter_header s
  rw [hstatus]
  cases s.mmu.spatter.isSome <;> cases pend s .spatter 0 <;> rfl

/-! ## SPT_GO (R186) -/

/-- A write of SPT_GO starts the evaluation when its bit 0 is 1. -/
theorem registerWrite_sptGo (s : State) (v : Word32) :
    exec (.registerWrite 0 (pf (regAt .spatter 0 0x58)) v) s = .next (onBit (bit v.toNat 0) execSptGo s) :=
  registerWrite_page s v (pageAt_spatter (by decide)) (by decide) (by decide)

/-- While BUSY nothing starts. -/
theorem sptGo_busy {s : State} (h : s.mmu.spatter ≠ none) : Answers .sptGo s s :=
  if_pos (Option.isSome_iff_ne_none.mpr h)

/-- An evaluation takes the counter and the key as they stand. -/
theorem sptGo_starts {s : State} (h : s.mmu.spatter = none) : Answers .sptGo s { s with mmu := { s.mmu with
    spatter := some ((philox10 (getR s (regAt .spatter 0 0x48)) (getR s (regAt .spatter 0 0x4C)) (getR s (regAt .spatter 0 0x50))
      (getR s (regAt .spatter 0 0x54)) (getR s (regAt .spatter 0 0x40)) (getR s (regAt .spatter 0 0x44))).map (BitVec.ofNat 32)) } } :=
  if_neg (by simp [h])

/-- SPT_GO answers a next state, so a register write that carries it answers the same. -/
theorem onBit_sptGo (s : State) : .next (onBit true execSptGo s) = exec .sptGo s := by
  obtain ⟨t, ht⟩ : ∃ t, execSptGo s = .next t := by
    by_cases h : s.mmu.spatter = none
    · exact ⟨_, sptGo_starts h⟩
    · exact ⟨_, sptGo_busy h⟩
  rw [onBit, if_pos rfl, ht]
  exact ht.symm

/-! ## Key and counter (R8, R186) -/

/-- The key and counter registers. -/
def spatterOperands : List Nat := [0x40, 0x44, 0x48, 0x4C, 0x50, 0x54]

/-- A store of a register that is all RW bits changes register words alone, and the register reads as written: where it is the high word of a
pair, the pair in effect lies elsewhere. -/
theorem storeReg_rw {a off : Nat} (v : Word32) {s : State} (h4 : 4 ≤ a) (ha : a < 0x20_0000) (w : tabWf (0 : Word32) s.regs = true) :
    ∃ r, storeReg a v.toNat ⟨off, 0xFFFF_FFFF, 0, 0, 0, 0, 0⟩ s = withRegs r s ∧ getR (withRegs r s) a = v.toNat := by
  have hword : getR (setR a (v.toNat &&& 0xFFFF_FFFF) s) a = v.toNat := by rw [and_ones v.isLt, getR_setR_word a w v.isLt]
  obtain ⟨b, rfl⟩ := Nat.exists_eq_add_of_le' h4
  cases hlow : isRwLow b with
  | false =>
    have hstore : storeReg (b + 4) v.toNat ⟨off, 0xFFFF_FFFF, 0, 0, 0, 0, 0⟩ s = setR (b + 4) (v.toNat &&& 0xFFFF_FFFF) s := by
      rw [storeReg_word (a := b + 4) s rfl rfl rfl rfl hlow, Nat.or_zero]
    exact ⟨_, hstore, hword⟩
  | true =>
    have hlo : b + 4 ≠ effAt b := by unfold effAt; omega
    have hhi : b + 4 ≠ effAt b + 4 := by unfold effAt; omega
    have hkept (x : Nat) (t : State) : getR (setPair (effAt b) x t) (b + 4) = getR t (b + 4) := by
      rw [setPair, getR_setR_ne _ _ hhi, getR_setR_ne _ _ hlo]
    exact ⟨_, storeReg_high s hlow, (hkept _ _).trans hword⟩

section
variable {off : Nat} (h : off ∈ spatterOperands)
include h

/-- An operand's register: 32 RW bits, no command. -/
theorem spatterOperand_place : off < 0x1000 ∧ off % 4 = 0 ∧ 0x40 ≤ off ∧ off ≠ 0x58 ∧
    regInfo .spatter off = some ⟨off, 0xFFFF_FFFF, 0, 0, 0, 0, 0⟩ := by
  revert off
  decide

theorem writePage_spatterOperand (fn v : Nat) (s : State) : writePage fn .spatter 0 off v s =
    storeReg (regAt .spatter 0 off) v ⟨off, 0xFFFF_FFFF, 0, 0, 0, 0, 0⟩ s := by
  obtain ⟨-, -, h40, hgo, hr⟩ := spatterOperand_place h
  unfold writePage
  dsimp only
  rw [if_neg (by simp), if_neg (by omega), if_neg (by omega), hr]
  simp [hgo]

theorem wordAt_spatterOperand (s : State) : wordAt s (regAt .spatter 0 off) = getR s (regAt .spatter 0 off) := by
  obtain ⟨hoff, -, h40, -, hr⟩ := spatterOperand_place h
  rw [wordAt_spatter s hoff]
  unfold pageValue
  rw [if_neg (by simp), if_neg (by omega), if_neg (by omega), if_neg (by omega), if_neg (by omega), hr]
  simp [rwValue, and_ones (getR_lt s _), word32_getR]

/-- A key or counter register holds what is written to it, and nothing but register words changes. -/
theorem registerWrite_spatterOperand {s : State} (v : Word32) (w : tabWf (0 : Word32) s.regs = true) :
    ∃ r, Answers (.registerWrite 0 (pf (regAt .spatter 0 off)) v) s (withRegs r s) ∧
      getR (withRegs r s) (regAt .spatter 0 off) = v.toNat ∧ wordAt (withRegs r s) (regAt .spatter 0 off) = v.toNat := by
  obtain ⟨hoff, h4, h40, -, -⟩ := spatterOperand_place h
  have hlt := pageAt_lt (pageAt_spatter hoff)
  have hlow : 4 ≤ regAt .spatter 0 off := by unfold regAt; omega
  obtain ⟨r, hstore, hword⟩ := storeReg_rw (off := off) v hlow hlt w
  refine ⟨r, ?_, hword, (wordAt_spatterOperand h _).trans hword⟩
  rw [Answers, registerWrite_page s v (pageAt_spatter hoff) hoff h4, writePage_spatterOperand h, hstore]

end

/-! ## SPATTER_DONE (R186) -/

/-- The result registers written, SPT_OUT0 first. -/
def spatterResults (w0 w1 w2 w3 : Word32) (s : State) : State :=
  setR (regAt .spatter 0 0x68) w3.toNat (setR (regAt .spatter 0 0x64) w2.toNat (setR (regAt .spatter 0 0x60) w1.toNat
    (setR (regAt .spatter 0 0x5C) w0.toNat s)))

theorem spatterDone_answers {s : State} {w0 w1 w2 w3 : Word32} (h : s.mmu.spatter = some [w0, w1, w2, w3]) :
    Answers .spatterDone s { s with regs := (spatterResults w0 w1 w2 w3 s).regs, mmu := { s.mmu with spatter := none } } := by
  change execSpatterDone s = _
  unfold execSpatterDone
  rw [h]
  rfl

theorem spatterResults_words {s : State} (w0 w1 w2 w3 : Word32) (w : tabWf (0 : Word32) s.regs = true) :
    getR (spatterResults w0 w1 w2 w3 s) (regAt .spatter 0 0x5C) = w0.toNat ∧
    getR (spatterResults w0 w1 w2 w3 s) (regAt .spatter 0 0x60) = w1.toNat ∧
    getR (spatterResults w0 w1 w2 w3 s) (regAt .spatter 0 0x64) = w2.toNat ∧
    getR (spatterResults w0 w1 w2 w3 s) (regAt .spatter 0 0x68) = w3.toNat := by
  have wf0 := setR_wf (regAt .spatter 0 0x5C) w0.toNat w
  have wf1 := setR_wf (regAt .spatter 0 0x60) w1.toNat wf0
  have wf2 := setR_wf (regAt .spatter 0 0x64) w2.toNat wf1
  refine ⟨?_, ?_, ?_, getR_setR_word _ wf2 w3.isLt⟩ <;> unfold spatterResults
  · rw [getR_setR_ne _ _ (by decide), getR_setR_ne _ _ (by decide), getR_setR_ne _ _ (by decide), getR_setR_word _ w w0.isLt]
  · rw [getR_setR_ne _ _ (by decide), getR_setR_ne _ _ (by decide), getR_setR_word _ wf0 w1.isLt]
  · rw [getR_setR_ne _ _ (by decide), getR_setR_word _ wf1 w2.isLt]

theorem spatterResults_other {s : State} (w0 w1 w2 w3 : Word32) {a : Nat} (h : a < regAt .spatter 0 0x5C ∨ regAt .spatter 0 0x68 < a) :
    getR (spatterResults w0 w1 w2 w3 s) a = getR s a := by
  simp only [regAt, pageBase] at h
  unfold spatterResults
  rw [getR_setR_ne, getR_setR_ne, getR_setR_ne, getR_setR_ne] <;> simp only [regAt, pageBase] <;> omega

/-! ## What the obligation comes to -/

/-- In every state all clauses of the obligation hold but the first, which asks the catalogue for the common header. -/
theorem spatterByRegisters_iff : Obligations.SpatterByRegisters ↔
    ∀ off ∈ [0x00, 0x04, 0x08, 0x0C, 0x10, 0x14], (regInfo .spatter off).isSome := by
  unfold Obligations.SpatterByRegisters
  refine ⟨fun h => (h State.reset).1, fun hheader s => ⟨hheader, spatter_status s, ?go, registerWrite_sptGo s 0,
    fun off hoff v w => registerWrite_spatterOperand hoff v w, sptGo_starts, sptGo_busy, fun w0 w1 w2 w3 h w => ?done⟩⟩
  case go => exact (registerWrite_sptGo s 1).trans (onBit_sptGo s)
  case done =>
    obtain ⟨h0, h1, h2, h3⟩ := spatterResults_words w0 w1 w2 w3 w
    exact ⟨_, spatterDone_answers h, rfl, h0, h1, h2, h3, fun a ha => spatterResults_other w0 w1 w2 w3 ha⟩

/-- Refutes O21: its clause for the common header asks for a catalogue entry at offset 0, where the catalogue has none on any page. The header
itself is there to read (`spatter_header`), and every other clause holds (`spatterByRegisters_iff`). -/
theorem not_spatterByRegisters : ¬ Obligations.SpatterByRegisters := by
  rw [spatterByRegisters_iff]
  intro hheader
  have hid : (regInfo .spatter 0x00).isSome := hheader 0x00 (by decide)
  rw [regInfo_header .spatter (by decide)] at hid
  cases hid

end Sys2Proof.Machine

/-! SUPPORT. The form of memory: every function that the commands are made of keeps HBM in canonical form. One lemma for each, in the
model's order: `f_hbm` where `f` leaves HBM as it was, `f_wf` where it may write memory, clear it, lock pages or blur what stands there. -/

namespace Sys2Proof.Machine

open Sys2Proof.Spec

/-! ## Loops, edits and results -/

/-- Memory is in canonical form, open to `simp`. -/
@[simp] abbrev State.MemOk (s : State) : Prop := Memory.wf s.hbm = true

/-- What answered a result keeps the form of the state that came with it. -/
theorem State.MemOk.of_eq {α : Type} {q : α × State} {r : α} {t : State} (w : q.2.MemOk) (e : q = (r, t)) : t.MemOk := by
  subst e
  exact w

theorem State.MemOk.of_hbm {s t : State} (w : s.MemOk) (e : t.hbm = s.hbm) : t.MemOk := by
  rw [State.MemOk, e]
  exact w

@[simp] theorem hbm_ite (p : Prop) [Decidable p] (a b : State) : (if p then a else b).hbm = if p then a.hbm else b.hbm :=
  apply_ite State.hbm p a b

@[simp] theorem snd_ite {α : Type} (p : Prop) [Decidable p] (a b : α × State) : (if p then a else b).2 = if p then a.2 else b.2 :=
  apply_ite Prod.snd p a b

@[simp] theorem memory_wf_ite (p : Prop) [Decidable p] (a b : Hbm) :
    Memory.wf (if p then a else b) = if p then Memory.wf a else Memory.wf b :=
  apply_ite Memory.wf p a b

/-- `bump_hbm` as a rewrite: read as a definitional equality, it makes the kernel compute the field that is counted. -/
theorem hbm_bump (a hi lo n : Nat) (s : State) : (bump a hi lo n s).hbm = s.hbm := by
  rw [bump_hbm]

theorem forEach_hbm {α : Type} (xs : List α) {f : α → State → State} {s : State} (hf : ∀ x u, (f x u).hbm = u.hbm) :
    (forEach xs f s).hbm = s.hbm := by
  induction xs generalizing s with
  | nil => rfl
  | cons x xs ih => exact ih.trans (hf x s)

theorem forEach_wf {α : Type} (xs : List α) {f : α → State → State} {s : State} (hf : ∀ x u, u.MemOk → (f x u).MemOk) (w : s.MemOk) :
    (forEach xs f s).MemOk := by
  induction xs generalizing s with
  | nil => exact w
  | cons x xs ih => exact ih (hf x s w)

theorem foldl_wf {α β : Type} (xs : List α) {f : β × State → α → β × State} {p : β × State}
    (hf : ∀ q x, q.2.MemOk → (f q x).2.MemOk) (w : p.2.MemOk) : (xs.foldl f p).2.MemOk := by
  induction xs generalizing p with
  | nil => exact w
  | cons x xs ih => exact ih (hf p x w)

theorem foldl_fst_hbm {α β : Type} (xs : List α) {f : State × β → α → State × β} {p : State × β}
    (hf : ∀ q x, (f q x).1.hbm = q.1.hbm) : (xs.foldl f p).1.hbm = p.1.hbm := by
  induction xs generalizing p with
  | nil => rfl
  | cons x xs ih => exact ih.trans (hf p x)

/-! A function with a bulk size in its body (`saveNib`, `imagePieces`, `beginStep`) is opened as an equation between functions, and the
callee that takes the size is made a variable (`∃ f, vTargets = f`): the kernel would otherwise count the bytes. -/

theorem MemEdits.wf {s t : State} (h : MemEdits s t) (w : s.MemOk) : t.MemOk := by
  induction h with
  | refl => exact w
  | tail _ e ih => cases e <;> exact ih

theorem LayerEdits.wf {s t : State} (h : LayerEdits s t) (w : s.MemOk) : t.MemOk := by
  induction h with
  | refl => exact w
  | tail _ e ih =>
    cases e with
    | mem e => exact MemEdits.wf (.single e) ih
    | bytes a data => exact hbm_write_wf _ a data ih
    | _ => exact ih

/-- If the command ends in a next state, memory is in canonical form there. -/
def EndsWf (o : Host.Outcome State Fault Refusal) : Prop := ∀ t, o = .next t → t.MemOk

@[simp] theorem endsWf_next (t : State) : EndsWf (.next t) ↔ t.MemOk := by simp [EndsWf]
@[simp] theorem endsWf_fault (e : Fault) : EndsWf (.fault e) := by simp [EndsWf]
@[simp] theorem endsWf_refused (e : Refusal) : EndsWf (.refused e) := by simp [EndsWf]
@[simp] theorem endsWf_ite (p : Prop) [Decidable p] (a b : Host.Outcome State Fault Refusal) :
    EndsWf (if p then a else b) ↔ if p then EndsWf a else EndsWf b := by
  split <;> rfl

/-- Where a row of a descriptor goes on or stops, memory is in canonical form. -/
def Sent.MemOk : Sent → Prop
  | .more t => t.MemOk
  | .wait => True
  | .stop t => t.MemOk

section

variable {s : State}

/-! ## Registers, events and messages -/

@[simp] theorem flushVec_hbm (fn vec : Nat) : (flushVec fn vec s).hbm = s.hbm := by simp [flushVec]

@[simp] theorem flushAll_hbm : (flushAll s).hbm = s.hbm := by
  fun_cases flushAll
  grind -ring -linarith [forEach_hbm, forEach_wf, flushVec_hbm]

@[simp] theorem logAt_hbm (stamp : Nat) (coalesced : Bool) (p : Page) (j event : Nat) (n : Note) :
    (logAt stamp coalesced p j event n s).hbm = s.hbm := rfl

@[simp] theorem raiseOpen_hbm (p : Page) (j event : Nat) (ctx : Option Nat) : (raiseOpen p j event ctx s).hbm = s.hbm := by simp [raiseOpen]

/-! ## The repair map in service -/

@[simp] theorem mapChanged_hbm (e : Nat) : (mapChanged e s).hbm = s.hbm := by simp [mapChanged]

@[simp] theorem mapRewrite_hbm (old new : Nat) : (mapRewrite old new s).hbm = s.hbm := by simp [mapRewrite]

/-! ## HBM behind its controllers -/

@[simp] theorem setStackTemp_hbm (mc t : Nat) : (setStackTemp mc t s).hbm = s.hbm := rfl

@[simp] theorem injectError_wf (row : Nat) (hs : s.MemOk) : (injectError row s).MemOk := (injectError_same _ s).wf hs

@[simp] theorem stackWrite_wf (row : Nat) (keep : Nat → Bool) (hs : s.MemOk) :
    (stackWrite row keep s).MemOk := (stackWrite_same _ _ s).wf hs

@[simp] theorem poisonRow_wf (row : Nat) (hs : s.MemOk) : (poisonRow row s).MemOk := (poisonRow_same _ s).wf hs

@[simp] theorem checkRow_wf (row : Nat) (back : Bool) (hs : s.MemOk) : (checkRow row back s).MemOk := (checkRow_same _ _ s).wf hs

@[simp] theorem copyDram_wf (mc key : Nat) (hs : s.MemOk) : (copyDram mc key s).MemOk := (copyDram_same _ _ s).wf hs

@[simp] theorem awaitRepair_wf (dpa : Nat) (hs : s.MemOk) : (awaitRepair dpa s).MemOk := (awaitRepair_same _ s).wf hs

@[simp] theorem correctLine_wf (l : Line) (hs : s.MemOk) : (correctLine l s).MemOk := (correctLine_same _ s).wf hs

@[simp] theorem spillLine_wf (l : Line) (hs : s.MemOk) : (spillLine l s).MemOk := (spillLine_same _ s).wf hs

@[simp] theorem dropWay_wf (mc w : Nat) (hs : s.MemOk) : (dropWay mc w s).MemOk := (dropWay_same _ _ s).wf hs

@[simp] theorem reserveWay_wf (mc slice a : Nat) (hs : s.MemOk) : (reserveWay mc slice a s).MemOk := (reserveWay_same _ _ _ s).wf hs

@[simp] theorem retireWay_wf (mc w : Nat) (hs : s.MemOk) : (retireWay mc w s).MemOk := (retireWay_same _ _ s).wf hs

@[simp] theorem judgeWay_wf (l : Line) (hs : s.MemOk) : (judgeWay l s).MemOk := (judgeWay_same _ s).wf hs

@[simp] theorem insertLine_wf (al : Alloc) (dpa : Nat) (dirty : Bool) (errs : Tab CwErr) (hs : s.MemOk) :
    (insertLine al dpa dirty errs s).MemOk := (insertLine_same _ _ _ _ s).wf hs

@[simp] theorem reserveWays_wf (hs : s.MemOk) : (reserveWays s).MemOk := (reserveWays_same s).wf hs

@[simp] theorem flushCaches_wf (hs : s.MemOk) : (flushCaches s).MemOk := (flushCaches_same s).wf hs

@[simp] theorem settleLine_wf (dpa : Nat) (hs : s.MemOk) : (settleLine dpa s).MemOk := (settleLine_same _ s).wf hs

@[simp] theorem readRowAt_wf (al : Alloc) (row : Nat) (hs : s.MemOk) : (readRowAt al row s).2.MemOk := (readRowAt_same _ _ s).wf hs

@[simp] theorem writeRowAt_wf (al : Alloc) (a n : Nat) (hs : s.MemOk) : (writeRowAt al a n s).MemOk := (writeRowAt_same _ _ _ s).wf hs

@[simp] theorem serveReads_wf (row : Nat) (hs : s.MemOk) : (serveReads row s).MemOk := (serveReads_same _ s).wf hs

@[simp] theorem readsFirst_wf (lo hi : Nat) (hs : s.MemOk) : (readsFirst lo hi s).MemOk := (readsFirst_same _ _ s).wf hs

@[simp] theorem leaveTag_wf (x : Xfer) (hs : s.MemOk) : (leaveTag x s).MemOk := (leaveTag_same _ s).wf hs

@[simp] theorem comeToBank_wf (dpa : Nat) (hs : s.MemOk) : (comeToBank dpa s).MemOk := (comeToBank_same _ s).wf hs

@[simp] theorem memReadAs_wf (al : Alloc) (a n : Nat) (hs : s.MemOk) : (memReadAs al a n s).2.MemOk := (memReadAs_same _ _ _ s).wf hs

@[simp] theorem memWriteAs_wf (al : Alloc) (a : Nat) (data : List Byte) (hs : s.MemOk) :
    (memWriteAs al a data s).MemOk := (layerEdits_memWriteAs .refl _ _ _).wf hs

@[simp] theorem bypassRows_wf (lo hi : Nat) (hs : s.MemOk) : (bypassRows lo hi s).MemOk := (bypassRows_same _ _ s).wf hs

@[simp] theorem writeBulk_wf (lo hi : Nat) (hs : s.MemOk) : (writeBulk lo hi s).MemOk := (writeBulk_same _ _ s).wf hs

@[simp] theorem walkRead_wf (table idx : Nat) (hs : s.MemOk) : (walkRead table idx s).2.MemOk := by
  fun_cases walkRead
  grind -ring -linarith [memRead_wf]

@[simp] theorem walkLevels_wf (c va : Nat) (hs : s.MemOk) : (walkLevels c va s).2.MemOk := (memEdits_walkLevels .refl _ _).wf hs

@[simp] theorem walk_wf (c va : Nat) (hs : s.MemOk) : (walk c va s).2.MemOk := (memEdits_walk .refl _ _).wf hs

@[simp] theorem translate_wf (c va : Nat) (write : Bool) (hs : s.MemOk) :
    (translate c va write s).2.MemOk := (layerEdits_translate .refl _ _ _).wf hs

@[simp] theorem ptFault_hbm (c va reason : Nat) : (ptFault c va reason s).hbm = s.hbm := by simp [ptFault]

theorem vReadBy_wf {tr : Translate} (htr : ∀ va u, u.MemOk → (tr va u).2.MemOk) (va n : Nat) (hs : s.MemOk) :
    (vReadBy tr va n s).2.MemOk := by
  refine foldl_wf _ (fun q x hq => ?_) hs
  grind [memReadAs_wf]

@[simp] theorem vRead_wf (c va n : Nat) (hs : s.MemOk) : (vRead c va n s).2.MemOk := vReadBy_wf (fun _ _ => translate_wf _ _ _) va n hs

theorem vTargetsBy_wf {tr : Translate} (htr : ∀ va u, u.MemOk → (tr va u).2.MemOk) (va n : Nat) (hs : s.MemOk) :
    (vTargetsBy tr va n s).2.MemOk := by
  refine foldl_wf _ (fun q x hq => ?_) hs
  grind

@[simp] theorem vTargets_wf (c va n : Nat) (hs : s.MemOk) : (vTargets c va n s).2.MemOk := (layerEdits_vTargets .refl _ _ _).wf hs

@[simp] theorem writePieces_wf (a : List (Nat × Nat)) (a1 : List Byte) (hs : s.MemOk) :
    (writePieces a a1 s).MemOk := (layerEdits_writePieces .refl _ _).wf hs

theorem vWriteBy_wf {tr : Translate} (htr : ∀ va u, u.MemOk → (tr va u).2.MemOk) (va : Nat) (data : List Byte) (hs : s.MemOk) :
    (vWriteBy tr va data s).2.MemOk := by
  fun_cases vWriteBy <;> grind [vTargetsBy_wf, writePieces_wf]

@[simp] theorem vWrite_wf (c va : Nat) (data : List Byte) (hs : s.MemOk) :
    (vWrite c va data s).2.MemOk := (layerEdits_vWrite .refl _ _ _).wf hs

/-! ## Cached translations -/

@[simp] theorem cacheTranslation_hbm (nib c va a : Nat) (w : Bool) : (cacheTranslation nib c va a w s).hbm = s.hbm := rfl

@[simp] theorem nibTranslate_wf (nib c : Nat) (write : Bool) (va : Nat) (hs : s.MemOk) : (nibTranslate nib c write va s).2.MemOk := by
  fun_cases nibTranslate <;> grind -ring -linarith [walk_wf, cacheTranslation_hbm]

/-! ## Rows that land, and a plot that drains -/

@[simp] theorem moveBytes_hbm (c off n : Nat) : (moveBytes c off n s).hbm = s.hbm := by
  unfold moveBytes
  dsimp only
  repeat' split
  all_goals simp

@[simp] theorem pushRow_hbm (nib va : Nat) (data : Row) : (pushRow nib va data s).hbm = s.hbm := by
  unfold pushRow
  dsimp only
  repeat' split
  all_goals simp

@[simp] theorem acceptWrite_wf (x : Xfer) (hs : s.MemOk) : (acceptWrite x s).MemOk := (layerEdits_acceptWrite .refl _).wf hs

@[simp] theorem deliverSignal_hbm (nib seq : Nat) : (deliverSignal nib seq s).hbm = s.hbm := by
  unfold deliverSignal
  dsimp only
  repeat' split
  all_goals simp

@[simp] theorem settleRow_hbm (nib seq i : Nat) (data : Row) : (settleRow nib seq i data s).hbm = s.hbm := rfl

@[simp] theorem failDraining_hbm (nib seq : Nat) (b : Blame) : (failDraining nib seq b s).hbm = s.hbm := by
  unfold failDraining
  dsimp only
  repeat' split
  all_goals simp

@[simp] theorem noteIwDetect_hbm (c nib row reader : Nat) : (noteIwDetect c nib row reader s).hbm = s.hbm := by simp [noteIwDetect]

@[simp] theorem settlePull_hbm (x : Xfer) : (settlePull x s).hbm = s.hbm := by
  unfold settlePull
  repeat' split
  all_goals simp

@[simp] theorem dropXfer_hbm (x : Xfer) : (dropXfer x s).hbm = s.hbm := rfl

@[simp] theorem readDraining_wf (x : Xfer) (hs : s.MemOk) : (readDraining x s).2.MemOk := (layerEdits_readDraining .refl _).wf hs

@[simp] theorem settleHint_wf (x : Xfer) (hs : s.MemOk) : (settleHint x s).MemOk := (layerEdits_settleHint .refl _).wf hs

@[simp] theorem settleXfer_wf (x : Xfer) (hs : s.MemOk) : (settleXfer x s).MemOk := (layerEdits_settleXfer .refl _).wf hs

@[simp] theorem drainPlot_wf (plot : List Nat) (hs : s.MemOk) : (drainPlot plot s).MemOk := (layerEdits_drainPlot .refl _).wf hs

/-! ## Groves, quiesce, completion, fault and replay -/

@[simp] theorem wakeGrove_hbm (g : Nat) : (wakeGrove g s).hbm = s.hbm := by
  unfold wakeGrove
  dsimp only
  repeat' split
  all_goals simp

@[simp] theorem modGroveNibs_hbm (g : Nat) (f : Nib → Nib) : (modGroveNibs g f s).hbm = s.hbm := forEach_hbm _ fun _ _ => modNib_hbm ..

@[simp] theorem gateGrove_hbm (pw : GrovePower) (g : Nat) : (gateGrove pw g s).hbm = s.hbm := by simp [gateGrove]

@[simp] theorem dropGrove_hbm (g : Nat) : (dropGrove g s).hbm = s.hbm := by
  unfold dropGrove
  dsimp only
  repeat' split
  all_goals simp

@[simp] theorem scrubGrove_hbm (g : Nat) : (scrubGrove g s).hbm = s.hbm := by simp [scrubGrove]

@[simp] theorem freePlot_hbm (c : Nat) : (freePlot c s).hbm = s.hbm := by
  fun_cases freePlot
  grind -ring -linarith [modCtx_hbm, forEach_hbm, forEach_wf, dropGrove_hbm]

@[simp] theorem restoreImage_wf (p : PreImage) (hs : s.MemOk) : (restoreImage p s).MemOk := (layerEdits_restoreImage .refl _).wf hs

@[simp] theorem rollScribe_wf (c m : Nat) (hs : s.MemOk) : (rollScribe c m s).MemOk := (layerEdits_rollScribe .refl _ _).wf hs

@[simp] theorem rollback_wf (c : Nat) (hs : s.MemOk) : (rollback c s).MemOk := (layerEdits_rollback .refl _).wf hs

@[simp] theorem stopScribes_hbm (c : Nat) : (stopScribes c s).hbm = s.hbm := forEach_hbm _ fun _ _ => modScribe_hbm ..

@[simp] theorem dropOwned_hbm : (dropOwned s).hbm = s.hbm := forEach_hbm _ fun _ _ => modScribe_hbm ..

@[simp] theorem chargeTime_hbm (c : Nat) : (chargeTime c s).hbm = s.hbm := by simp [chargeTime]

@[simp] theorem quiesce_wf (c : Nat) (hs : s.MemOk) : (quiesce c s).MemOk := (layerEdits_quiesce .refl _).wf hs

@[simp] theorem putCompletion_wf (c code : Nat) (hs : s.MemOk) :
    (putCompletion c code s).2.MemOk := (layerEdits_putCompletion .refl _ _).wf hs

@[simp] theorem ctxMessage_hbm (c : Nat) : (ctxMessage c s).hbm = s.hbm := by simp [ctxMessage]

@[simp] theorem enterFaulted_hbm (c code wanted : Nat) : (enterFaulted c code wanted s).hbm = s.hbm := by simp [enterFaulted]

@[simp] theorem ctxFault_wf (c code : Nat) (hs : s.MemOk) : (ctxFault c code s).MemOk := (layerEdits_ctxFault .refl _ _).wf hs

@[simp] theorem ctxFaultQuiet_wf (c code wanted : Nat) (hs : s.MemOk) : (ctxFaultQuiet c code wanted s).MemOk := by simp [ctxFaultQuiet, hs]

@[simp] theorem pageFault_wf (c va reason : Nat) (hs : s.MemOk) : (pageFault c va reason s).MemOk := by simp [pageFault, hs]

@[simp] theorem loseAttempt_hbm (c cause : Nat) : (loseAttempt c cause s).hbm = s.hbm := by simp [loseAttempt]

@[simp] theorem unwait_hbm (c : Nat) : (unwait c s).hbm = s.hbm := by simp [unwait]

@[simp] theorem barReplay_wf (c cause : Nat) (hs : s.MemOk) : (barReplay c cause s).MemOk := (layerEdits_barReplay .refl _ _).wf hs

@[simp] theorem replayError_wf (next : Phase) (c : Nat) (b : Blame) (hs : s.MemOk) :
    (replayError next c b s).MemOk := (layerEdits_replayError .refl _ _ _).wf hs

@[simp] theorem replayFor_wf (c cause : Nat) (hs : s.MemOk) : (replayFor c cause s).MemOk := by simp [replayFor, hs]

@[simp] theorem replayRow_wf (c dpa : Nat) (hs : s.MemOk) : (replayRow c dpa s).MemOk := by simp [replayRow, hs]

@[simp] theorem iwDetect_wf (c nib row reader : Nat) (hs : s.MemOk) : (iwDetect c nib row reader s).MemOk := by simp [iwDetect, hs]

@[simp] theorem staleRow_wf (c nib row reader : Nat) (hs : s.MemOk) : (staleRow c nib row reader s).MemOk := by simp [staleRow, hs]

@[simp] theorem nibFault_wf (p : Page) (event n nib pc reason : Nat) (hs : s.MemOk) : (nibFault p event n nib pc reason s).MemOk := by
  unfold nibFault
  dsimp only
  repeat' split
  all_goals simp [hs]

/-! ## Ports: frames and announcements -/

@[simp] theorem portEvent_hbm (p ev arg : Nat) : (portEvent p ev arg s).hbm = s.hbm := by simp [portEvent]

@[simp] theorem setPresent_hbm (k : Nat) (b : Bool) : (setPresent k b s).hbm = s.hbm := rfl

@[simp] theorem announce_hbm (p : Nat) : (announce p s).hbm = s.hbm := by simp [announce]

@[simp] theorem dropPort_hbm (p why : Nat) : (dropPort p why s).hbm = s.hbm := by simp [dropPort]

@[simp] theorem sendFrames_hbm (p : Nat) : (sendFrames p s).hbm = s.hbm := rfl

@[simp] theorem enterRetrain_hbm (p : Nat) : (enterRetrain p s).hbm = s.hbm := by simp [enterRetrain]

@[simp] theorem noteLane_hbm (p : Nat) (rx : Bool) (lane : Nat) : (noteLane p rx lane s).hbm = s.hbm := by simp [noteLane]

@[simp] theorem queueControl_hbm (p : Nat) (u : LinkUnit) : (queueControl p u s).hbm = s.hbm := rfl

@[simp] theorem deliver_hbm (p : Nat) (pkt : List LinkUnit) : (deliver p pkt s).hbm = s.hbm := by simp [deliver, -bump_hbm, hbm_bump]

@[simp] theorem takeUnit_hbm (p : Nat) (u : LinkUnit) : (takeUnit p u s).hbm = s.hbm := by simp [takeUnit]

@[simp] theorem sparePattern_hbm (p : Nat) (old new : Option Nat) : (sparePattern p old new s).hbm = s.hbm := by
  unfold sparePattern
  split <;> simp

@[simp] theorem sendCodeword_hbm (p : Nat) : (sendCodeword p s).hbm = s.hbm := by
  unfold sendCodeword
  dsimp only
  repeat' split
  all_goals simp

@[simp] theorem dropAcked_hbm (p : Nat) (cw : Codeword) : (dropAcked p cw s).hbm = s.hbm := rfl

@[simp] theorem takeAck_hbm (p : Nat) (cw : Codeword) : (takeAck p cw s).hbm = s.hbm := by simp [takeAck]

@[simp] theorem rxSwitchNow_hbm (p : Nat) : (rxSwitchNow p s).hbm = s.hbm := by
  unfold rxSwitchNow
  dsimp only
  repeat' split
  all_goals simp

@[simp] theorem emitIdent_hbm (p : Nat) (e : SentCw) : (emitIdent p e s).hbm = s.hbm := rfl

@[simp] theorem sendIdent_hbm (p : Nat) (us : List LinkUnit) : (sendIdent p us s).hbm = s.hbm := rfl

@[simp] theorem emitUnits_hbm (p a : Nat) (a2 : List LinkUnit) : (emitUnits p a a2 s).hbm = s.hbm := by
  induction a generalizing a2 s with
  | zero => rfl
  | succ fuel ih => unfold emitUnits; split <;> simp [ih]

@[simp] theorem sendPackets_hbm (p : Nat) (pkts : List (List LinkUnit)) : (sendPackets p pkts s).hbm = s.hbm := by simp [sendPackets]

@[simp] theorem sendNonce_hbm (p : Nat) (n : BitVec 256) : (sendNonce p n s).hbm = s.hbm := by simp [sendNonce]

@[simp] theorem sendBlock_hbm (p : Nat) (b : List Byte) : (sendBlock p b s).hbm = s.hbm := by simp [sendBlock]

@[simp] theorem beginIdentify_hbm (p : Nat) : (beginIdentify p s).hbm = s.hbm := by simp [beginIdentify]

@[simp] theorem oweIdent_hbm (p n : Nat) : (oweIdent p n s).hbm = s.hbm := rfl

@[simp] theorem takeIdent_hbm (p : Nat) (pkt : List LinkUnit) : (takeIdent p pkt s).hbm = s.hbm := by
  unfold takeIdent
  dsimp only
  repeat' split
  all_goals simp

@[simp] theorem identUnit_hbm (p : Nat) (u : LinkUnit) : (identUnit p u s).hbm = s.hbm := by simp [identUnit]

@[simp] theorem identCodeword_hbm (p : Nat) (cw : Codeword) : (identCodeword p cw s).hbm = s.hbm := by
  fun_cases identCodeword <;> grind -ring -linarith [setPort_hbm, modPort_hbm, forEach_hbm, forEach_wf, emitIdent_hbm, sendPackets_hbm,
      identUnit_hbm]

@[simp] theorem identLost_hbm (p : Nat) : (identLost p s).hbm = s.hbm := rfl

@[simp] theorem earlyCodeword_hbm (p : Nat) (cw : Codeword) : (earlyCodeword p cw s).hbm = s.hbm := by simp [earlyCodeword]

@[simp] theorem enterReady_hbm (p : Nat) (peer : Peer) : (enterReady p peer s).hbm = s.hbm := by simp [enterReady]

@[simp] theorem endRetrain_hbm (p : Nat) (peer : Peer) : (endRetrain p peer s).hbm = s.hbm := by simp [endRetrain]

@[simp] theorem countSymErrs_hbm (p : Nat) (errs : Vector Nat 9) : (countSymErrs p errs s).hbm = s.hbm := rfl

/-! ## The pass over the slots, and energy -/

@[simp] theorem probeRead_wf (c va n : Nat) (hs : s.MemOk) : (probeRead c va n s).2.MemOk := by
  refine foldl_wf _ (fun q x hq => ?_) hs
  grind [translate_wf]

@[simp] theorem refuseRecord_wf (c reason : Nat) (err : Option VErr) (hs : s.MemOk) : (refuseRecord c reason err s).MemOk := by
  unfold refuseRecord
  dsimp only
  repeat' split
  all_goals simp [hs]

@[simp] theorem checkCompl_wf (c : Nat) (r : Record) (hs : s.MemOk) : (checkCompl c r s).MemOk := by
  fun_cases checkCompl <;> grind -ring -linarith [translate_wf, refuseRecord_wf]

@[simp] theorem checkImage_wf (c : Nat) (r : Record) (hb : List Byte) (hs : s.MemOk) : (checkImage c r hb s).MemOk := by
  fun_cases checkImage <;> grind -ring -linarith [modCtx_hbm, probeRead_wf, refuseRecord_wf, checkCompl_wf]

@[simp] theorem readRecord_wf (c va : Nat) (hs : s.MemOk) : (readRecord c va s).MemOk := by
  fun_cases readRecord <;> grind -ring -linarith [modCtx_hbm, raise_hbm, ptFault_hbm, vRead_wf, ctxFault_wf, ctxFaultQuiet_wf,
      refuseRecord_wf, checkImage_wf]

@[simp] theorem readNext_wf (c : Nat) (hs : s.MemOk) : (readNext c s).MemOk := by
  fun_cases readNext <;> grind -ring -linarith [modCtx_hbm, ptFault_hbm, vRead_wf, ctxFaultQuiet_wf, readRecord_wf]

@[simp] theorem takeSlot_hbm (c slot : Nat) : (takeSlot c slot s).hbm = s.hbm := rfl

@[simp] theorem dropSlot_hbm (c : Nat) : (dropSlot c s).hbm = s.hbm := by
  unfold dropSlot
  split <;> simp

@[simp] theorem swapIn_wf (c slot : Nat) (hs : s.MemOk) : (swapIn c slot s).MemOk := by simp [swapIn, -bump_hbm, hbm_bump, hs]

@[simp] theorem swapBest_wf (hs : s.MemOk) : (swapBest s).MemOk := by
  unfold swapBest
  split <;> simp [hs]

@[simp] theorem evicted_hbm (c new : Nat) : (evicted c new s).hbm = s.hbm := by simp [evicted]

@[simp] theorem blurHeader_wf (c : Nat) (hs : s.MemOk) : (blurHeader c s).MemOk := by
  fun_cases blurHeader <;> grind -ring -linarith [forEach_hbm, forEach_wf, memBlur_wf, vTargets_wf]

@[simp] theorem finishEvict_wf (c : Nat) (hs : s.MemOk) : (finishEvict c s).MemOk := by
  unfold finishEvict
  dsimp only
  repeat' split
  all_goals simp [hs]

@[simp] theorem parkUpdate_hbm (c : Nat) : (parkUpdate c s).hbm = s.hbm := by simp [parkUpdate, -bump_hbm, hbm_bump]

@[simp] theorem beginEvict_wf (c : Nat) (hs : s.MemOk) : (beginEvict c s).MemOk := by simp [beginEvict, hs]

@[simp] theorem countingSteps_hbm {f : State → State} (hf : (f s).hbm = s.hbm) : (countingSteps f s).hbm = s.hbm := by
  simp [countingSteps, -bump_hbm, hbm_bump, hf]

@[simp] theorem stopSweep_hbm (g : Nat) : (stopSweep g s).hbm = s.hbm := by simp [stopSweep]

@[simp] theorem joinGrove_hbm (c step g : Nat) : (joinGrove c step g s).hbm = s.hbm := by simp [joinGrove]

@[simp] theorem dispatch_hbm (c : Nat) (r : Record) (p : Place) (urgent : Bool) : (dispatch c r p urgent s).hbm = s.hbm := by
  have hvictims (u : State) : (forEach p.victims (fun v s => modCtx v (fun y => { y with phase := .saving, preempted := y.preempted ||
    y.st == .running }) s) u).hbm = u.hbm := forEach_hbm _ fun _ _ => modCtx_hbm ..
  unfold dispatch
  simp [countingSteps, forEach_hbm, hvictims]

/-- The state that a visit of the pass leaves. -/
def Visit.after : Visit → State
  | .go t => t
  | .stop _ t => t
  | .hold t => t

theorem visit_wf (inTick : Bool) (c : Nat) (hs : s.MemOk) : (visit inTick c s).after.MemOk := by
  fun_cases visit <;> grind [Visit.after, refuseRecord_wf, dispatch_hbm, raise_hbm, bump_hbm]

@[simp] theorem setStopped_hbm (b : Bool) : (setStopped b s).hbm = s.hbm := rfl

@[simp] theorem visitAll_wf (inTick : Bool) (a : List Nat) (hs : s.MemOk) : (visitAll inTick a s).MemOk := by
  induction a generalizing s with
  | nil => exact hs
  | cons c cs ih =>
    have hv := visit_wf inTick c hs
    unfold visitAll
    split <;> simp_all [Visit.after]

@[simp] theorem pass_wf (inTick : Bool) (hs : s.MemOk) : (pass inTick s).MemOk := by simp [pass, hs]

@[simp] theorem stepPlot_hbm (c k : Nat) : (stepPlot c k s).hbm = s.hbm := by
  fun_cases stepPlot
  grind -ring -linarith [modCtx_hbm, modGrove_hbm, forEach_hbm, forEach_wf]

@[simp] theorem adjustClocks_hbm (e refill : Nat) : (adjustClocks e refill s).hbm = s.hbm := by
  unfold adjustClocks
  dsimp only
  repeat' split
  all_goals simp

@[simp] theorem giveEnergy_hbm (c uj : Nat) : (giveEnergy c uj s).hbm = s.hbm := by
  unfold giveEnergy
  dsimp only
  repeat' split
  all_goals simp

@[simp] theorem shareEnergy_hbm (i : TickIn) : (shareEnergy i s).hbm = s.hbm := by
  have hgive (cs : List Nat) (rest total : Nat) (u : State) :
      (forEach cs (fun c s => giveEnergy c (rest * (getCtx s c).tickBytes / total) s) u).hbm = u.hbm :=
    forEach_hbm _ fun _ _ => giveEnergy_hbm ..
  have hbytes (cs : List Nat) (u : State) : (forEach cs (fun c s => modCtx c (fun x => { x with tickBytes := 0 }) s) u).hbm = u.hbm :=
    forEach_hbm _ fun _ _ => modCtx_hbm ..
  delta shareEnergy
  extract_lets sum
  split
  next u idle h =>
  have hu : u.hbm = s.hbm := by
    refine (congrArg (fun q => q.1.hbm) h).symm.trans (foldl_fst_hbm _ fun q g => ?_)
    grind [giveEnergy_hbm]
  extract_lets rest cs
  split
  next v idle h =>
  have hv : v.hbm = u.hbm := by
    refine (congrArg (fun q => q.1.hbm) h).symm.trans ?_
    split
    · rfl
    · exact hgive ..
  exact (addPair_hbm ..).trans ((hbytes ..).trans (hv.trans hu))

/-! ## Supply, clocks and heat -/

@[simp] theorem modRail_hbm (i : Nat) (f : Rail → Rail) : (modRail i f s).hbm = s.hbm := rfl

@[simp] theorem sampleRail_hbm (i mv : Nat) : (sampleRail i mv s).hbm = s.hbm := by simp [sampleRail]

@[simp] theorem setMevent_hbm (b : Nat) : (setMevent b s).hbm = s.hbm := rfl

@[simp] theorem stopDevice_wf (code : Nat) (hs : s.MemOk) : (stopDevice code s).MemOk := by
  fun_cases stopDevice <;> grind -ring -linarith [forEach_hbm, forEach_wf, ctxFault_wf]

@[simp] theorem thermTrip_wf (hs : s.MemOk) : (thermTrip s).MemOk := by
  unfold thermTrip
  dsimp only
  repeat' split
  all_goals simp [hs]

@[simp] theorem sampleMargins_hbm (i : TickIn) : (sampleMargins i s).hbm = s.hbm := by
  fun_cases sampleMargins
  grind -ring -linarith [modPNib_hbm, forEach_hbm, forEach_wf]

@[simp] theorem sample_hbm (i : TickIn) : (sample i s).hbm = s.hbm := by
  fun_cases sample
  grind -ring -linarith [takeFree_hbm, forEach_hbm, forEach_wf, setStackTemp_hbm, sampleRail_hbm, setMevent_hbm, sampleMargins_hbm]

@[simp] theorem thermalLimits_hbm : (thermalLimits s).hbm = s.hbm := by
  fun_cases thermalLimits <;> grind -ring -linarith [bump_hbm, setGrove_hbm, forEach_hbm, forEach_wf, raise_hbm]

@[simp] theorem thermalHolds_hbm : (thermalHolds s).hbm = s.hbm := by simp [thermalHolds]

@[simp] theorem updateTokens_hbm (e : Nat) : (updateTokens e s).hbm = s.hbm := rfl

@[simp] theorem ageContexts_hbm : (ageContexts s).hbm = s.hbm := by
  fun_cases ageContexts
  grind -ring -linarith [addPair_hbm, setCtx_hbm, modCtx_hbm, forEach_hbm, forEach_wf]

@[simp] theorem swapTick_wf (hs : s.MemOk) : (swapTick s).MemOk := by
  fun_cases swapTick
  grind -ring -linarith [modCtx_hbm, forEach_hbm, forEach_wf, swapBest_wf, beginEvict_wf]

@[simp] theorem countIdle_hbm : (countIdle s).hbm = s.hbm := forEach_hbm _ fun _ _ => modGrove_hbm ..

@[simp] theorem flushCes_hbm : (flushCes s).hbm = s.hbm := by
  fun_cases flushCes
  grind -ring -linarith [forEach_hbm, forEach_wf, logAt_hbm]

@[simp] theorem countRun_hbm : (countRun s).hbm = s.hbm := by simp [countRun]

theorem execUnderstoryTick_wf (i : TickIn) (hs : s.MemOk) : EndsWf (execUnderstoryTick i s) := by
  have hcharge (cs : List Nat) (u : State) : (forEach cs chargeTime u).hbm = u.hbm := forEach_hbm _ fun c _ => chargeTime_hbm c
  delta execUnderstoryTick
  split
  · exact (endsWf_next s).mpr hs
  · extract_lets t1 t2 mj ranger t3 t4 refill t5 t6
    have h1 : t1.MemOk := thermTrip_wf (State.MemOk.of_hbm hs (sample_hbm ..))
    have h2 : t2.MemOk := State.MemOk.of_hbm h1 ((countingSteps_hbm (thermalLimits_hbm ..)).trans (thermalHolds_hbm ..))
    have h3 : t3.MemOk := by
      have e : t3.hbm = t2.hbm := by simp only [t3]
      exact State.MemOk.of_hbm h2 e
    have h4 : t4.MemOk := by
      have e : t4.hbm = t3.hbm := (hcharge (ctxIds t3) (shareEnergy i t3)).trans (shareEnergy_hbm i)
      exact State.MemOk.of_hbm h3 e
    have h5 : t5.MemOk := State.MemOk.of_hbm h4 ((countingSteps_hbm (adjustClocks_hbm ..)).trans (updateTokens_hbm ..))
    have h6 : t6.MemOk := by
      simp only [t6]
      split
      · exact State.MemOk.of_hbm (pass_wf true (swapTick_wf (State.MemOk.of_hbm h5 (ageContexts_hbm ..)))) (countIdle_hbm ..)
      · exact h2
    exact (endsWf_next _).mpr (State.MemOk.of_hbm h6 ((countRun_hbm ..).trans (flushCes_hbm ..)))

theorem execRailWarning_wf (rail : Fin 8) (mv : BitVec 12) (hs : s.MemOk) :
    EndsWf (execRailWarning rail mv s) := by simp [execRailWarning, hs]

theorem execRailRecover_wf (mv : Vector (BitVec 12) 8) (hs : s.MemOk) : EndsWf (execRailRecover mv s) := by
  simp [execRailRecover, forEach_hbm, hs]

@[simp] theorem vdip_hbm (rail below : Nat) : (vdip rail below s).hbm = s.hbm := by simp [vdip]

theorem execDipRecoveryEnd_wf (below : Vector Nat 8) (hs : s.MemOk) : EndsWf (execDipRecoveryEnd below s) := by
  unfold execDipRecoveryEnd
  split
  · have h1 (u : State) (xs : List Nat) : (forEach xs (fun k s => vdip k
      (vget 0 below k) s) u).hbm = u.hbm := forEach_hbm _ fun _ _ => vdip_hbm ..
    have h2 (u : State) : (forEach (List.range 8) (fun k s => modRail k
      (fun r => { r with crossed := false, integ := false }) s) u).hbm = u.hbm :=
      forEach_hbm _ fun _ _ => modRail_hbm ..
    rw [endsWf_next]
    simp [h1, h2, hs]
  · exact (endsWf_next s).mpr hs

@[simp] theorem suspect_wf (c : Nat) (hs : s.MemOk) : (suspect c s).MemOk := by simp [suspect, hs]

@[simp] theorem suspectOwners_hbm : (suspectOwners s).hbm = s.hbm := by
  fun_cases suspectOwners <;> grind -ring -linarith [modScribe_hbm, forEach_hbm, forEach_wf, raise_hbm]

theorem execSupplySuspect_wf (rail : Fin 8) (mv : BitVec 12) (hs : s.MemOk) : EndsWf (execSupplySuspect rail mv s) := by
  unfold execSupplySuspect
  split
  · rw [endsWf_next]
    simp only [State.MemOk, suspectOwners_hbm]
    refine forEach_wf _ (fun _ _ hu => suspect_wf _ hu) ?_
    simp [hs]
  · exact (endsWf_next s).mpr hs

theorem execPwrBrakeAssert_wf (hs : s.MemOk) : EndsWf (execPwrBrakeAssert s) := by simp [execPwrBrakeAssert, hs]

theorem execPwrBrakeRelease_wf (hs : s.MemOk) : EndsWf (execPwrBrakeRelease s) := by simp [execPwrBrakeRelease, hs]

theorem execGroveSleep_wf (g : Fin 64) (hs : s.MemOk) : EndsWf (execGroveSleep g s) := by simp [execGroveSleep, -bump_hbm, hbm_bump, hs]

theorem execGroveSleepDone_wf (g : Fin 64) (hs : s.MemOk) : EndsWf (execGroveSleepDone g s) := by simp [execGroveSleepDone, hs]

theorem execGroveWakeDone_wf (g : Fin 64) (lock : Nat) (hs : s.MemOk) :
    EndsWf (execGroveWakeDone g lock s) := by simp [execGroveWakeDone, hs]

theorem execGroveScrubDone_wf (g : Fin 64) (hs : s.MemOk) : EndsWf (execGroveScrubDone g s) := by simp [execGroveScrubDone, hs]

/-! ## Spares of nibs, groves and rows -/

@[simp] theorem loseCycles_hbm (c : Option Nat) (most : Nat) : (loseCycles c most s).hbm = s.hbm := by
  unfold loseCycles
  split <;> simp

@[simp] theorem retireGrove_wf (readable : Bool) (g : Nat) (hs : s.MemOk) : (retireGrove readable g s).MemOk := by
  fun_cases retireGrove <;> grind -ring -linarith [modGrove_hbm, forEach_hbm, forEach_wf, raise_hbm, mapAdd_hbm, modGroveNibs_hbm,
      replayFor_wf]

@[simp] theorem spareExhausted_hbm (p : Nat) : (spareExhausted p s).hbm = s.hbm := by simp [spareExhausted]

@[simp] theorem nibRetiring_wf (p : Nat) (hs : s.MemOk) : (nibRetiring p s).MemOk := by simp [nibRetiring, hs]

@[simp] theorem retireRow_wf (p row : Nat) (hs : s.MemOk) : (retireRow p row s).MemOk := by
  unfold retireRow
  dsimp only
  repeat' split
  all_goals simp [hs]

@[simp] theorem retireRows_wf (p : Nat) (checked : Option (Nat → Bool)) (hs : s.MemOk) : (retireRows p checked s).MemOk := by
  fun_cases retireRows
  grind -ring -linarith [modPNib_hbm, forEach_hbm, forEach_wf, retireRow_wf]

@[simp] theorem checkRows_wf (p : Nat) (checked : Option (Nat → Bool)) (hs : s.MemOk) : (checkRows p checked s).MemOk := by
  fun_cases checkRows
  grind -ring -linarith [modPNib_hbm, forEach_hbm, forEach_wf, nibRetiring_wf]

@[simp] theorem sweepSpare_hbm (g : Nat) : (sweepSpare g s).hbm = s.hbm := by simp [sweepSpare]

@[simp] theorem moveToSpare_hbm (nib : Nat) : (moveToSpare nib s).hbm = s.hbm := by simp [moveToSpare]

@[simp] theorem transplantNib_wf (nib : Nat) (hs : s.MemOk) : (transplantNib nib s).MemOk := by simp [transplantNib, hs]

@[simp] theorem spareGrove_wf (checked : Option (Nat → Nat → Bool)) (g : Nat) (hs : s.MemOk) : (spareGrove checked g s).MemOk := by
  fun_cases spareGrove <;> grind -ring -linarith [forEach_hbm, forEach_wf, retireRows_wf, checkRows_wf, transplantNib_wf]

@[simp] theorem pllFailed_wf (g : Nat) (hs : s.MemOk) : (pllFailed g s).MemOk := by simp [pllFailed, hs]

/-! ## The end of a layer -/

@[simp] theorem orVote_wf (c step vote : Nat) (hs : s.MemOk) : (orVote c step vote s).2.MemOk := by
  fun_cases orVote <;> grind -ring -linarith [vRead_wf, vWrite_wf]

@[simp] theorem writeScb_wf (c : Nat) (l : LitFrame) (hs : s.MemOk) : (writeScb c l s).2.MemOk := by simp [writeScb, hs]

@[simp] theorem litFault_wf (c reason : Nat) (nib : Option Nat) (arg : Nat) (hs : s.MemOk) : (litFault c reason nib arg s).MemOk := by
  unfold litFault
  dsimp only
  repeat' split
  all_goals simp [hs]

@[simp] theorem noteLitter_hbm (c reason : Nat) (nib : Option Nat) (a0 a1 : Nat) : (noteLitter c reason nib a0 a1 s).hbm = s.hbm := rfl

@[simp] theorem litError_wf (c : Nat) (e : VErr) (hs : s.MemOk) : (litError c e s).MemOk := by
  unfold litError
  split <;> simp [hs]

@[simp] theorem commitPush_wf (c : Nat) (r : Record) (l : LitFrame) (hs : s.MemOk) : (commitPush c r l s).2.MemOk := by
  fun_cases commitPush <;> grind -ring -linarith [bump_hbm, vWrite_wf, writeScb_wf, litFault_wf, litError_wf]

@[simp] theorem commitPop_wf (c : Nat) (l : LitFrame) (hs : s.MemOk) : (commitPop c l s).2.MemOk := by
  fun_cases commitPop <;> grind -ring -linarith [bump_hbm, modNib_hbm, forEach_hbm, forEach_wf, writeScb_wf, litError_wf]

@[simp] theorem commitLitter_wf (c : Nat) (hs : s.MemOk) : (commitLitter c s).2.MemOk := by
  unfold commitLitter
  dsimp only
  repeat' split
  all_goals simp [hs]

@[simp] theorem countLayer_hbm (c : Nat) (r : Record) : (countLayer c r s).hbm = s.hbm := by simp [countLayer]

@[simp] theorem endLayer_wf (c code : Nat) (r : Record) (hs : s.MemOk) : (endLayer c code r s).MemOk := by
  fun_cases endLayer <;> grind -ring -linarith [modCtx_hbm, modNib_hbm, forEach_hbm, forEach_wf, ptFault_hbm, stopScribes_hbm,
      putCompletion_wf, ctxMessage_hbm, enterFaulted_hbm, ctxFault_wf, readNext_wf, pass_wf, spareGrove_wf, orVote_wf, countLayer_hbm]

@[simp] theorem finishLayer_wf (c code : Nat) (hs : s.MemOk) : (finishLayer c code s).MemOk := by
  fun_cases finishLayer <;> grind -ring -linarith [commitLitter_wf, endLayer_wf]

theorem vApply_wf (c va n : Nat) {f : Nat → Nat → State → State} (hf : ∀ a m u, u.MemOk → (f a m u).MemOk) (hs : s.MemOk) :
    (vApply c va n f s).2.MemOk := by
  unfold vApply
  split
  · next h => exact (vTargets_wf c va n hs).of_eq h
  · next h => exact forEach_wf _ (fun _ _ hu => hf _ _ _ hu) ((vTargets_wf c va n hs).of_eq h)

@[simp] theorem writeSlotRows_wf (c base r : Nat) (n : Nib) (hs : s.MemOk) : (writeSlotRows c base r n s).2.MemOk := by
  have harea (va m : Nat) (u : State) (hu : u.MemOk) : (vApply c va m memZero u).2.MemOk :=
    vApply_wf c va m (fun _ _ _ hu => memZero_wf _ _ _ hu) hu
  have hwrite (va : Nat) (data : List Byte) (u : State) (hu : u.MemOk) : (vWrite c va data u).2.MemOk := vWrite_wf c va data hu
  have hdef : writeSlotRows = writeSlotRows := rfl
  conv at hdef => rhs; delta writeSlotRows
  obtain ⟨apply, ha⟩ : ∃ f, vApply = f := ⟨_, rfl⟩
  obtain ⟨write, hw⟩ : ∃ f, vWrite = f := ⟨_, rfl⟩
  rw [ha, hw] at hdef
  rw [ha] at harea
  rw [hw] at hwrite
  rw [hdef]
  dsimp only
  split
  · next h => exact (harea _ _ _ hs).of_eq h
  · next h =>
    exact hwrite _ _ _ (forEach_wf _ (fun p _ hu => hwrite _ _ _ hu) ((harea _ _ _ hs).of_eq h))

@[simp] theorem saveNib_wf (c base r : Nat) (n : Nib) (hs : s.MemOk) : (saveNib c base r n s).2.MemOk := by
  have hrows (m : Nib) (u : State) (hu : u.MemOk) : (writeSlotRows c base r m u).2.MemOk := writeSlotRows_wf c base r m hu
  have harea (va m : Nat) (u : State) (hu : u.MemOk) : (vApply c va m memBlur u).2.MemOk :=
    vApply_wf c va m (fun _ _ _ hu => memBlur_wf _ _ _ hu) hu
  have hdef : saveNib = saveNib := rfl
  conv at hdef => rhs; delta saveNib
  obtain ⟨apply, ha⟩ : ∃ f, vApply = f := ⟨_, rfl⟩
  obtain ⟨rows, hr⟩ : ∃ f, writeSlotRows = f := ⟨_, rfl⟩
  rw [ha, hr] at hdef
  rw [ha] at harea
  rw [hr] at hrows
  rw [hdef]
  dsimp only
  split
  · next h => exact (hrows _ _ hs).of_eq h
  · next h =>
    refine State.MemOk.of_hbm (foldl_wf _ (fun q x hq => ?_) ((hrows _ _ hs).of_eq h)) (moveBytes_hbm ..)
    split
    · exact hq
    · exact harea _ _ _ hq

@[simp] theorem imageNib_wf (c base r : Nat) (n : Nib) (hs : s.MemOk) : (imageNib c base r n s).2.MemOk := by
  have hrows (m : Nib) (u : State) (hu : u.MemOk) : (writeSlotRows c base r m u).2.MemOk := writeSlotRows_wf c base r m hu
  have harea (va m : Nat) (u : State) (hu : u.MemOk) : (vApply c va m memZero u).2.MemOk :=
    vApply_wf c va m (fun _ _ _ hu => memZero_wf _ _ _ hu) hu
  have hdef : imageNib = imageNib := rfl
  conv at hdef => rhs; delta imageNib
  obtain ⟨apply, ha⟩ : ∃ f, vApply = f := ⟨_, rfl⟩
  obtain ⟨rows, hr⟩ : ∃ f, writeSlotRows = f := ⟨_, rfl⟩
  rw [ha, hr] at hdef
  rw [ha] at harea
  rw [hr] at hrows
  rw [hdef]
  dsimp only
  split
  · next h => exact (harea _ _ _ hs).of_eq h
  · next h => exact hrows _ _ ((harea _ _ _ hs).of_eq h)

theorem saveAll_wf (c : Nat) {f : Nat → Nib → State → Option VErr × State} (hf : ∀ r n u, u.MemOk → (f r n u).2.MemOk)
    (xs : List (Nat × Nat)) (hs : s.MemOk) : (saveAll c f xs s).2.MemOk := by
  induction xs generalizing s with
  | nil => exact hs
  | cons x xs ih => grind [saveAll]

@[simp] theorem probeSave_wf (c : Nat) (hs : s.MemOk) : (probeSave c s).2.MemOk := by
  have htargets (va n : Nat) := vTargets_wf c va n hs
  have hdef : probeSave = probeSave := rfl
  conv at hdef => rhs; delta probeSave
  obtain ⟨targets, ht⟩ : ∃ f, vTargets = f := ⟨_, rfl⟩
  rw [ht] at hdef htargets
  rw [hdef]
  dsimp only
  split
  · next h => exact (htargets _ _).of_eq h
  · next h => split <;> exact (htargets _ _).of_eq h

/-! ## The Scribe -/

@[simp] theorem scrRead_wf (c va n : Nat) (hs : s.MemOk) : (scrRead c va n s).2.MemOk := by
  fun_cases scrRead <;> grind -ring -linarith [vRead_wf, moveBytes_hbm]

@[simp] theorem scrWrite_wf (c va : Nat) (data : List Byte) (hs : s.MemOk) : (scrWrite c va data s).2.MemOk := by
  fun_cases scrWrite <;> grind -ring -linarith [vWrite_wf, moveBytes_hbm]

@[simp] theorem loadDesc_wf (c va : Nat) (hs : s.MemOk) : (loadDesc c va s).2.MemOk := by
  fun_cases loadDesc <;> grind -ring -linarith [scrRead_wf]

@[simp] theorem loadDescs_wf (c list a a3 : Nat) (hs : s.MemOk) : (loadDescs c list a a3 s).2.MemOk := by
  induction a generalizing a3 s with
  | zero => exact hs
  | succ n ih => grind [loadDescs, loadDesc_wf]

@[simp] theorem lossEvent_hbm (c idx dpa : Nat) : (lossEvent c idx dpa s).hbm = s.hbm := by simp [lossEvent]

@[simp] theorem refuseUpdate_wf (c reason idx step : Nat) (hs : s.MemOk) :
    (refuseUpdate c reason idx step s).MemOk := by simp [refuseUpdate, hs]

@[simp] theorem updError_wf (c idx : Nat) (e : VErr) (hs : s.MemOk) : (updError c idx e s).MemOk := by
  unfold updError
  split <;> simp [hs]

@[simp] theorem ucbRefused_wf (c : Nat) (b : List Byte) (hs : s.MemOk) : (ucbRefused c b s).MemOk := by simp [ucbRefused, hs]

@[simp] theorem skipStep_wf (c step : Nat) (b : List Byte) (hs : s.MemOk) : (skipStep c step b s).2.MemOk := by
  fun_cases skipStep <;> grind -ring -linarith [countEvent_hbm, raise_hbm, scrWrite_wf]

@[simp] theorem countGroup_hbm (g : UpdGroup) : (countGroup g s).hbm = s.hbm := rfl

@[simp] theorem reportTensor_hbm (c idx step : Nat) (t : UpdTensor) :
    (reportTensor c idx step t s).hbm = s.hbm := by simp [reportTensor, -bump_hbm, hbm_bump]

@[simp] theorem listedGroup_wf (c : Nat) (d : UpdDesc) (e : Nat) (hs : s.MemOk) : (listedGroup c d e s).2.MemOk := by
  fun_cases listedGroup <;> grind -ring -linarith [scrRead_wf]

@[simp] theorem openUcb_wf (c : Nat) (hs : s.MemOk) : (openUcb c s).2.MemOk := by
  fun_cases openUcb <;> grind -ring -linarith [vTargets_wf, scrRead_wf, updError_wf]

@[simp] theorem readGroup_wf (c : Nat) (d : UpdDesc) (j : Nat) (hs : s.MemOk) : (readGroup c d j s).2.MemOk := by
  have hread (va : Nat) (u : State) (hu : u.MemOk) : (scrRead c va 2048 u).2.MemOk := scrRead_wf c va 2048 hu
  delta readGroup
  split
  · next h => exact (hread _ _ hs).of_eq h
  · next u h =>
    have hu := (hread _ _ hs).of_eq h
    split
    next r v h =>
    have hv : v.MemOk := by
      refine State.MemOk.of_eq (foldl_wf _ (fun q i hq => ?_) ?_) h
      · grind
      · exact hu
    split <;> exact hv

@[simp] theorem writeAll_wf (c : Nat) (a : List (Nat × List Byte)) (hs : s.MemOk) : (writeAll c a s).2.MemOk := by
  induction a generalizing s with
  | nil => exact hs
  | cons x xs ih => grind [writeAll, scrWrite_wf]

@[simp] theorem imageRows_wf (c : Nat) (d : UpdDesc) (j : Nat) (g : GroupData) (hs : s.MemOk) : (imageRows c d j g s).2.MemOk := by
  have hone (va : Nat) (vals : List Nat) (acc : List (Nat × Row) × State) (ha : acc.2.MemOk) : (match translate c va true acc.2 with
      | (.inr _, s) => (acc.1, s)
      | (.inl dpa, s) => (acc.1 ++ rowsAt dpa (vals.flatMap (bytesOf 4)), s)).2.MemOk := by
    have h := translate_wf c va true ha
    split <;> next e => exact h.of_eq e
  exact foldl_wf _ (fun _ _ ha => hone _ _ _ ha) (hone _ _ _ hs)

@[simp] theorem keepImage_hbm (mc : Nat) (p : PreImage) : (keepImage mc p s).hbm = s.hbm := rfl

@[simp] theorem readGrads_wf (c : Nat) (d : UpdDesc) (e n : Nat) (hs : s.MemOk) : (readGrads c d e n s).2.MemOk := by
  fun_cases readGrads <;> grind -ring -linarith [scrRead_wf]

@[simp] theorem readStamp_wf (c : Nat) (d : UpdDesc) (j : Nat) (hs : s.MemOk) : (readStamp c d j s).2.MemOk := by
  fun_cases readStamp <;> grind -ring -linarith [translate_wf, scrRead_wf]

@[simp] theorem readWork_wf (c : Nat) (d : UpdDesc) (e j : Nat) (hs : s.MemOk) : (readWork c d e j s).2.MemOk := by
  fun_cases readWork <;> grind -ring -linarith [readGroup_wf, readGrads_wf, readStamp_wf]

@[simp] theorem groupOwner_wf (c : Nat) (d : UpdDesc) (j : Nat) (hs : s.MemOk) : (groupOwner c d j s).2.MemOk := by
  fun_cases groupOwner <;> grind -ring -linarith [translate_wf]

/-! ## The Ligature engine: packets, groups and steps -/

@[simp] theorem modLig_hbm (f : Lig → Lig) : (modLig f s).hbm = s.hbm := rfl

@[simp] theorem modStep_hbm (f : LigStep → LigStep) : (modStep f s).hbm = s.hbm := rfl

@[simp] theorem modBucket_hbm (b : Nat) (f : Bucket → Bucket) : (modBucket b f s).hbm = s.hbm := rfl

@[simp] theorem ligEvent_hbm (ev arg0 step : Nat) : (ligEvent ev arg0 step s).hbm = s.hbm := by simp [ligEvent]

theorem queueOn_hbm {hop : Nat} {pkt : List LinkUnit} {t : State} (h : queueOn hop pkt s = some t) : t.hbm = s.hbm := by
  unfold queueOn at h
  dsimp only at h
  split at h <;> simp_all
  rw [← h]
  simp

@[simp] theorem countPeer_hbm (pkt : List LinkUnit) : (countPeer pkt s).hbm = s.hbm := by
  unfold countPeer
  split <;> simp

@[simp] theorem sendTo_hbm (c : Circle) (dst : Nat) (pkt : List LinkUnit) : (sendTo c dst pkt s).hbm = s.hbm := by
  fun_cases sendTo <;> grind [countPeer_hbm, queueOn_hbm, modLig_hbm]

@[simp] theorem flushWaiting_hbm : (flushWaiting s).hbm = s.hbm := by
  have hqueue (xs : List (Nat × List LinkUnit)) (u : State) : (xs.foldl (fun s x => match queueOn x.1 x.2 s with
      | some s => s
      | none => modLig (fun l => { l with waiting := l.waiting ++ [x] }) s) u).hbm = u.hbm := by
    induction xs generalizing u with
    | nil => rfl
    | cons x xs ih => grind [queueOn_hbm, modLig_hbm]
  exact (hqueue _ _).trans (modLig_hbm ..)

@[simp] theorem sendVals_hbm (c : Circle) (h : LigHead) (k w off : Nat) (vals : List Int) : (sendVals c h k w off vals s).hbm = s.hbm := by
  fun_cases sendVals
  grind -ring -linarith [forEach_hbm, forEach_wf, sendTo_hbm]

@[simp] theorem groupGrads_wf (c : Nat) (w : LigStep) (g : Nat) (hs : s.MemOk) : (groupGrads c w g s).2.MemOk := by
  fun_cases groupGrads <;> grind -ring -linarith [readGrads_wf]

@[simp] theorem bucketGrads_wf (c : Nat) (w : LigStep) (b : Bucket) (a : List Nat) (hs : s.MemOk) : (bucketGrads c w b a s).2.MemOk := by
  induction a generalizing s with
  | nil => exact hs
  | cons k ks ih => grind [bucketGrads, groupGrads_wf]

@[simp] theorem ligError_wf (c : Nat) (e : VErr) (hs : s.MemOk) : (ligError c e s).MemOk := by
  unfold ligError
  split <;> simp [hs]

@[simp] theorem ligWrite_wf (c va : Nat) (b : List Byte) (hs : s.MemOk) : (ligWrite c va b s).MemOk := by
  fun_cases ligWrite <;> grind -ring -linarith [scrWrite_wf, ligError_wf]

@[simp] theorem putHeader_wf (i state : Nat) (hs : s.MemOk) : (putHeader i state s).MemOk := by
  unfold putHeader
  repeat' split
  all_goals simp [hs]

@[simp] theorem restoreSlot_wf (c : Circle) (w : LigStep) (o : OwnerSlot) (hs : s.MemOk) : (restoreSlot c w o s).MemOk := by
  fun_cases restoreSlot <;> grind -ring -linarith [forEach_hbm, forEach_wf, scrRead_wf, ligError_wf, ligWrite_wf]

@[simp] theorem restoreAll_wf (hs : s.MemOk) : (restoreAll s).MemOk := by
  fun_cases restoreAll <;> grind -ring -linarith [forEach_hbm, forEach_wf, restoreSlot_wf]

@[simp] theorem closeBuckets_wf (state : Nat) (hs : s.MemOk) : (closeBuckets state s).MemOk := by
  fun_cases closeBuckets <;> grind -ring -linarith [forEach_hbm, forEach_wf, modBucket_hbm, putHeader_wf]

@[simp] theorem endStep_hbm (outcome : Nat) : (endStep outcome s).hbm = s.hbm := by
  unfold endStep
  split <;> simp

@[simp] theorem ucbVeto_wf (c : Nat) (hs : s.MemOk) : (ucbVeto c s).MemOk := by simp [ucbVeto, hs]

@[simp] theorem sendAborts_hbm (c : Circle) (det step reason : Nat) : (sendAborts c det step reason s).hbm = s.hbm := by
  refine forEach_hbm _ fun p u => ?_
  dsimp only
  split
  · exact setPort_hbm ..
  · rfl

@[simp] theorem abandonWith_wf (reason det : Nat) (sent : Option (Nat × Nat)) (hs : s.MemOk) : (abandonWith reason det sent s).MemOk := by
  fun_cases abandonWith <;> grind -ring -linarith [forEach_hbm, forEach_wf, countEvent_hbm, ctxFault_wf, finishLayer_wf, modLig_hbm,
      modBucket_hbm, ligEvent_hbm, countPeer_hbm, restoreAll_wf, closeBuckets_wf, endStep_hbm, ucbVeto_wf, sendAborts_hbm]

@[simp] theorem abandonStep_wf (reason det : Nat) (hs : s.MemOk) : (abandonStep reason det s).MemOk := by simp [abandonStep, hs]

@[simp] theorem ligInvalid_wf (c reason step : Nat) (hs : s.MemOk) : (ligInvalid c reason step s).MemOk := by simp [ligInvalid, hs]

@[simp] theorem redOverflow_wf (b : Nat) (hs : s.MemOk) : (redOverflow b s).MemOk := by
  fun_cases redOverflow <;> grind -ring -linarith [orVote_wf, modStep_hbm, modBucket_hbm, ligEvent_hbm, ligError_wf]

@[simp] theorem noteOwned_hbm (i : Nat) (g : UpdGroup) : (noteOwned i g s).hbm = s.hbm := rfl

@[simp] theorem takeOwned_wf (c i j : Nat) (d : UpdDesc) (g : GroupData) (hs : s.MemOk) : (takeOwned c i j d g s).MemOk := by
  fun_cases takeOwned <;> grind -ring -linarith [modScribe_hbm, imageRows_wf, keepImage_hbm, groupOwner_wf]

@[simp] theorem ownerApply_wf (b i j f : Nat) (grads : List (Option Num)) (g : GroupData) (hs : s.MemOk) :
    (ownerApply b i j f grads g s).MemOk := by
  fun_cases ownerApply <;> grind -ring -linarith [writeAll_wf, modBucket_hbm, ligError_wf, noteOwned_hbm, takeOwned_wf]

@[simp] theorem ownGroup_wf (b k : Nat) (sum : List Int) (own : List Num) (hs : s.MemOk) : (ownGroup b k sum own s).MemOk := by
  fun_cases ownGroup <;> grind -ring -linarith [scrWrite_wf, lossEvent_hbm, readGroup_wf, modStep_hbm, ligError_wf, ligWrite_wf,
      redOverflow_wf, noteOwned_hbm, ownerApply_wf]

@[simp] theorem sendPartial_hbm (t : State) (c : Circle) (w : LigStep) (b : Bucket) (bi k lo dst : Nat) (vals : List Int) :
    (sendPartial t c w b bi k lo dst vals s).hbm = s.hbm := by
  unfold sendPartial
  dsimp only
  split
  · exact sendVals_hbm ..
  · refine forEach_hbm _ fun m u => ?_
    split
    · rfl
    · exact sendVals_hbm ..

@[simp] theorem reduceTree_wf (bi k : Nat) (hs : s.MemOk) : (reduceTree bi k s).MemOk := by
  unfold reduceTree
  split
  · split
    · exact hs
    · next b hb =>
      dsimp only
      split
      · exact hs
      · have hgrads (xs : List Nat) (w : LigStep) := bucketGrads_wf w.ctx w b xs hs
        split
        · next h => exact ligError_wf _ _ ((hgrads _ _).of_eq h)
        · next h =>
          have hsent (f : Bucket → Bucket) := State.MemOk.of_hbm ((hgrads _ _).of_eq h) (modBucket_hbm bi f)
          split
          · refine State.MemOk.of_hbm ?_ (sendPartial_hbm ..)
            split
            · exact redOverflow_wf _ (hsent _)
            · exact hsent _
          · exact forEach_wf _ (fun _ _ hu => ownGroup_wf _ _ _ _ hu) (hsent _)
  · exact hs

@[simp] theorem settleOwned_wf (bi : Nat) (hs : s.MemOk) : (settleOwned bi s).MemOk := by
  unfold settleOwned
  repeat' split
  all_goals simp [hs]

@[simp] theorem reduceBucket_wf (bi : Nat) (hs : s.MemOk) : (reduceBucket bi s).MemOk := by
  fun_cases reduceBucket <;> grind -ring -linarith [forEach_hbm, forEach_wf, reduceTree_wf, settleOwned_wf]

@[simp] theorem agreeBucket_wf (bi : Nat) (vals : List Int) (hs : s.MemOk) : (agreeBucket bi vals s).MemOk := by
  fun_cases agreeBucket <;> grind -ring -linarith [takeFree_hbm, forEach_hbm, forEach_wf, modBucket_hbm, sendVals_hbm, reduceBucket_wf]

@[simp] theorem scaleBucket_wf (bi : Nat) (hs : s.MemOk) : (scaleBucket bi s).MemOk := by
  unfold scaleBucket
  repeat' split
  all_goals simp [hs]

@[simp] theorem sendClose_hbm (c : Circle) (w : LigStep) (dst vote : Nat) : (sendClose c w dst vote s).hbm = s.hbm := by
  fun_cases sendClose <;> grind -ring -linarith [forEach_hbm, forEach_wf, sendTo_hbm]

@[simp] theorem sendVerdict_hbm (c : Circle) (w : LigStep) (verdict reason votes : Nat) :
    (sendVerdict c w verdict reason votes s).hbm = s.hbm := by
  fun_cases sendVerdict
  grind -ring -linarith [forEach_hbm, forEach_wf, sendTo_hbm]

@[simp] theorem endClose_wf (c step code : Nat) (hs : s.MemOk) : (endClose c step code s).MemOk := by simp [endClose, hs]

@[simp] theorem sendParam_hbm (c : Circle) (w : LigStep) (bi k sel : Nat) (gs : List (Nat × List Int)) :
    (sendParam c w bi k sel gs s).hbm = s.hbm := by
  fun_cases sendParam
  grind -ring -linarith [forEach_hbm, forEach_wf, sendVals_hbm]

@[simp] theorem groupWords_wf (c : Nat) (w : LigStep) (g sel : Nat) (hs : s.MemOk) : (groupWords c w g sel s).2.MemOk := by
  fun_cases groupWords <;> grind -ring -linarith [scrRead_wf, ligError_wf]

@[simp] theorem broadcastOwned_wf (bi : Nat) (hs : s.MemOk) : (broadcastOwned bi s).MemOk := by
  unfold broadcastOwned
  split
  · split
    · exact hs
    · dsimp only
      refine forEach_wf _ (fun sel u hu => ?_) hs
      refine State.MemOk.of_hbm (foldl_wf _ (fun q g hq => ?_) hu) (sendParam_hbm ..)
      exact groupWords_wf _ _ _ _ hq
  · exact hs

@[simp] theorem writeParam_wf (c : Nat) (w : LigStep) (g sel : Nat) (vals : List Nat) (hs : s.MemOk) :
    (writeParam c w g sel vals s).MemOk := by
  unfold writeParam
  dsimp only
  repeat' split
  all_goals simp [hs]

@[simp] theorem takeParam_wf (bi k sel : Nat) (hs : s.MemOk) : (takeParam bi k sel s).MemOk := by
  fun_cases takeParam <;> grind -ring -linarith [forEach_hbm, forEach_wf, modStep_hbm, sendParam_hbm, writeParam_wf]

@[simp] theorem settleFinal_wf (hs : s.MemOk) : (settleFinal s).MemOk := by
  unfold settleFinal
  split <;> simp [hs]

@[simp] theorem applyStaged_wf (c : Circle) (o : OwnerSlot) (hs : s.MemOk) : (applyStaged c o s).MemOk := by
  fun_cases applyStaged <;> grind -ring -linarith [scrRead_wf, lossEvent_hbm, readGroup_wf, modBucket_hbm, ligError_wf, noteOwned_hbm,
      ownerApply_wf]

@[simp] theorem ligStatuses_wf (isLeader : Bool) (list : Nat) (hs : s.MemOk) : (ligStatuses isLeader list s).MemOk := by
  fun_cases ligStatuses <;> grind -ring -linarith [forEach_hbm, forEach_wf, reportTensor_hbm, ligWrite_wf]

@[simp] theorem votedUcb_wf (c : Nat) (w : LigStep) (votes : Nat) (hs : s.MemOk) : (votedUcb c w votes s).2.MemOk := by
  fun_cases votedUcb <;> grind -ring -linarith [scrRead_wf, ligError_wf]

@[simp] theorem actCommit_wf (c : Circle) (w : LigStep) (b : List Byte) (hs : s.MemOk) : (actCommit c w b s).MemOk := by
  fun_cases actCommit
  grind -ring -linarith [bump_hbm, forEach_hbm, forEach_wf, ligWrite_wf, closeBuckets_wf, broadcastOwned_wf, takeParam_wf, settleFinal_wf,
      applyStaged_wf, ligStatuses_wf]

@[simp] theorem actSkip_wf (w : LigStep) (b : List Byte) (hs : s.MemOk) : (actSkip w b s).MemOk := by
  unfold actSkip
  have hskip := skipStep_wf w.ctx w.step b (closeBuckets_wf 6 (restoreAll_wf hs))
  dsimp only
  refine endClose_wf _ _ _ (State.MemOk.of_hbm ?_ (endStep_hbm ..))
  split
  · next h => exact ligError_wf _ _ (hskip.of_eq h)
  · next h => exact hskip.of_eq h

@[simp] theorem actVeto_wf (c : Circle) (w : LigStep) (reason : Nat) (b : List Byte) (hs : s.MemOk) : (actVeto c w reason b s).MemOk := by
  fun_cases actVeto
  grind -ring -linarith [countEvent_hbm, modLig_hbm, ligEvent_hbm, ligWrite_wf, restoreAll_wf, closeBuckets_wf, endStep_hbm, endClose_wf]

@[simp] theorem actVerdict_wf (verdict reason votes : Nat) (hs : s.MemOk) : (actVerdict verdict reason votes s).MemOk := by
  fun_cases actVerdict <;> grind -ring -linarith [modStep_hbm, sendVerdict_hbm, votedUcb_wf, actCommit_wf, actSkip_wf, actVeto_wf]

@[simp] theorem decideVerdict_wf (vote : Nat) (hs : s.MemOk) : (decideVerdict vote s).MemOk := by
  unfold decideVerdict
  split <;> simp [hs]

@[simp] theorem tryClose_wf (hs : s.MemOk) : (tryClose s).MemOk := by
  fun_cases tryClose <;> grind -ring -linarith [scrRead_wf, modStep_hbm, ligError_wf, sendClose_hbm, decideVerdict_wf]

/-! ## The Ligature engine: commands -/

@[simp] theorem closeForming_wf (hs : s.MemOk) : (closeForming s).MemOk := by
  unfold closeForming
  repeat' split
  all_goals simp [hs]

@[simp] theorem collectGroup_wf (hs : s.MemOk) : (collectGroup s).MemOk := by
  unfold collectGroup
  dsimp only
  repeat' split
  all_goals simp [hs]

@[simp] theorem collectN_wf (a : Nat) (hs : s.MemOk) : (collectN a s).MemOk := by
  induction a generalizing s with
  | zero => exact hs
  | succ n ih => exact ih (collectGroup_wf hs)

@[simp] theorem raiseMark_wf (mark : Nat) (hs : s.MemOk) : (raiseMark mark s).MemOk := by
  unfold raiseMark
  split <;> simp [hs]

@[simp] theorem readCircle_wf (c : Nat) (hs : s.MemOk) : (readCircle c s).2.MemOk := by
  fun_cases readCircle <;> grind -ring -linarith [scrRead_wf]

@[simp] theorem beginStep_wf (c : Nat) (r : Record) (ci : Circle) (ls : Int) (ds : List UpdDesc) (hs : s.MemOk) :
    (beginStep c r ci ls ds s).MemOk := by
  have harea (va m : Nat) (u : State) (hu : u.MemOk) : (vApply c va m memBlur u).2.MemOk :=
    vApply_wf c va m (fun _ _ _ hu => memBlur_wf _ _ _ hu) hu
  have hdef : beginStep = beginStep := rfl
  conv at hdef => rhs; delta beginStep
  obtain ⟨apply, ha⟩ : ∃ f, vApply = f := ⟨_, rfl⟩
  rw [ha] at hdef harea
  rw [hdef]
  dsimp only
  split
  · next h => exact ligError_wf _ _ ((harea _ _ _ (State.MemOk.of_hbm hs (modLig_hbm ..))).of_eq h)
  · next h => exact (harea _ _ _ (State.MemOk.of_hbm hs (modLig_hbm ..))).of_eq h

@[simp] theorem ligDiscard_hbm : (ligDiscard s).hbm = s.hbm := hbm_bump ..

@[simp] theorem addPart_hbm (h : LigHead) (vals : List Int) (root : Nat) : (addPart h vals root s).hbm = s.hbm := rfl

@[simp] theorem keepEarly_hbm (pkt : List LinkUnit) : (keepEarly pkt s).hbm = s.hbm := rfl

@[simp] theorem onScale_wf (c : Circle) (w : LigStep) (h : LigHead) (pkt : List LinkUnit) (hs : s.MemOk) : (onScale c w h pkt s).MemOk := by
  unfold onScale
  repeat' split
  all_goals simp [hs]

@[simp] theorem onAgreed_wf (c : Circle) (w : LigStep) (h : LigHead) (pkt : List LinkUnit) (hs : s.MemOk) :
    (onAgreed c w h pkt s).MemOk := by
  unfold onAgreed
  split <;> simp [hs]

@[simp] theorem onPartial_wf (c : Circle) (w : LigStep) (h : LigHead) (pkt : List LinkUnit) (hs : s.MemOk) :
    (onPartial c w h pkt s).MemOk := by
  unfold onPartial
  split <;> simp [hs]

@[simp] theorem onParam_wf (c : Circle) (w : LigStep) (h : LigHead) (pkt : List LinkUnit) (hs : s.MemOk) : (onParam c w h pkt s).MemOk := by
  unfold onParam
  split <;> simp [hs]

@[simp] theorem onClose_wf (c : Circle) (w : LigStep) (h : LigHead) (pkt : List LinkUnit) (hs : s.MemOk) :
    (onClose c w h pkt s).MemOk := by simp [onClose, hs]

@[simp] theorem onVerdict_wf (c : Circle) (w : LigStep) (h : LigHead) (pkt : List LinkUnit) (hs : s.MemOk) :
    (onVerdict c w h pkt s).MemOk := by simp [onVerdict, hs]

@[simp] theorem onPacket_wf (pkt : List LinkUnit) (hs : s.MemOk) : (onPacket pkt s).MemOk := by
  unfold onPacket
  dsimp only
  repeat' split
  all_goals simp [hs]

@[simp] theorem takeEarly_wf (hs : s.MemOk) : (takeEarly s).MemOk := by
  unfold takeEarly
  split
  · exact hs
  · exact forEach_wf _ (fun _ _ hu => onPacket_wf _ hu) (by simpa using hs)

@[simp] theorem setVeto_hbm (why : Nat) : (setVeto why s).hbm = s.hbm := rfl

@[simp] theorem acceptPacket_wf (pkt : List LinkUnit) (hs : s.MemOk) : (acceptPacket pkt s).MemOk := by
  unfold acceptPacket
  repeat' split
  all_goals simp [hs]

@[simp] theorem releaseHeld_wf (hs : s.MemOk) :
    (releaseHeld s).MemOk := forEach_wf _ (fun _ _ hu => acceptPacket_wf _ hu) (by simpa using hs)

@[simp] theorem popPacket_hbm (p : Nat) : (popPacket p s).hbm = s.hbm := rfl

@[simp] theorem forwardPacket_hbm (dst : Nat) (pkt : List LinkUnit) : (forwardPacket dst pkt s).hbm = s.hbm := by
  fun_cases forwardPacket <;> grind [ligEvent_hbm, countEvent_hbm, queueOn_hbm, modLig_hbm]

@[simp] theorem receiveLig_wf (lop p : Nat) (hs : s.MemOk) : (receiveLig lop p s).MemOk := by
  unfold receiveLig
  split <;> simp [hs]

@[simp] theorem openStep_wf (c : Nat) (r : Record) (hs : s.MemOk) : (openStep c r s).2.MemOk := by
  fun_cases openStep <;> grind -ring -linarith [loadDescs_wf, refuseUpdate_wf, updError_wf, ucbRefused_wf, openUcb_wf, abandonStep_wf,
      ligInvalid_wf, readCircle_wf, beginStep_wf, releaseHeld_wf]

@[simp] theorem ligLayerEnd_wf (c : Nat) (r : Record) (hs : s.MemOk) : (ligLayerEnd c r s).MemOk := by
  fun_cases ligLayerEnd <;> grind -ring -linarith [modStep_hbm, closeForming_wf, raiseMark_wf, takeEarly_wf]

@[simp] theorem completeLayer_wf (c code : Nat) (hs : s.MemOk) : (completeLayer c code s).MemOk := by
  fun_cases completeLayer <;> grind -ring -linarith [commitLitter_wf, endLayer_wf, ligLayerEnd_wf]

theorem execBucketAgreeing_wf (hs : s.MemOk) : EndsWf (execBucketAgreeing s) := by
  fun_cases execBucketAgreeing <;> grind [endsWf_next, bucketGrads_wf, ligError_wf, scaleBucket_wf, modBucket_hbm]

theorem execStepClose_wf (hs : s.MemOk) : EndsWf (execStepClose s) := by
  unfold execStepClose
  split <;> simp [hs]

theorem execScale_wf (p : Fin 16) (hs : s.MemOk) : EndsWf (execScale p s) := by simp [execScale, hs]

theorem execAgreed_wf (p : Fin 16) (hs : s.MemOk) : EndsWf (execAgreed p s) := by simp [execAgreed, hs]

theorem execPartialPkt_wf (p : Fin 16) (hs : s.MemOk) : EndsWf (execPartialPkt p s) := by simp [execPartialPkt, hs]

theorem execParam_wf (p : Fin 16) (hs : s.MemOk) : EndsWf (execParam p s) := by simp [execParam, hs]

theorem execClose_wf (p : Fin 16) (hs : s.MemOk) : EndsWf (execClose p s) := by simp [execClose, hs]

theorem execVerdict_wf (p : Fin 16) (hs : s.MemOk) : EndsWf (execVerdict p s) := by simp [execVerdict, hs]

@[simp] theorem onAbort_wf (h : LigHead) (hs : s.MemOk) : (onAbort h s).MemOk := by
  unfold onAbort
  dsimp only
  repeat' split
  all_goals simp [hs]

theorem execAbort_wf (p : Fin 16) (hs : s.MemOk) : EndsWf (execAbort p s) := by
  unfold execAbort
  split <;> simp [hs]

theorem execStepTimeout_wf (hs : s.MemOk) : EndsWf (execStepTimeout s) := by
  unfold execStepTimeout
  split <;> simp [hs]

/-! ## Contexts -/

@[simp] theorem clearAccounts_hbm (c : Nat) : (clearAccounts c s).hbm = s.hbm := forEach_hbm _ fun _ _ => setR_hbm ..

theorem execCtxEnable_wf (fn : Fin 16) (ctx : Fin 256) (hs : s.MemOk) : EndsWf (execCtxEnable fn ctx s) := by simp [execCtxEnable, hs]

@[simp] theorem disableCtx_hbm (c : Nat) : (disableCtx c s).hbm = s.hbm := by simp [disableCtx]

@[simp] theorem oweScrub_hbm (g : Nat) : (oweScrub g s).hbm = s.hbm := by
  unfold oweScrub
  dsimp only
  repeat' split
  all_goals simp

@[simp] theorem completeKilled_wf (c : Nat) (hs : s.MemOk) : (completeKilled c s).MemOk := by
  fun_cases completeKilled <;> grind -ring -linarith [modCtx_hbm, raise_hbm, putCompletion_wf, ctxMessage_hbm]

@[simp] theorem abandonFor_wf (c : Nat) (hs : s.MemOk) : (abandonFor c s).MemOk := by
  unfold abandonFor
  split <;> simp [hs]

@[simp] theorem owePlot_hbm (c : Nat) : (owePlot c s).hbm = s.hbm := by
  fun_cases owePlot
  grind -ring -linarith [forEach_hbm, forEach_wf, oweScrub_hbm]

@[simp] theorem enterKilling_hbm (c : Nat) : (enterKilling c s).hbm = s.hbm := by
  unfold enterKilling
  split <;> simp

@[simp] theorem killCtx_wf (scrubAlways : Bool) (c : Nat) (hs : s.MemOk) : (killCtx scrubAlways c s).MemOk := by
  fun_cases killCtx <;> grind -ring -linarith [modCtx_hbm, stopScribes_hbm, quiesce_wf, completeKilled_wf, abandonFor_wf, owePlot_hbm,
      enterKilling_hbm]

theorem execKill_wf (fn : Fin 16) (ctx : Fin 256) (hs : s.MemOk) : EndsWf (execKill fn ctx s) := by simp [execKill, hs]

@[simp] theorem noteSkip_hbm (c va reason : Nat) : (noteSkip c va reason s).hbm = s.hbm := rfl

@[simp] theorem tableEntries_wf (c va span table : Nat) (hs : s.MemOk) : (tableEntries c va span table s).2.MemOk := by
  unfold tableEntries
  refine foldl_wf _ (fun q x hq => ?_) hs
  split <;> grind [memRead_wf, noteSkip_hbm]

@[simp] theorem validEntries_wf (c va span table : Nat) (leaf : Bool) (hs : s.MemOk) : (validEntries c va span table leaf s).2.MemOk := by
  unfold validEntries
  split
  next h =>
  refine foldl_wf _ (fun q x hq => ?_) ((tableEntries_wf c va span table hs).of_eq h)
  grind [noteSkip_hbm]

@[simp] theorem scrubPages_wf (c : Nat) (hs : s.MemOk) : (scrubPages c s).2.MemOk := by
  have hvalid (va span table : Nat) (leaf : Bool) (u : State) (hu : u.MemOk) := validEntries_wf c va span table leaf hu
  delta scrubPages
  extract_lets root
  split
  · exact State.MemOk.of_hbm hs (noteSkip_hbm ..)
  · split
    next mids u h =>
    have hu : u.MemOk := (hvalid _ _ _ _ _ hs).of_eq h
    split
    next leaves v h =>
    have hv : v.MemOk := by
      refine State.MemOk.of_eq (foldl_wf _ (fun q x hq => ?_) ?_) h
      · split
        next h => exact (hvalid _ _ _ _ _ hq).of_eq h
      · exact hu
    refine foldl_wf _ (fun q x hq => ?_) hv
    split
    next h => exact (hvalid _ _ _ _ _ hq).of_eq h

@[simp] theorem scrubMemory_wf (c : Nat) (hs : s.MemOk) : (scrubMemory c s).MemOk := by
  fun_cases scrubMemory
  grind -ring -linarith [bump_hbm, forEach_hbm, forEach_wf, memZero_wf, scrubPages_wf]

@[simp] theorem imagePieces_wf (c n : Nat) (hs : s.MemOk) : (imagePieces c n s).2.MemOk := by
  have htargets (va n : Nat) := vTargets_wf c va n hs
  have hdef : imagePieces = imagePieces := rfl
  conv at hdef => rhs; delta imagePieces
  obtain ⟨targets, ht⟩ : ∃ f, vTargets = f := ⟨_, rfl⟩
  rw [ht] at hdef htargets
  rw [hdef]
  dsimp only
  split
  · next h => exact (htargets _ _).of_eq h
  · next h => exact (htargets _ _).of_eq h

@[simp] theorem debugImage_wf (c : Nat) (hs : s.MemOk) : (debugImage c s).MemOk := by
  have hsave (xs : List (Nat × Nat)) : (saveAll c (imageNib c (saveVa s c)) xs s).2.MemOk :=
    saveAll_wf c (f := imageNib c (saveVa s c)) (fun r n u hu => imageNib_wf c (saveVa s c) r n hu) xs hs
  have hpieces (n : Nat) (u : State) (hu : u.MemOk) := imagePieces_wf c n hu
  have hdef : debugImage = debugImage := rfl
  conv at hdef => rhs; delta debugImage
  have e := congrFun (congrFun hdef c) s
  beta_reduce at e
  obtain ⟨save, hgs⟩ : ∃ f, saveAll c (imageNib c (saveVa s c)) = f := ⟨_, rfl⟩
  obtain ⟨pieces, hgp⟩ : ∃ f, imagePieces = f := ⟨_, rfl⟩
  obtain ⟨n, hgn⟩ : ∃ n, imagedGroves s c = n := ⟨_, rfl⟩
  rw [hgs, hgp, hgn] at e
  rw [hgs] at hsave
  rw [hgp] at hpieces
  rw [e]
  dsimp only
  split
  · exact hpieces _ _ (State.MemOk.of_hbm (hsave _) (ptFault_hbm ..))
  · exact hpieces _ _ (hsave _)

@[simp] theorem releaseScrubbed_hbm (c : Nat) : (releaseScrubbed c s).hbm = s.hbm := by
  fun_cases releaseScrubbed
  grind -ring -linarith [modCtx_hbm, modGrove_hbm, forEach_hbm, forEach_wf, countingSteps_hbm]

theorem execKillDone_wf (ctx : Fin 256) (hs : s.MemOk) : EndsWf (execKillDone ctx s) := by
  delta execKillDone
  extract_lets c x ready t u
  split
  · have ht : t.MemOk := scrubMemory_wf c hs
    have hu : u.MemOk := by
      simp only [u]
      split
      · exact State.MemOk.of_hbm (debugImage_wf c ht) (modCtx_hbm ..)
      · exact State.MemOk.of_hbm ht ((modCtx_hbm ..).trans (releaseScrubbed_hbm ..))
    exact (endsWf_next _).mpr (State.MemOk.of_hbm hu (raise_hbm ..))
  · exact (endsWf_next s).mpr hs

@[simp] theorem releaseCtx_wf (c : Nat) (hs : s.MemOk) : (releaseCtx c s).MemOk := by
  have hpieces (n : Nat) := imagePieces_wf c n hs
  have hdef : releaseCtx = releaseCtx := rfl
  conv at hdef => rhs; delta releaseCtx
  obtain ⟨pieces, hp⟩ : ∃ f, imagePieces = f := ⟨_, rfl⟩
  rw [hp] at hdef hpieces
  rw [hdef]
  dsimp only
  refine State.MemOk.of_hbm ?_ ((modCtx_hbm ..).trans (freePlot_hbm ..))
  have h : (forEach (pieces c (imagedGroves s c) s).1 (fun p s => memZero p.1 p.2 s) (pieces c (imagedGroves s c) s).2).MemOk :=
    forEach_wf _ (fun _ _ hu => memZero_wf _ _ _ hu) (hpieces _)
  exact h

theorem execRelease_wf (fn : Fin 16) (ctx : Fin 256) (hs : s.MemOk) : EndsWf (execRelease fn ctx s) := by simp [execRelease, hs]

@[simp] theorem doWaiting_wf (c : Nat) (hs : s.MemOk) : (doWaiting c s).MemOk := by
  unfold doWaiting
  dsimp only
  repeat' split
  all_goals simp [hs]

theorem execEvict_wf (fn : Fin 16) (ctx : Fin 256) (hs : s.MemOk) : EndsWf (execEvict fn ctx s) := by simp [execEvict, hs]

theorem execHeadVaWrite_wf (fn : Fin 16) (ctx : Fin 256) (hi : Word32) (hs : s.MemOk) : EndsWf (execHeadVaWrite fn ctx hi s) := by
  unfold execHeadVaWrite
  dsimp only
  repeat' split
  all_goals simp [-bump_hbm, hbm_bump, hs]

theorem execWatchWake_wf (ctx : Fin 256) (hs : s.MemOk) : EndsWf (execWatchWake ctx s) := by simp [execWatchWake, hs]

theorem execCtxEvict_wf (hs : s.MemOk) : EndsWf (execCtxEvict s) := by
  unfold execCtxEvict
  split <;> simp [hs]

/-! ## Drurid ports -/

@[simp] theorem crossingLost_wf (x : Port) (hs : s.MemOk) : (crossingLost x s).MemOk := by
  unfold crossingLost
  split <;> simp [hs]

@[simp] theorem lostPort_wf (p why : Nat) (hs : s.MemOk) : (lostPort p why s).MemOk := by
  unfold lostPort
  dsimp only
  repeat' split
  all_goals simp [hs]

theorem execSignalDetect_wf (p : Fin 16) (hs : s.MemOk) : EndsWf (execSignalDetect p s) := by simp [execSignalDetect, hs]

@[simp] theorem belowMin_hbm (p : Nat) : (belowMin p s).hbm = s.hbm := by simp [belowMin]

@[simp] theorem tryCandidate_hbm (p i : Nat) : (tryCandidate p i s).hbm = s.hbm := by
  unfold tryCandidate
  dsimp only
  repeat' split
  all_goals simp

@[simp] theorem reportLanes_hbm (p : Nat) : (reportLanes p s).hbm = s.hbm := rfl

theorem execTrainingFrame_wf (p : Fin 16) (frames : List Frame) (peer : PeerCaps) (hs : s.MemOk) :
    EndsWf (execTrainingFrame p frames peer s) := by simp [execTrainingFrame, hs]

theorem execNegotiateTimeout_wf (p : Fin 16) (hs : s.MemOk) : EndsWf (execNegotiateTimeout p s) := by simp [execNegotiateTimeout, hs]

theorem execEqualizeCandidateEnd_wf (p : Fin 16) (rxErrs txErrs : Vector Nat 9) (hs : s.MemOk) :
    EndsWf (execEqualizeCandidateEnd p rxErrs txErrs s) := by simp [execEqualizeCandidateEnd, hs]

@[simp] theorem identFail_wf (p : Nat) (hs : s.MemOk) : (identFail p s).MemOk := by simp [identFail, hs]

theorem execIdentityBlock_wf (p : Fin 16) (hs : s.MemOk) : EndsWf (execIdentityBlock p s) := by simp [execIdentityBlock, hs]

theorem execIdentifyTimeout_wf (p : Fin 16) (hs : s.MemOk) : EndsWf (execIdentifyTimeout p s) := by simp [execIdentifyTimeout, hs]

theorem execIdHoldEnd_wf (p : Fin 16) (hs : s.MemOk) : EndsWf (execIdHoldEnd p s) := by simp [execIdHoldEnd, hs]

theorem execLossOfSignal_wf (p : Fin 16) (hs : s.MemOk) : EndsWf (execLossOfSignal p s) := by simp [execLossOfSignal, hs]

@[simp] theorem flushControl_hbm (p : Nat) (u : LinkUnit) (a : Nat) : (flushControl p u a s).hbm = s.hbm := by
  induction a generalizing s with
  | zero => rfl
  | succ fuel ih => unfold flushControl; split <;> simp [ih]

@[simp] theorem retireLane_hbm (p lane : Nat) : (retireLane p lane s).hbm = s.hbm := by
  unfold retireLane
  dsimp only
  repeat' split
  all_goals simp

@[simp] theorem nextSparing_hbm (p : Nat) : (nextSparing p s).hbm = s.hbm := by
  unfold nextSparing
  dsimp only
  repeat' split
  all_goals simp

@[simp] theorem purgeLops_hbm (p : Nat) : (purgeLops p s).hbm = s.hbm := by simp [purgeLops, -bump_hbm, hbm_bump]

@[simp] theorem takeUnits_hbm (p : Nat) (us : List LinkUnit) : (takeUnits p us s).hbm = s.hbm := by
  fun_cases takeUnits
  grind -ring -linarith [forEach_hbm, forEach_wf, takeUnit_hbm, purgeLops_hbm]

@[simp] theorem acceptCodeword_hbm (p : Nat) (cw : Codeword) : (acceptCodeword p cw s).hbm = s.hbm := by simp [acceptCodeword]

theorem execCodewordReceive_wf (p : Fin 16) (cw : Codeword) (hs : s.MemOk) :
    EndsWf (execCodewordReceive p cw s) := by simp [execCodewordReceive, -bump_hbm, hbm_bump, hs]

theorem execRetrainTimeout_wf (p : Fin 16) (hs : s.MemOk) : EndsWf (execRetrainTimeout p s) := by simp [execRetrainTimeout, hs]

theorem execLaneErrorThreshold_wf (p : Fin 16) (lane : Fin 9) (hs : s.MemOk) :
    EndsWf (execLaneErrorThreshold p lane s) := by simp [execLaneErrorThreshold, hs]

theorem execSpareReq_wf (p : Fin 16) (lane : Fin 9) (hs : s.MemOk) : EndsWf (execSpareReq p lane s) := by
  unfold execSpareReq
  dsimp only
  repeat' split
  all_goals simp [hs]

theorem execSpareAck_wf (p : Fin 16) (lane : Fin 9) (sw : Fin 512) (hs : s.MemOk) :
    EndsWf (execSpareAck p lane sw s) := by simp [execSpareAck, hs]

theorem execPortEnable_wf (p : Fin 16) (en : Bool) (hs : s.MemOk) : EndsWf (execPortEnable p en s) := by simp [execPortEnable, hs]

theorem execPortRetrainCmd_wf (p : Fin 16) (hs : s.MemOk) : EndsWf (execPortRetrainCmd p s) := by simp [execPortRetrainCmd, hs]

theorem execPortDownCmd_wf (p : Fin 16) (hs : s.MemOk) : EndsWf (execPortDownCmd p s) := by simp [execPortDownCmd, hs]

/-! ## Power and resets -/

@[simp] theorem dropAllPorts_hbm : (dropAllPorts s).hbm = s.hbm := by
  fun_cases dropAllPorts
  grind -ring -linarith [forEach_hbm, forEach_wf, dropPort_hbm]

@[simp] theorem resetAll_wf (code detail : Nat) : (resetAll code detail s).MemOk := by
  simp [resetAll, Memory.wf, cellsWf]

@[simp] theorem resetCold_wf : (resetCold s).MemOk := by
  simp [resetCold, Memory.wf, cellsWf]

@[simp] theorem cablesOff_hbm : (cablesOff s).hbm = s.hbm := rfl

@[simp] theorem raiseBoot_hbm (event : Nat) : (raiseBoot event s).hbm = s.hbm := by simp [raiseBoot]

@[simp] theorem supplyReset_wf (rail : Nat) : (supplyReset rail s).MemOk := by simp [supplyReset]

theorem execSupplyReset_wf (rail : Fin 8) (hs : s.MemOk) : EndsWf (execSupplyReset rail s) := by simp [execSupplyReset, hs]

theorem execVaonReset_wf (hs : s.MemOk) : EndsWf (execVaonReset s) := by simp [execVaonReset, hs]

theorem execPowerOn_wf (hs : s.MemOk) : EndsWf (execPowerOn s) := by simp [execPowerOn, hs]

theorem execUnderstoryRelease_wf (hs : s.MemOk) : EndsWf (execUnderstoryRelease s) := by simp [execUnderstoryRelease, hs]

theorem execModEnAssert_wf (hs : s.MemOk) : EndsWf (execModEnAssert s) := by simp [execModEnAssert, hs]

theorem execPwrgdRelease_wf (hs : s.MemOk) : EndsWf (execPwrgdRelease s) := by simp [execPwrgdRelease, hs]

theorem execModEnDeassert_wf (hs : s.MemOk) : EndsWf (execModEnDeassert s) := by
  unfold execModEnDeassert
  dsimp only
  split
  · simpa using hs
  · split
    · simp [Memory.wf, cellsWf]
    · exact (endsWf_next _).mpr (supplyReset_wf _)

theorem execInputPowerLoss_wf (hs : s.MemOk) : EndsWf (execInputPowerLoss s) := by simp [execInputPowerLoss, hs]

theorem execInputUv_wf (mv : BitVec 16) (hs : s.MemOk) : EndsWf (execInputUv mv s) := by simp [execInputUv, hs]

theorem execCblOverload_wf (k : Fin 4) (hs : s.MemOk) : EndsWf (execCblOverload k s) := by
  unfold execCblOverload
  rw [endsWf_next]
  exact forEach_wf _ (fun _ _ hu => lostPort_wf _ _ hu) (by simpa using hs)

theorem execPerstDeassert_wf (hs : s.MemOk) : EndsWf (execPerstDeassert s) := by simp [execPerstDeassert, hs]

theorem execConfigReady_wf (hs : s.MemOk) : EndsWf (execConfigReady s) := by simp [execConfigReady, hs]

theorem execLinkTrained_wf (rate : BitVec 3) (width : BitVec 5) (flit : Bool) (hs : s.MemOk) :
    EndsWf (execLinkTrained rate width flit s) := by simp [execLinkTrained, hs]

theorem execHostReset_wf (kind : HostResetKind) (hs : s.MemOk) : EndsWf (execHostReset kind s) := by simp [execHostReset, hs]

@[simp] theorem clearVf_hbm (v : Nat) : (clearVf v s).hbm = s.hbm := by
  delta clearVf
  extract_lets t
  have ht : t.hbm = s.hbm := forEach_hbm _ fun _ _ => (setF_hbm ..).trans (setF_hbm ..)
  rw [setMsix_hbm]
  exact ht

@[simp] theorem flrVf_wf (v : Nat) (hs : s.MemOk) : (flrVf v s).MemOk := by
  delta flrVf
  extract_lets mine t1 t2
  have h1 : t1.MemOk := by
    refine forEach_wf _ (fun c u hu => ?_) hs
    split
    · exact releaseCtx_wf _ hu
    · exact killCtx_wf _ _ hu
  have h2 : t2.MemOk := State.MemOk.of_hbm h1 ((countEvent_hbm ..).trans (clearVf_hbm ..))
  exact State.MemOk.of_hbm h2 (raise_hbm ..)

theorem execVfFlr_wf (vf : Fin 16) (hs : s.MemOk) : EndsWf (execVfFlr vf s) := by simp [execVfFlr, hs]

theorem execVfEnable_wf (mask : BitVec 16) (hs : s.MemOk) : EndsWf (execVfEnable mask s) := by
  unfold execVfEnable
  rw [endsWf_next]
  exact forEach_wf _ (fun _ _ hu => flrVf_wf _ hu) hs

theorem execFabricUnlock_wf (pll : FabricPll) (hs : s.MemOk) : EndsWf (execFabricUnlock pll s) := by simp [execFabricUnlock, hs]

@[simp] theorem gateAll_hbm : (gateAll s).hbm = s.hbm := forEach_hbm _ fun _ _ => gateGrove_hbm ..

theorem execDeviceStopped_wf (hs : s.MemOk) : EndsWf (execDeviceStopped s) := by
  unfold execDeviceStopped
  split
  · exact (endsWf_next s).mpr hs
  · next code hcode =>
    have hfault : (forEach (ctxIds s) (fun c s => ctxFault c 0x0303 s) s).MemOk := forEach_wf _ (fun _ _ hu => ctxFault_wf _ _ hu) hs
    simp only [endsWf_next, State.MemOk, raiseBoot_hbm, setMevent_hbm]
    refine forEach_wf _ (fun _ _ hu => lostPort_wf _ _ hu) ?_
    exact State.MemOk.of_hbm hfault (gateAll_hbm ..)

theorem execPllLockTimeout_wf (g : Fin 64) (hs : s.MemOk) : EndsWf (execPllLockTimeout g s) := by simp [execPllLockTimeout, hs]

theorem execPllLockLoss_wf (g : Fin 64) (hs : s.MemOk) : EndsWf (execPllLockLoss g s) := by
  unfold execPllLockLoss
  dsimp only
  repeat' split
  all_goals simp [hs]

/-! ## The repair map applied -/

@[simp] theorem applyEntry_hbm (e : Nat) : (applyEntry e s).hbm = s.hbm := by
  unfold applyEntry
  split <;> simp

@[simp] theorem clearSpares_hbm : (clearSpares s).hbm = s.hbm := rfl

@[simp] theorem trainStacks_hbm (failed : Option (Fin 8)) : (trainStacks failed s).hbm = s.hbm := forEach_hbm _ fun _ _ => modMc_hbm ..

@[simp] theorem applyMap_hbm (es : List Nat) (gen : Nat) (selfBuilt : Bool) (failed : Option (Fin 8)) :
    (applyMap es gen selfBuilt failed s).hbm = s.hbm := by
  fun_cases applyMap <;> grind -ring -linarith [forEach_hbm, forEach_wf, mapRewrite_hbm, applyEntry_hbm, clearSpares_hbm, trainStacks_hbm]

/-! ## Boot, keys, images and attestation -/

@[simp] theorem setBoot_hbm (f : Boot → Boot) : (setBoot f s).hbm = s.hbm := rfl

@[simp] theorem countLocked_hbm : (countLocked s).hbm = s.hbm := rfl

@[simp] theorem dropImages_hbm (slot : Nat) : (dropImages slot s).hbm = s.hbm := rfl

theorem execKeyLoad_wf (slot : BitVec 2) (hs : s.MemOk) : EndsWf (execKeyLoad slot s) := by simp [execKeyLoad, hs]

theorem execKeyParsed_wf (hs : s.MemOk) : EndsWf (execKeyParsed s) := by
  unfold execKeyParsed
  split <;> simp [hs]

theorem execKeyClear_wf (slot : BitVec 2) (hs : s.MemOk) : EndsWf (execKeyClear slot s) := by simp [execKeyClear, hs]

theorem execImgGo_wf (hs : s.MemOk) : EndsWf (execImgGo s) := by simp [execImgGo, hs]

theorem execImageVerified_wf (hs : s.MemOk) : EndsWf (execImageVerified s) := by simp [execImageVerified, hs]

theorem execMapGo_wf (hs : s.MemOk) : EndsWf (execMapGo s) := by simp [execMapGo, hs]

theorem execMapApplied_wf (failed : Option (Fin 8)) (hs : s.MemOk) : EndsWf (execMapApplied failed s) := by simp [execMapApplied, hs]

theorem execSelfMap_wf (hs : s.MemOk) : EndsWf (execSelfMap s) := by simp [execSelfMap, hs]

theorem execSelfMapDone_wf (entries : List Word64) (failed : Option (Fin 8)) (hs : s.MemOk) :
    EndsWf (execSelfMapDone entries failed s) := by
  have hswept (xs : List Nat) (u : State) : (forEach xs (fun p s => modPNib p (fun q => { q with sweptOk := true }) s) u).hbm = u.hbm :=
    forEach_hbm _ fun _ _ => modPNib_hbm ..
  unfold execSelfMapDone
  generalize List.range 1088 = xs
  dsimp only
  split
  · rw [endsWf_next]
    simp [hswept, Memory.wf, cellsWf]
  · exact (endsWf_next s).mpr hs

theorem execArm_wf (hs : s.MemOk) : EndsWf (execArm s) := by simp [execArm, hs]

@[simp] theorem refuseArm_hbm (code detail addr : Nat) : (refuseArm code detail addr s).hbm = s.hbm := by simp [refuseArm]

@[simp] theorem sendPending_hbm : (sendPending s).hbm = s.hbm := by
  fun_cases sendPending
  grind -ring -linarith [forEach_hbm, forEach_wf, sendEvent_hbm]

@[simp] theorem clearCounters_hbm : (clearCounters s).hbm = s.hbm := rfl

@[simp] theorem enterRun_wf (hs : s.MemOk) : (enterRun s).MemOk := by
  fun_cases enterRun
  grind -ring -linarith [modPort_hbm, forEach_hbm, forEach_wf, flushAll_hbm, announce_hbm, doWaiting_wf, raiseBoot_hbm, setBoot_hbm,
      sendPending_hbm, clearCounters_hbm]

theorem execVerifyComplete_wf (hs : s.MemOk) : EndsWf (execVerifyComplete s) := by
  unfold execVerifyComplete
  repeat' split
  all_goals simp [hs]

@[simp] theorem portsOff_hbm : (portsOff s).hbm = s.hbm := forEach_hbm _ fun _ _ => modPort_hbm ..

theorem execDisarm_wf (hs : s.MemOk) : EndsWf (execDisarm s) := by
  delta execDisarm
  split
  · exact (endsWf_next _).mpr (State.MemOk.of_hbm hs (countLocked_hbm ..))
  · split
    · exact (endsWf_next s).mpr hs
    · extract_lets t u
      have ht : t.MemOk := by
        refine forEach_wf _ (fun c u hu => ?_) hs
        split
        · exact releaseCtx_wf _ hu
        · exact killCtx_wf _ _ hu
      have hu : u.MemOk := by
        simp only [u]
        split
        · exact abandonStep_wf _ _ ht
        · exact ht
      exact (endsWf_next _).mpr (State.MemOk.of_hbm hu ((setBoot_hbm ..).trans ((portsOff_hbm ..).trans (dropAllPorts_hbm ..))))

@[simp] theorem endKill_wf (c : Nat) (hs : s.MemOk) : (endKill c s).MemOk := by simp [endKill, hs]

@[simp] theorem scrubOwed_hbm : (scrubOwed s).hbm = s.hbm := by
  fun_cases scrubOwed
  grind -ring -linarith [forEach_hbm, forEach_wf, scrubGrove_hbm]

theorem execDisarmDone_wf (hs : s.MemOk) : EndsWf (execDisarmDone s) := by
  delta execDisarmDone
  split
  · exact (endsWf_next s).mpr hs
  · extract_lets cs t1 t2 ranger t3 keep
    have h0 : (scrubOwed s).MemOk := State.MemOk.of_hbm hs (scrubOwed_hbm ..)
    have h1 : t1.MemOk := flushCaches_wf (forEach_wf _ (fun _ _ hu => endKill_wf _ hu) h0)
    have h2 : t2.MemOk := forEach_wf _ (fun _ _ hu => State.MemOk.of_hbm hu ((setF_hbm ..).trans (freePlot_hbm ..))) h1
    have h3 : t3.MemOk := State.MemOk.of_hbm h2 (gateAll_hbm ..)
    exact (endsWf_next _).mpr (State.MemOk.of_hbm h3 ((portsOff_hbm ..).trans (setBoot_hbm ..)))

theorem execAttGo_wf (hs : s.MemOk) : EndsWf (execAttGo s) := by simp [execAttGo, hs]

theorem execAttDone_wf (hs : s.MemOk) : EndsWf (execAttDone s) := by
  unfold execAttDone
  split <;> simp [hs]

/-! ## Flags of a tile -/

@[simp] theorem voteFor_hbm (nib bits : Nat) : (voteFor nib bits s).hbm = s.hbm := by
  unfold voteFor
  split <;> simp

@[simp] theorem countNum_hbm (nib hi lo : Nat) : (countNum nib hi lo s).hbm = s.hbm := by
  unfold countNum
  split <;> simp

@[simp] theorem noteFlags_hbm (nib pc : Nat) (ovf nf : Bool) : (noteFlags nib pc ovf nf s).hbm = s.hbm := by simp [noteFlags]

@[simp] theorem vecFlags_hbm (nib pc : Nat) (ovf nf : Bool) : (vecFlags nib pc ovf nf s).hbm = s.hbm := by simp [vecFlags]

@[simp] theorem wantSr_hbm (nib pc : Nat) (asked : Bool) : (wantSr nib pc asked s).2.hbm = s.hbm := by simp [wantSr]

@[simp] theorem accFault_wf (nib pc : Nat) (e : AccErr) (hs : s.MemOk) : (accFault nib pc e s).MemOk := by
  unfold accFault
  split <;> simp [hs]

/-! ## Quill -/

@[simp] theorem quillFault_wf (nib pc reason : Nat) (hs : s.MemOk) : (quillFault nib pc reason s).MemOk := by simp [quillFault, hs]

@[simp] theorem quillGo_wf (nib pc : Nat) (hs : s.MemOk) : (quillGo nib pc s).MemOk := by simp [quillGo, hs]

@[simp] theorem quillWait_hbm (nib kind a b : Nat) : (quillWait nib kind a b s).hbm = s.hbm := rfl

theorem quillRow_wf {kind : Nat → Bool} {body : Nat → Nat → Nat → State → State}
    (hbody : ∀ nib pc w u, u.MemOk → (body nib pc w u).MemOk) (nib : Fin 1024) (hs : s.MemOk) : EndsWf (quillRow kind body nib s) := by
  unfold quillRow
  dsimp only
  repeat' split
  all_goals simp [hs, hbody _ _ _ _ hs]

@[simp] theorem aluBody_wf (fn nib pc w : Nat) (hs : s.MemOk) : (aluBody fn nib pc w s).MemOk := by simp [aluBody, hs]

theorem aluRow_wf (fn : Nat) (nib : Fin 1024) (hs : s.MemOk) :
    EndsWf (aluRow fn nib s) := quillRow_wf (fun _ _ _ _ hu => aluBody_wf _ _ _ _ hu) nib hs

theorem execAluAdd_wf (nib : Fin 1024) (hs : s.MemOk) : EndsWf (execAluAdd nib s) := by
  fun_cases execAluAdd
  grind -ring -linarith [aluRow_wf]

theorem execAluSub_wf (nib : Fin 1024) (hs : s.MemOk) : EndsWf (execAluSub nib s) := by
  fun_cases execAluSub
  grind -ring -linarith [aluRow_wf]

theorem execAluAnd_wf (nib : Fin 1024) (hs : s.MemOk) : EndsWf (execAluAnd nib s) := by
  fun_cases execAluAnd
  grind -ring -linarith [aluRow_wf]

theorem execAluOr_wf (nib : Fin 1024) (hs : s.MemOk) : EndsWf (execAluOr nib s) := by
  fun_cases execAluOr
  grind -ring -linarith [aluRow_wf]

theorem execAluXor_wf (nib : Fin 1024) (hs : s.MemOk) : EndsWf (execAluXor nib s) := by
  fun_cases execAluXor
  grind -ring -linarith [aluRow_wf]

theorem execAluSll_wf (nib : Fin 1024) (hs : s.MemOk) : EndsWf (execAluSll nib s) := by
  fun_cases execAluSll
  grind -ring -linarith [aluRow_wf]

theorem execAluSrl_wf (nib : Fin 1024) (hs : s.MemOk) : EndsWf (execAluSrl nib s) := by
  fun_cases execAluSrl
  grind -ring -linarith [aluRow_wf]

theorem execAluSra_wf (nib : Fin 1024) (hs : s.MemOk) : EndsWf (execAluSra nib s) := by
  fun_cases execAluSra
  grind -ring -linarith [aluRow_wf]

theorem execAluMul_wf (nib : Fin 1024) (hs : s.MemOk) : EndsWf (execAluMul nib s) := by
  fun_cases execAluMul
  grind -ring -linarith [aluRow_wf]

theorem execAluSlt_wf (nib : Fin 1024) (hs : s.MemOk) : EndsWf (execAluSlt nib s) := by
  fun_cases execAluSlt
  grind -ring -linarith [aluRow_wf]

theorem execAluSltu_wf (nib : Fin 1024) (hs : s.MemOk) : EndsWf (execAluSltu nib s) := by
  fun_cases execAluSltu
  grind -ring -linarith [aluRow_wf]

theorem execAluFlt_wf (nib : Fin 1024) (hs : s.MemOk) : EndsWf (execAluFlt nib s) := by
  fun_cases execAluFlt
  grind -ring -linarith [aluRow_wf]

theorem execAluFeq_wf (nib : Fin 1024) (hs : s.MemOk) : EndsWf (execAluFeq nib s) := by
  fun_cases execAluFeq
  grind -ring -linarith [aluRow_wf]

theorem execAluFadd_wf (nib : Fin 1024) (hs : s.MemOk) : EndsWf (execAluFadd nib s) := by
  fun_cases execAluFadd
  grind -ring -linarith [aluRow_wf]

theorem execAluFmul_wf (nib : Fin 1024) (hs : s.MemOk) : EndsWf (execAluFmul nib s) := by
  fun_cases execAluFmul
  grind -ring -linarith [aluRow_wf]

theorem execAddi_wf (nib : Fin 1024) (hs : s.MemOk) : EndsWf (execAddi nib s) := quillRow_wf (fun _ _ _ _ hu => by simp [hu]) nib hs

theorem execLui_wf (nib : Fin 1024) (hs : s.MemOk) : EndsWf (execLui nib s) := quillRow_wf (fun _ _ _ _ hu => by simp [hu]) nib hs

theorem execLw_wf (nib : Fin 1024) (hs : s.MemOk) : EndsWf (execLw nib s) := quillRow_wf (fun _ _ _ _ hu => by simp [hu]) nib hs

theorem execSw_wf (nib : Fin 1024) (hs : s.MemOk) : EndsWf (execSw nib s) := quillRow_wf (fun _ _ _ _ hu => by simp [hu]) nib hs

@[simp] theorem branchBody_wf (cond : Nat → Nat → Bool) (nib pc w : Nat) (hs : s.MemOk) :
    (branchBody cond nib pc w s).MemOk := by simp [branchBody, hs]

theorem execBeq_wf (nib : Fin 1024) (hs : s.MemOk) :
    EndsWf (execBeq nib s) := quillRow_wf (fun _ _ _ _ hu => branchBody_wf _ _ _ _ hu) nib hs

theorem execBne_wf (nib : Fin 1024) (hs : s.MemOk) :
    EndsWf (execBne nib s) := quillRow_wf (fun _ _ _ _ hu => branchBody_wf _ _ _ _ hu) nib hs

theorem execBlt_wf (nib : Fin 1024) (hs : s.MemOk) :
    EndsWf (execBlt nib s) := quillRow_wf (fun _ _ _ _ hu => branchBody_wf _ _ _ _ hu) nib hs

theorem execBge_wf (nib : Fin 1024) (hs : s.MemOk) :
    EndsWf (execBge nib s) := quillRow_wf (fun _ _ _ _ hu => branchBody_wf _ _ _ _ hu) nib hs

theorem execJal_wf (nib : Fin 1024) (hs : s.MemOk) : EndsWf (execJal nib s) := quillRow_wf (fun _ _ _ _ hu => by simp [hu]) nib hs

theorem execJalr_wf (nib : Fin 1024) (hs : s.MemOk) : EndsWf (execJalr nib s) := quillRow_wf (fun _ _ _ _ hu => by simp [hu]) nib hs

theorem execMxq_wf (nib : Fin 1024) (hs : s.MemOk) : EndsWf (execMxq nib s) := quillRow_wf (fun _ _ _ _ hu => by simp [hu]) nib hs

theorem execVxq_wf (nib : Fin 1024) (hs : s.MemOk) : EndsWf (execVxq nib s) := quillRow_wf (fun _ _ _ _ hu => by simp [hu]) nib hs

@[simp] theorem issueDesc_wf (nib pc a : Nat) (hs : s.MemOk) : (issueDesc nib pc a s).MemOk := by simp [issueDesc, hs]

theorem execDma_wf (nib : Fin 1024) (hs : s.MemOk) : EndsWf (execDma nib s) := quillRow_wf (fun _ _ _ _ hu => by simp [hu]) nib hs

theorem execWsig_wf (nib : Fin 1024) (hs : s.MemOk) : EndsWf (execWsig nib s) := quillRow_wf (fun _ _ _ _ hu => by simp [hu]) nib hs

theorem waitDone_wf (kind : Nat) (ended : Nib → Nat → Nat → Bool) (finish : Nib → Nat → Nat → Nib) (nib : Fin 1024) (hs : s.MemOk) :
    EndsWf (waitDone kind ended finish nib s) := by
  unfold waitDone
  dsimp only
  repeat' split
  all_goals simp [hs]

theorem execWsigDone_wf (nib : Fin 1024) (hs : s.MemOk) : EndsWf (execWsigDone nib s) := by
  fun_cases execWsigDone
  grind -ring -linarith [waitDone_wf]

theorem execWtag_wf (nib : Fin 1024) (hs : s.MemOk) : EndsWf (execWtag nib s) := quillRow_wf (fun _ _ _ _ hu => by simp [hu]) nib hs

theorem execWtagDone_wf (nib : Fin 1024) (hs : s.MemOk) : EndsWf (execWtagDone nib s) := by
  fun_cases execWtagDone
  grind -ring -linarith [waitDone_wf]

theorem execRsum_wf (nib : Fin 1024) (hs : s.MemOk) : EndsWf (execRsum nib s) := quillRow_wf (fun _ _ _ _ hu => by simp [hu]) nib hs

theorem execRsumDone_wf (nib : Fin 1024) (hs : s.MemOk) : EndsWf (execRsumDone nib s) := by
  fun_cases execRsumDone
  grind -ring -linarith [waitDone_wf]

theorem execVwait_wf (nib : Fin 1024) (hs : s.MemOk) : EndsWf (execVwait nib s) := quillRow_wf (fun _ _ _ _ hu => by simp [hu]) nib hs

theorem execVwaitDone_wf (nib : Fin 1024) (hs : s.MemOk) : EndsWf (execVwaitDone nib s) := by
  fun_cases execVwaitDone
  grind -ring -linarith [waitDone_wf]

theorem execCsrr_wf (nib : Fin 1024) (hs : s.MemOk) : EndsWf (execCsrr nib s) := by
  refine quillRow_wf (fun nib pc w u hu => ?_) nib hs
  dsimp only
  split <;> simp [hu]

theorem execCsrw_wf (nib : Fin 1024) (hs : s.MemOk) : EndsWf (execCsrw nib s) := by
  refine quillRow_wf (fun nib pc w u hu => ?_) nib hs
  dsimp only
  split <;> simp [hu]

@[simp] theorem dmaPageFault_wf (nib pc tag va reason : Nat) (hs : s.MemOk) : (dmaPageFault nib pc tag va reason s).MemOk := by
  unfold dmaPageFault
  split <;> simp [hs]

@[simp] theorem nibMemError_wf (nib : Nat) (e : VErr) (hs : s.MemOk) : (nibMemError nib e s).MemOk := by
  unfold nibMemError
  repeat' split
  all_goals simp [hs]

@[simp] theorem maskBit_wf (nib c : Nat) (p : PredTable) (st : Nat) (hs : s.MemOk) : (maskBit nib c p st s).2.MemOk := by
  fun_cases maskBit <;> grind -ring -linarith [modNib_hbm, vReadBy_wf, nibTranslate_wf, moveBytes_hbm]

@[simp] theorem zeroWindow_wf (nib c : Nat) (p : PredTable) (st : Nat) (hs : s.MemOk) : (zeroWindow nib c p st s).2.MemOk := by
  have htargets (va n : Nat) := vTargetsBy_wf (s := s) (tr := nibTranslate nib c true)
      (fun va u hu => nibTranslate_wf nib c true va hu) va n hs
  unfold zeroWindow
  dsimp only
  split
  · exact hs
  · split
    · next h => exact (htargets _ _).of_eq h
    · next h => simpa using forEach_wf _ (fun p u hu => memZero_wf p.1 p.2 u hu) ((htargets _ _).of_eq h)

@[simp] theorem startStrand_hbm (nib st : Nat) (sampled : Bool) : (startStrand nib st sampled s).hbm = s.hbm := rfl

@[simp] theorem nextStrand_wf (nib c grid step every a a6 : Nat) (hs : s.MemOk) : (nextStrand nib c grid step every a a6 s).MemOk := by
  induction a generalizing a6 s with
  | zero => exact hs
  | succ fuel ih =>
    unfold nextStrand
    split
    · simpa using hs
    · split
      · simpa using hs
      · next p hp =>
        have hbit := maskBit_wf nib c p a6 hs
        have hzero (u : State) (hu : u.MemOk) := zeroWindow_wf nib c p a6 hu
        split
        · next h => exact nibMemError_wf _ _ (hbit.of_eq h)
        · next h => simpa using hbit.of_eq h
        · next h =>
          have hu := hbit.of_eq h
          split
          · simpa using hu
          · split
            · next h => exact nibMemError_wf _ _ ((hzero _ hu).of_eq h)
            · next h => exact ih _ ((hzero _ hu).of_eq h)

@[simp] theorem goStrand_wf (nib st : Nat) (hs : s.MemOk) : (goStrand nib st s).MemOk := by
  unfold goStrand
  repeat' split
  all_goals simp [hs]

theorem execStrandEnd_wf (nib : Fin 1024) (hs : s.MemOk) :
    EndsWf (execStrandEnd nib s) := quillRow_wf (fun _ _ _ _ hu => goStrand_wf _ _ (by simpa using hu)) nib hs

theorem execQuillWait_wf (nib : Fin 1024) (hs : s.MemOk) : EndsWf (execQuillWait nib s) := by
  unfold execQuillWait
  dsimp only
  repeat' split
  all_goals simp [hs]

/-! ## SPATTER and PT_INV -/

theorem execSptGo_wf (hs : s.MemOk) : EndsWf (execSptGo s) := by simp [execSptGo, hs]

theorem execSpatterDone_wf (hs : s.MemOk) : EndsWf (execSpatterDone s) := by
  unfold execSpatterDone
  split
  · simpa using hs
  · rw [endsWf_next]
    exact forEach_wf _ (fun _ _ hu => by simpa using hu) hs

theorem execPtInv_wf (ctx : Fin 256) (hs : s.MemOk) : EndsWf (execPtInv ctx s) := by
  unfold execPtInv
  split
  · simpa using hs
  · rw [endsWf_next]
    exact forEach_wf _ (fun _ _ hu => by simpa using hu) hs

theorem execInvDone_wf (hs : s.MemOk) : EndsWf (execInvDone s) := by simp [execInvDone, hs]

/-! ## The matrix queue -/

@[simp] theorem mxIllegal_wf (nib pc reason : Nat) (hs : s.MemOk) : (mxIllegal nib pc reason s).MemOk := by simp [mxIllegal, hs]

@[simp] theorem readFailed_wf (nib reader : Nat) (r : RowsRead) (hs : s.MemOk) : (readFailed nib reader r s).MemOk := by
  unfold readFailed
  split <;> simp [hs]

theorem mxRow_wf {kind : Nib → Nat → Bool} {body : Nat → MxEntry → State → State} (hbody : ∀ nib e u, u.MemOk → (body nib e u).MemOk)
    (nib : Fin 1024) (ups : List Upset) (hs : s.MemOk) : EndsWf (mxRow kind body nib ups s) := by
  unfold mxRow
  dsimp only
  repeat' split
  all_goals simp [hs, hbody _ _ (modNib _ _ s) hs]

@[simp] theorem issueMma_wf (nib : Nat) (e : MxEntry) (hs : s.MemOk) : (issueMma nib e s).2.MemOk := by
  unfold issueMma
  dsimp only
  repeat' split
  all_goals simp [hs]

@[simp] theorem issueMembers_wf (nib a : Nat) (hs : s.MemOk) : (issueMembers nib a s).MemOk := by
  induction a generalizing s with
  | zero => exact hs
  | succ k ih =>
    unfold issueMembers
    split
    · exact hs
    · next e _ _ =>
      have hmma := issueMma_wf nib e hs
      split
      · next h => exact ih (hmma.of_eq h)
      · next h => exact hmma.of_eq h

@[simp] theorem gatherPass_wf (nib : Nat) (hs : s.MemOk) : (gatherPass nib s).MemOk := by simp [gatherPass, hs]

theorem execGatherPass_wf (nib : Fin 1024) (timedOut : Bool) (ups : List Upset) (hs : s.MemOk) :
    EndsWf (execGatherPass nib timedOut ups s) := by simp [execGatherPass, hs]

theorem execMmaIssue_wf (nib : Fin 1024) (ups : List Upset) (hs : s.MemOk) : EndsWf (execMmaIssue nib ups s) := by
  unfold execMmaIssue
  split
  · simp [hs]
  · exact mxRow_wf (fun _ _ _ hu => by simp [hu]) nib ups hs

@[simp] theorem writeFeedback_wf (nib pc fb idx word : Nat) (hs : s.MemOk) : (writeFeedback nib pc fb idx word s).MemOk := by
  fun_cases writeFeedback <;> grind -ring -linarith [vWriteBy_wf, nibTranslate_wf, moveBytes_hbm, dmaPageFault_wf]

@[simp] theorem runReadout_wf (nib : Nat) (e : MxEntry) (i : Readout) (hs : s.MemOk) :
    (runReadout nib e i s).MemOk := by simp [runReadout, hs]

theorem execReadoutIssue_wf (nib : Fin 1024) (hs : s.MemOk) :
    EndsWf (execReadoutIssue nib s) := mxRow_wf (fun _ _ _ hu => by simp [hu]) nib [] hs

theorem execAccclrIssue_wf (nib : Fin 1024) (hs : s.MemOk) :
    EndsWf (execAccclrIssue nib s) := mxRow_wf (fun _ _ _ hu => by simp [hu]) nib [] hs

theorem execIssueStall_wf (nib : Fin 1024) (hs : s.MemOk) : EndsWf (execIssueStall nib s) := by
  unfold execIssueStall
  dsimp only
  repeat' split
  all_goals simp [hs]

/-! ## The vector engine -/

@[simp] theorem vxIllegal_wf (nib pc reason : Nat) (hs : s.MemOk) : (vxIllegal nib pc reason s).MemOk := by simp [vxIllegal, hs]

theorem vxRow_wf {o : Nat} {body : Nat → VecEntry → State → State} (hbody : ∀ nib e u, u.MemOk → (body nib e u).MemOk)
    (nib : Fin 1024) (ups : List Upset) (hs : s.MemOk) : EndsWf (vxRow o body nib ups s) := by
  unfold vxRow
  dsimp only
  repeat' split
  all_goals simp [hs, hbody _ _ (modNib _ _ s) hs]

@[simp] theorem runElem_hbm (f : Nib → Nat → Nat → Nat → Nat → LaneOut) (nib : Nat) (e : VecEntry) :
    (runElem f nib e s).hbm = s.hbm := by simp [runElem]

theorem elemOp_wf (o : Nat) (f : Nat → Nat → Nat → LaneOut) (nib : Fin 1024) (hs : s.MemOk) :
    EndsWf (elemOp o f nib s) := vxRow_wf (fun _ _ _ hu => by simp [hu]) nib [] hs

theorem execVadd_wf (nib : Fin 1024) (hs : s.MemOk) : EndsWf (execVadd nib s) := by
  fun_cases execVadd
  grind -ring -linarith [elemOp_wf]

theorem execVsub_wf (nib : Fin 1024) (hs : s.MemOk) : EndsWf (execVsub nib s) := by
  fun_cases execVsub
  grind -ring -linarith [elemOp_wf]

theorem execVmul_wf (nib : Fin 1024) (hs : s.MemOk) : EndsWf (execVmul nib s) := by
  fun_cases execVmul
  grind -ring -linarith [elemOp_wf]

theorem execVfma_wf (nib : Fin 1024) (hs : s.MemOk) : EndsWf (execVfma nib s) := by
  fun_cases execVfma
  grind -ring -linarith [elemOp_wf]

theorem execVmax_wf (nib : Fin 1024) (hs : s.MemOk) : EndsWf (execVmax nib s) := by
  fun_cases execVmax
  grind -ring -linarith [elemOp_wf]

theorem execVmin_wf (nib : Fin 1024) (hs : s.MemOk) : EndsWf (execVmin nib s) := by
  fun_cases execVmin
  grind -ring -linarith [elemOp_wf]

theorem execVabs_wf (nib : Fin 1024) (hs : s.MemOk) : EndsWf (execVabs nib s) := by
  fun_cases execVabs
  grind -ring -linarith [elemOp_wf]

theorem execVneg_wf (nib : Fin 1024) (hs : s.MemOk) : EndsWf (execVneg nib s) := by
  fun_cases execVneg
  grind -ring -linarith [elemOp_wf]

theorem execVrcp_wf (nib : Fin 1024) (hs : s.MemOk) : EndsWf (execVrcp nib s) := by
  fun_cases execVrcp
  grind -ring -linarith [elemOp_wf]

theorem execVsqrt_wf (nib : Fin 1024) (hs : s.MemOk) : EndsWf (execVsqrt nib s) := by
  fun_cases execVsqrt
  grind -ring -linarith [elemOp_wf]

theorem execVrsqrt_wf (nib : Fin 1024) (hs : s.MemOk) : EndsWf (execVrsqrt nib s) := by
  fun_cases execVrsqrt
  grind -ring -linarith [elemOp_wf]

theorem execVexp2_wf (nib : Fin 1024) (hs : s.MemOk) : EndsWf (execVexp2 nib s) := by
  fun_cases execVexp2
  grind -ring -linarith [elemOp_wf]

theorem execVlog2_wf (nib : Fin 1024) (hs : s.MemOk) : EndsWf (execVlog2 nib s) := by
  fun_cases execVlog2
  grind -ring -linarith [elemOp_wf]

theorem execVcmplt_wf (nib : Fin 1024) (hs : s.MemOk) : EndsWf (execVcmplt nib s) := by
  fun_cases execVcmplt
  grind -ring -linarith [elemOp_wf]

theorem execVsel_wf (nib : Fin 1024) (hs : s.MemOk) : EndsWf (execVsel nib s) := by
  fun_cases execVsel
  grind -ring -linarith [elemOp_wf]

theorem execVmov_wf (nib : Fin 1024) (hs : s.MemOk) : EndsWf (execVmov nib s) := by
  fun_cases execVmov
  grind -ring -linarith [elemOp_wf]

theorem execVfn_wf (nib : Fin 1024) (hs : s.MemOk) : EndsWf (execVfn nib s) := vxRow_wf (fun _ _ _ hu => by simp [hu]) nib [] hs

@[simp] theorem runVtload_wf (nib : Nat) (e : VecEntry) (hs : s.MemOk) : (runVtload nib e s).MemOk := by
  unfold runVtload
  split <;> simp [hs]

theorem execVtload_wf (nib : Fin 1024) (ups : List Upset) (hs : s.MemOk) :
    EndsWf (execVtload nib ups s) := vxRow_wf (fun _ _ _ hu => runVtload_wf _ _ hu) nib ups hs

@[simp] theorem runVrng_hbm (nib : Nat) (e : VecEntry) : (runVrng nib e s).hbm = s.hbm := rfl

theorem execVrng_wf (nib : Fin 1024) (hs : s.MemOk) : EndsWf (execVrng nib s) := vxRow_wf (fun _ _ _ hu => by simp [hu]) nib [] hs

@[simp] theorem loadTile_hbm (nib : Nat) (e : VecEntry) (rows : List (Nat × Row)) :
    (loadTile nib e rows s).hbm = s.hbm := by simp [loadTile]

@[simp] theorem runVld_wf (nib : Nat) (e : VecEntry) (hs : s.MemOk) : (runVld nib e s).MemOk := by
  unfold runVld
  dsimp only
  repeat' split
  all_goals simp [hs]

theorem execVld_wf (nib : Fin 1024) (ups : List Upset) (hs : s.MemOk) :
    EndsWf (execVld nib ups s) := vxRow_wf (fun _ _ _ hu => runVld_wf _ _ hu) nib ups hs

@[simp] theorem runVst_wf (nib : Nat) (e : VecEntry) (hs : s.MemOk) : (runVst nib e s).MemOk := by
  unfold runVst
  dsimp only
  repeat' split
  all_goals simp [hs]

theorem execVst_wf (nib : Fin 1024) (ups : List Upset) (hs : s.MemOk) :
    EndsWf (execVst nib ups s) := vxRow_wf (fun _ _ _ hu => runVst_wf _ _ hu) nib ups hs

@[simp] theorem runVpop_hbm (nib : Nat) (e : VecEntry) : (runVpop nib e s).hbm = s.hbm := rfl

theorem execVpop_wf (nib : Fin 1024) (hs : s.MemOk) : EndsWf (execVpop nib s) := vxRow_wf (fun _ _ _ hu => by simp [hu]) nib [] hs

@[simp] theorem runRed_wf (byRow : Bool) (nib : Nat) (e : VecEntry) (hs : s.MemOk) : (runRed byRow nib e s).MemOk := by
  unfold runRed
  dsimp only
  repeat' split
  all_goals simp [hs]

theorem execVredr_wf (nib : Fin 1024) (hs : s.MemOk) : EndsWf (execVredr nib s) := vxRow_wf (fun _ _ _ hu => runRed_wf _ _ _ hu) nib [] hs

theorem execVredc_wf (nib : Fin 1024) (hs : s.MemOk) : EndsWf (execVredc nib s) := vxRow_wf (fun _ _ _ hu => runRed_wf _ _ _ hu) nib [] hs

@[simp] theorem runVsum_hbm (nib : Nat) (e : VecEntry) : (runVsum nib e s).hbm = s.hbm := by simp [runVsum]

theorem execVsum_wf (nib : Fin 1024) (hs : s.MemOk) : EndsWf (execVsum nib s) := vxRow_wf (fun _ _ _ hu => by simp [hu]) nib [] hs

theorem execVecStall_wf (nib : Fin 1024) (hs : s.MemOk) : EndsWf (execVecStall nib s) := by
  unfold execVecStall
  dsimp only
  repeat' split
  all_goals simp [hs]

/-! ## DMA -/

@[simp] theorem sendFlits_hbm (x : Xfer) (plane : Nat) (src dst : Stop) : (sendFlits x plane src dst s).hbm = s.hbm := rfl

@[simp] theorem addXfer_hbm (x : Xfer) : (addXfer x s).hbm = s.hbm := rfl

@[simp] theorem setXfer_hbm (x : Xfer) : (setXfer x s).hbm = s.hbm := rfl

@[simp] theorem descFault_hbm (nib : Nat) (d : Desc) : (descFault nib d s).hbm = s.hbm := rfl

@[simp] theorem litAccess_wf (nib c : Nat) (d : Desc) (va r : Nat) (hs : s.MemOk) :
    (litAccess nib c d va r s).MemOk := by simp [litAccess, hs]

theorem sendRead_wf (nib c : Nat) (d : Desc) (i : Nat) (hs : s.MemOk) : (sendRead nib c d i s).MemOk := by
  delta sendRead
  extract_lets va t
  have ht : t.MemOk := by
    simp only [t]
    split
    · exact State.MemOk.of_hbm hs (addPair_hbm ..)
    · exact hs
  split
  · trivial
  · exact dmaPageFault_wf _ _ _ _ _ (State.MemOk.of_hbm hs (descFault_hbm ..))
  · exact litAccess_wf _ _ _ _ _ hs
  · split
    · simpa [Sent.MemOk] using hs
    · exact readFailed_wf _ _ _ (State.MemOk.of_hbm hs (descFault_hbm ..))
    · exact readFailed_wf _ _ _ (State.MemOk.of_hbm hs (descFault_hbm ..))
  · split
    · simpa [Sent.MemOk] using ht
    · trivial

theorem takeSource_wf (nib : Nat) (d : Desc) (r : Nat) {ok : Row → State → Sent} (hok : ∀ v u, u.MemOk → (ok v u).MemOk) (hs : s.MemOk) :
    (takeSource nib d r ok s).MemOk := by
  unfold takeSource
  split
  · exact hok _ _ hs
  · exact readFailed_wf _ _ _ (by simpa using hs)
  · exact readFailed_wf _ _ _ (by simpa using hs)

theorem sendWrite_wf (nib c : Nat) (d : Desc) (i : Nat) (hs : s.MemOk) : (sendWrite nib c d i s).MemOk := by
  fun_cases sendWrite
  case case6 => exact takeSource_wf _ _ _ (fun _ _ hu => by simpa [Sent.MemOk] using hu) hs
  all_goals simp [Sent.MemOk, hs]

theorem sendLocal_wf (nib c : Nat) (d : Desc) (i : Nat) (hs : s.MemOk) : (sendLocal nib c d i s).MemOk := by
  unfold sendLocal
  split
  · trivial
  · exact takeSource_wf _ _ _ (fun _ _ hu => by simpa [Sent.MemOk] using hu) hs

theorem sendPush_wf (far nib c : Nat) (d : Desc) (i : Nat) (hs : s.MemOk) : (sendPush far nib c d i s).MemOk := by
  unfold sendPush
  split
  · trivial
  · exact takeSource_wf _ _ _ (fun _ _ hu => by simpa [Sent.MemOk] using hu) hs

theorem sendPull_wf (far nib c : Nat) (d : Desc) (i : Nat) (hs : s.MemOk) : (sendPull far nib c d i s).MemOk := by
  unfold sendPull
  split
  · simpa [Sent.MemOk] using hs
  · trivial

theorem sendRows_wf {send : Nat → Nat → Desc → Nat → State → Sent} (hsend : ∀ nib c d i u, u.MemOk → (send nib c d i u).MemOk)
    (nib c : Nat) (d : Desc) (fuel : Nat) (hs : s.MemOk) : (sendRows send nib c d fuel s).2.MemOk := by
  induction fuel generalizing s with
  | zero => exact hs
  | succ fuel ih =>
    unfold sendRows
    split
    · exact hs
    · split
      · exact hs
      · have h := hsend nib c ‹_› ‹_› s hs
        split
        · next hsent => exact ih (by rwa [hsent] at h)
        · exact hs
        · next hsent => rwa [hsent] at h

theorem descRow_wf {kind : Nat} {send : Nat → Nat → Desc → Nat → State → Sent} {after : Nat → Desc → State → State}
    (hsend : ∀ nib c d i u, u.MemOk → (send nib c d i u).MemOk) (hafter : ∀ nib d u, (after nib d u).hbm = u.hbm) (nib : Fin 1024)
    (seq : Nat) (ups : List Upset) (hs : s.MemOk) : EndsWf (descRow kind send after nib seq ups s) := by
  unfold descRow
  dsimp only
  have hrows := fun c d u hu => sendRows_wf (s := u) hsend nib.val c d (d.rows + 1) hu
  repeat' split
  all_goals grind [endsWf_next, modNib_hbm]

@[simp] theorem sendHints_hbm (nib : Nat) (d : Desc) : (sendHints nib d s).hbm = s.hbm := by
  fun_cases sendHints <;> grind -ring -linarith [forEach_hbm, forEach_wf, sendRequest_hbm]

theorem execDescHbmRead_wf (nib : Fin 1024) (desc : Nat) (hs : s.MemOk) :
    EndsWf (execDescHbmRead nib desc s) := descRow_wf (fun _ _ _ _ _ => sendRead_wf _ _ _ _) (fun _ _ _ => sendHints_hbm ..) nib desc [] hs

theorem execDescHbmWrite_wf (nib : Fin 1024) (desc : Nat) (ups : List Upset) (hs : s.MemOk) :
    EndsWf (execDescHbmWrite nib desc ups s) := descRow_wf (fun _ _ _ _ _ => sendWrite_wf _ _ _ _) (fun _ _ _ => rfl) nib desc ups hs

theorem execDescLocalCopy_wf (nib : Fin 1024) (desc : Nat) (ups : List Upset) (hs : s.MemOk) :
    EndsWf (execDescLocalCopy nib desc ups s) := descRow_wf (fun _ _ _ _ _ => sendLocal_wf _ _ _ _) (fun _ _ _ => rfl) nib desc ups hs

@[simp] theorem plotBounds_wf (nib : Nat) (d : Desc) (hs : s.MemOk) : (plotBounds nib d s).MemOk := by
  unfold plotBounds
  dsimp only
  repeat' split
  all_goals simp [hs]

theorem remoteRow_wf {kind : Nat} {send : Nat → Nat → Nat → Desc → Nat → State → Sent}
    (hsend : ∀ far nib c d i u, u.MemOk → (send far nib c d i u).MemOk) (nib : Fin 1024) (desc : Nat) (ups : List Upset) (hs : s.MemOk) :
    EndsWf (remoteRow kind send nib desc ups s) := by
  unfold remoteRow
  dsimp only
  split
  · split
    · exact descRow_wf (hsend _) (fun _ _ _ => deliverSignal_hbm ..) nib desc ups hs
    · split <;> simp [hs]
  · simp [hs]

theorem execPush_wf (nib : Fin 1024) (desc : Nat) (ups : List Upset) (hs : s.MemOk) :
    EndsWf (execPush nib desc ups s) := remoteRow_wf (fun _ _ _ _ _ _ => sendPush_wf _ _ _ _ _) nib desc ups hs

theorem execPull_wf (nib : Fin 1024) (desc : Nat) (hs : s.MemOk) :
    EndsWf (execPull nib desc s) := remoteRow_wf (fun _ _ _ _ _ _ => sendPull_wf _ _ _ _ _) nib desc [] hs

theorem execPtWalk_wf (nib : Fin 1024) (desc : Nat) (hs : s.MemOk) : EndsWf (execPtWalk nib desc s) := by
  unfold execPtWalk
  dsimp only
  have hwalk := fun c va => walk_wf c va hs
  repeat' split
  all_goals grind [endsWf_next, dmaPageFault_wf, descFault_hbm, cacheTranslation_hbm]

@[simp] theorem dropLanded_hbm (nib : Nat) (d : Desc) (row : Nat) : (dropLanded nib d row s).hbm = s.hbm := by
  fun_cases dropLanded <;> grind -ring -linarith [forEach_hbm, forEach_wf, dropXfer_hbm]

theorem execDmaRowLand_wf (nib : Fin 1024) (desc row : Nat) (hs : s.MemOk) : EndsWf (execDmaRowLand nib desc row s) := by
  unfold execDmaRowLand
  dsimp only
  repeat' split
  all_goals simp [hs]

theorem execDescriptorComplete_wf (nib : Fin 1024) (desc : Nat) (hs : s.MemOk) : EndsWf (execDescriptorComplete nib desc s) := by
  unfold execDescriptorComplete
  dsimp only
  repeat' split
  all_goals simp [hs]

theorem execRemotePushArrive_wf (nib : Fin 1024) (desc row : Nat) (hs : s.MemOk) : EndsWf (execRemotePushArrive nib desc row s) := by
  unfold execRemotePushArrive
  split
  · split
    · rw [endsWf_next]
      exact State.MemOk.of_hbm hs ((deliverSignal_hbm ..).trans ((writeRemote_hbm ..).trans (dropXfer_hbm ..)))
    · simpa using hs
  · simpa using hs

theorem execPullServe_wf (nib : Fin 1024) (desc row : Nat) (ups : List Upset) (hs : s.MemOk) :
    EndsWf (execPullServe nib desc row ups s) := by
  unfold execPullServe
  dsimp only
  repeat' split
  all_goals simp [hs]

theorem execDmaStall_wf (nib : Fin 1024) (desc : Nat) (hs : s.MemOk) : EndsWf (execDmaStall nib desc s) := by
  unfold execDmaStall
  dsimp only
  repeat' split
  all_goals simp [hs]

/-! ## The Canopy -/

@[simp] theorem modSeam_hbm (l : Nat) (f : SeamDir → SeamDir) : (modSeam l f s).hbm = s.hbm := rfl

@[simp] theorem servePort_hbm (f : Flit) : (servePort f s).hbm = s.hbm := rfl

@[simp] theorem moveFlit_hbm (f : Flit) (b : Nat) : (moveFlit f b s).hbm = s.hbm := rfl

@[simp] theorem dropFlit_hbm (f : Flit) : (dropFlit f s).hbm = s.hbm := rfl

@[simp] theorem deliverFlit_hbm (f : Flit) : (deliverFlit f s).hbm = s.hbm := by
  unfold deliverFlit
  dsimp only
  repeat' split
  all_goals simp

@[simp] theorem failFlit_wf (f : Flit) (hs : s.MemOk) : (failFlit f s).MemOk := by
  unfold failFlit
  dsimp only
  repeat' split
  all_goals simp [hs]

@[simp] theorem crossSeam_hbm (l : Nat) (crcOk : Bool) : (crossSeam l crcOk s).hbm = s.hbm := rfl

@[simp] theorem seamTrip_wf (l wire : Nat) (hs : s.MemOk) : (seamTrip l wire s).MemOk := by simp [seamTrip, hs]

theorem execFlitArrive_wf (flit : Nat) (crcOk : Bool) (wire : Fin 568) (hs : s.MemOk) : EndsWf (execFlitArrive flit crcOk wire s) := by
  unfold execFlitArrive
  repeat' split
  all_goals simp [hs]

theorem execSeamErrorThreshold_wf (link : BitVec 8) (wire : Fin 568) (hs : s.MemOk) :
    EndsWf (execSeamErrorThreshold link wire s) := by simp [execSeamErrorThreshold, hs]

theorem execSeamSwitch_wf (link : BitVec 8) (hs : s.MemOk) : EndsWf (execSeamSwitch link s) := by
  unfold execSeamSwitch
  dsimp only
  repeat' split
  all_goals simp [hs]

/-! ## The memory controllers -/

@[simp] theorem requestMc_wf (x : Xfer) (hs : s.MemOk) : (requestMc x s).MemOk := by
  unfold requestMc
  dsimp only
  repeat' split
  all_goals simp [hs]

theorem execMcRequest_wf (nib : Fin 1024) (desc : Nat) (hs : s.MemOk) : EndsWf (execMcRequest nib desc s) := by
  unfold execMcRequest
  split <;> simp [hs]

theorem execBankBusyRetry_wf (nib : Fin 1024) (desc : Nat) (hs : s.MemOk) : EndsWf (execBankBusyRetry nib desc s) := by
  unfold execBankBusyRetry
  split <;> simp [hs]

@[simp] theorem addErrs_wf (mc : Nat) (errs : List CwHit) (hs : s.MemOk) : (addErrs mc errs s).MemOk := by
  refine forEach_wf _ (fun e u hu => ?_) hs
  dsimp only
  split
  · simpa using hu
  · exact hu

@[simp] theorem deliverRead_wf (x : Xfer) (answer : Option Row) (hs : s.MemOk) : (deliverRead x answer s).MemOk := by
  unfold deliverRead
  dsimp only
  repeat' split
  all_goals simp [hs]

theorem execMcRead_wf (mc : Fin 8) (tag : Fin 4096) (aged : Bool) (errs : List CwHit) (hs : s.MemOk) :
    EndsWf (execMcRead mc tag aged errs s) := by
  unfold execMcRead
  dsimp only
  have herrs := addErrs_wf mc.val errs hs
  have hdeliver (xs : List Xfer) (u : State) (hu : u.MemOk) := forEach_wf xs
      (f := fun y s => match findXfer s y.nib y.seq y.row, y.early with
        | some _, some answer => deliverRead y answer s
        | _, _ => s) (fun y u hu => by split <;> simp [hu]) hu
  split
  · exact (endsWf_next _).mpr herrs
  · split
    · exact (endsWf_next _).mpr herrs
    · rw [endsWf_next]
      refine hdeliver _ _ ?_
      split
      · exact herrs
      · exact serveReads_wf _ herrs

theorem execPatrolRead_wf (mc : Fin 8) (errs : List CwHit) (hs : s.MemOk) : EndsWf (execPatrolRead mc errs s) := by
  delta execPatrolRead
  extract_lets mc' p dpa t1 clean t2 bad t3 t4
  split
  · simpa using hs
  · have h2 : t2.MemOk := awaitRepair_wf _ (addErrs_wf _ _ hs)
    have h3 : t3.MemOk := checkRow_wf _ _ (State.MemOk.of_hbm h2 (openPage_hbm ..))
    have h4 : t4.MemOk := by
      simp only [t4]
      split
      · exact h3
      · exact poisonRow_wf _ h3
    exact (endsWf_next _).mpr (State.MemOk.of_hbm h4 (modMc_hbm ..))

theorem execRefresh_wf (mc : Fin 8) (bank : Fin 1024) (stackC : Nat) (hs : s.MemOk) :
    EndsWf (execRefresh mc bank stackC s) := by simp [execRefresh, hs]

theorem execPprDone_wf (mc : Fin 8) (held : Bool) (hs : s.MemOk) : EndsWf (execPprDone mc held s) := by
  unfold execPprDone
  dsimp only
  repeat' split
  all_goals simp [hs]

theorem execStackFail_wf (mc : Fin 8) (hs : s.MemOk) : EndsWf (execStackFail mc s) := by simp [execStackFail, hs]

/-! ## Update layers -/

@[simp] theorem skipLayer_wf (c step : Nat) (b : List Byte) (hs : s.MemOk) : (skipLayer c step b s).MemOk := by
  fun_cases skipLayer <;> grind -ring -linarith [updError_wf, skipStep_wf, completeLayer_wf]

@[simp] theorem setTensor_hbm (c i : Nat) (t : UpdTensor) : (setTensor c i t s).hbm = s.hbm := rfl

@[simp] theorem finishTensor_wf (c i step : Nat) (t : UpdTensor) (list : Nat) (hs : s.MemOk) :
    (finishTensor c i step t list s).2.MemOk := by
  fun_cases finishTensor <;> grind -ring -linarith [scrWrite_wf, reportTensor_hbm, setTensor_hbm]

@[simp] theorem finishTensors_wf (c step list : Nat) (a : List (UpdTensor × Nat)) (hs : s.MemOk) :
    (finishTensors c step list a s).2.MemOk := by
  induction a generalizing s with
  | nil => exact hs
  | cons x rest ih =>
    unfold finishTensors
    have htensor := finishTensor_wf c x.2 step x.1 list hs
    split
    · exact ih hs
    · split
      · next h => exact htensor.of_eq h
      · next h => exact ih (htensor.of_eq h)

@[simp] theorem settleApply_wf (c : Nat) (hs : s.MemOk) : (settleApply c s).MemOk := by
  fun_cases settleApply <;> grind -ring -linarith [modCtx_hbm, ctxFault_wf, updError_wf, finishTensors_wf]

@[simp] theorem settleNorms_wf (c : Nat) (hs : s.MemOk) : (settleNorms c s).MemOk := by
  unfold settleNorms
  split <;> simp [hs]

@[simp] theorem openUpdate_wf (c : Nat) (r : Record) (hs : s.MemOk) : (openUpdate c r s).MemOk := by
  fun_cases openUpdate <;> grind -ring -linarith [modCtx_hbm, loadDescs_wf, refuseUpdate_wf, updError_wf, ucbRefused_wf, openUcb_wf,
      skipLayer_wf, settleNorms_wf]

@[simp] theorem doneGroup_hbm (c i : Nat) (t : UpdTensor) (g : UpdGroup) : (doneGroup c i t g s).hbm = s.hbm := rfl

@[simp] theorem applyGroup_wf (c mc i e j step : Nat) (ls : Int) (t : UpdTensor) (hs : s.MemOk) :
    (applyGroup c mc i e j step ls t s).MemOk := by
  fun_cases applyGroup <;> grind -ring -linarith [pageFault_wf, lossEvent_hbm, writeAll_wf, imageRows_wf, keepImage_hbm, readWork_wf,
      settleApply_wf, doneGroup_hbm]

@[simp] theorem normGroup_wf (c i e j : Nat) (ls : Int) (t : UpdTensor) (hs : s.MemOk) : (normGroup c i e j ls t s).MemOk := by
  fun_cases normGroup <;> grind -ring -linarith [updError_wf, readGrads_wf, setTensor_hbm, settleNorms_wf]

theorem execScrStall_wf (mc : Fin 8) (hs : s.MemOk) : EndsWf (execScrStall mc s) := by
  unfold execScrStall
  split <;> simp [hs]

theorem execScribeGroupDone_wf (mc : Fin 8) (ctx : Fin 256) (desc group : Nat) (hs : s.MemOk) :
    EndsWf (execScribeGroupDone mc ctx desc group s) := by
  unfold execScribeGroupDone
  dsimp only
  have hlist := fun c d e => listedGroup_wf c d e hs
  repeat' split
  all_goals grind [endsWf_next, updError_wf, settleApply_wf, doneGroup_hbm, lossEvent_hbm, groupOwner_wf, pageFault_wf, modScribe_hbm,
      normGroup_wf, applyGroup_wf]

theorem execUpdateCommit_wf (ctx : Fin 256) (hs : s.MemOk) : EndsWf (execUpdateCommit ctx s) := by
  unfold execUpdateCommit
  dsimp only
  have hscr := fun c va b => scrWrite_wf c va b hs
  repeat' split
  all_goals grind [endsWf_next, updError_wf, completeLayer_wf, bump_hbm]

/-! ## Register reads -/

@[simp] theorem readReg_hbm (fn off inc : Nat) : (readReg fn off inc s).hbm = s.hbm := by
  unfold readReg
  repeat' split
  all_goals simp

/-! ## BAR2 -/

@[simp] theorem vfWindow_wf (fn off : Nat) (write : Bool) (hs : s.MemOk) : (vfWindow fn off write s).2.MemOk := by
  fun_cases vfWindow <;> grind -ring -linarith [translate_wf]

@[simp] theorem bar2Window_wf (fn off n : Nat) (write : Bool) (hs : s.MemOk) :
    (bar2Window fn off n write s).2.MemOk := by simp [bar2Window, hs]

@[simp] theorem bar2Fault_hbm (fn off : Nat) (write : Bool) : (bar2Fault fn off write s).hbm = s.hbm := by simp [bar2Fault]

@[simp] theorem bar2ReadPiece_wf (fn off n : Nat) (hs : s.MemOk) : (bar2ReadPiece fn off n s).MemOk := by
  fun_cases bar2ReadPiece <;> grind -ring -linarith [emit_hbm, memRead_wf, bar2Window_wf, bar2Fault_hbm]

@[simp] theorem wakeWatches_hbm (dpa n : Nat) : (wakeWatches dpa n s).hbm = s.hbm := by
  fun_cases wakeWatches
  grind -ring -linarith [modCtx_hbm, forEach_hbm, forEach_wf]

@[simp] theorem bar2WritePiece_wf (fn off : Nat) (data : List Byte) (hs : s.MemOk) : (bar2WritePiece fn off data s).MemOk := by
  fun_cases bar2WritePiece <;> grind -ring -linarith [memWrite_wf, bar2Window_wf, bar2Fault_hbm, wakeWatches_hbm]

theorem execBar2Read_wf (fn : Fin 16) (off : BitVec 36) (len : Nat) (hs : s.MemOk) : EndsWf (execBar2Read fn off len s) := by
  unfold execBar2Read
  split
  · simp
  · rw [endsWf_next]
    refine forEach_wf _ (fun p u hu => ?_) hs
    simp [hu]

@[simp] theorem bar2Writes_wf (fn : Nat) (a : List (Nat × Nat)) (a2 : List Byte) (hs : s.MemOk) : (bar2Writes fn a a2 s).MemOk := by
  induction a generalizing a2 s with
  | nil => exact hs
  | cons p ps ih =>
    unfold bar2Writes
    refine ih _ ?_
    split
    · exact bar2WritePiece_wf _ _ _ hs
    · exact hs

theorem execBar2Write_wf (fn : Fin 16) (off : BitVec 36) (data : List Byte) (hs : s.MemOk) :
    EndsWf (execBar2Write fn off data s) := by simp [execBar2Write, hs]

/-! ## Register writes -/

theorem outState_wf {o : Host.Outcome State Fault Refusal} (ho : EndsWf o) (hs : s.MemOk) : (outState s o).MemOk := by
  cases o with
  | next t => exact ho t rfl
  | _ => exact hs

theorem onBit_wf (b : Bool) {f : State → Host.Outcome State Fault Refusal} (hf : ∀ u, u.MemOk → EndsWf (f u)) (hs : s.MemOk) :
    (onBit b f s).MemOk := by
  unfold onBit
  split
  · exact outState_wf (hf s hs) hs
  · exact hs

@[simp] theorem writeEvent_hbm (p : Page) (j v set : Nat) : (writeEvent p j v set s).hbm = s.hbm := by simp [writeEvent]

@[simp] theorem writeEventEn_hbm (p : Page) (j v : Nat) : (writeEventEn p j v s).hbm = s.hbm := by simp [writeEventEn]

@[simp] theorem writeIrq_hbm (v : Nat) : (writeIrq v s).hbm = s.hbm := by simp [writeIrq]

@[simp] theorem writeVecControl_hbm (fn vec v : Nat) : (writeVecControl fn vec v s).hbm = s.hbm := by simp [writeVecControl]

@[simp] theorem writePwr_hbm (v : Nat) : (writePwr v s).hbm = s.hbm := by
  unfold writePwr
  split <;> simp

@[simp] theorem writeWindow_hbm (a v : Nat) : (writeWindow a v s).hbm = s.hbm := by
  have hset (p : Prop) [Decidable p] (b w : Nat) : (if p then setR b w s else s).hbm = s.hbm := by
    split
    · exact setR_hbm ..
    · rfl
  have hheld (p : Prop) [Decidable p] (b w : Nat) : (if p then setR b w s else countLocked s).hbm = s.hbm := by
    split
    · exact setR_hbm ..
    · exact countLocked_hbm ..
  have hdef : writeWindow = writeWindow := rfl
  conv at hdef => rhs; delta writeWindow
  have e := congrFun (congrFun (congrFun hdef a) v) s
  beta_reduce at e
  extract_lets vf off table held o at e
  have htable (fn o : Nat) : (table fn o).hbm = s.hbm := by
    have et : table fn o = if o % 16 = 12 then writeVecControl fn (o / 16) v s
      else setR (if fn = 0 then 0x20_0000 + o else a) (if o % 16 = 0 then v / 4 * 4 else v) s := rfl
    rw [et]
    split
    · exact writeVecControl_hbm ..
    · exact setR_hbm ..
  clear_value table
  rw [e]
  split
  · split
    · exact htable ..
    · rfl
  · split
    · exact htable ..
    · split
      · split
        · exact countLocked_hbm ..
        · split
          · exact setR_hbm ..
          · exact hset ..
      · split
        · exact hheld ..
        · split
          · exact hset ..
          · rfl

@[simp] theorem writeBootCmd_wf (v : Nat) (hs : s.MemOk) :
    (writeBootCmd v s).MemOk := onBit_wf _ (fun _ => execImgGo_wf) (onBit_wf _ (fun _ => execSelfMap_wf) (onBit_wf _ (fun _ => execMapGo_wf)
    (onBit_wf _ (fun _ => execDisarm_wf) (onBit_wf _ (fun _ => execArm_wf) hs))))

@[simp] theorem writeKeyCmd_wf (v : Nat) (hs : s.MemOk) : (writeKeyCmd v s).MemOk :=
  onBit_wf _ (fun _ => execKeyClear_wf _) (onBit_wf _ (fun _ => execKeyLoad_wf _) hs)

@[simp] theorem writeKeyDis_hbm (v : Nat) : (writeKeyDis v s).hbm = s.hbm := by
  fun_cases writeKeyDis
  grind -ring -linarith [setR_hbm, forEach_hbm, forEach_wf, dropImages_hbm]

@[simp] theorem writePortCtrl_wf (p v : Nat) (hs : s.MemOk) :
    (writePortCtrl p v s).MemOk := onBit_wf _ (fun _ => execPortDownCmd_wf _) (onBit_wf _ (fun _ => execPortRetrainCmd_wf _) (outState_wf
      (execPortEnable_wf _ _ hs) hs))

@[simp] theorem writeCtxCtrl_wf (fn c v : Nat) (hs : s.MemOk) : (writeCtxCtrl fn c v s).MemOk := by
  refine onBit_wf _ (fun _ => execEvict_wf _ _) (onBit_wf _ (fun _ => execRelease_wf _ _) (onBit_wf _ (fun _ => execKill_wf _ _) ?_))
  split
  · exact outState_wf (execCtxEnable_wf _ _ hs) hs
  · simpa using hs

@[simp] theorem storeReg_hbm (a v : Nat) (r : RegInfo) : (storeReg a v r s).hbm = s.hbm := by simp [storeReg]

@[simp] theorem writeXing_hbm (v : Nat) : (writeXing v s).hbm = s.hbm := rfl

@[simp] theorem writePage_wf (fn : Nat) (p : Page) (j off v : Nat) (hs : s.MemOk) : (writePage fn p j off v s).MemOk := by
  have hstore (q : Prop) [Decidable q] (a : Nat) (r : RegInfo) : (if q then storeReg a v r s else s).MemOk := by
    split
    · exact State.MemOk.of_hbm hs (storeReg_hbm ..)
    · exact hs
  delta writePage
  extract_lets a
  split
  · exact hs
  · split
    · exact State.MemOk.of_hbm hs (writeEvent_hbm ..)
    · split
      · exact State.MemOk.of_hbm hs (writeEventEn_hbm ..)
      · split
        · exact hs
        · next r hr =>
          split
          · exact State.MemOk.of_hbm hs (countLocked_hbm ..)
          · split
            · exact hs
            · split
              · exact writeBootCmd_wf _ hs
              · exact State.MemOk.of_hbm hs (writeKeyDis_hbm ..)
              · exact writeKeyCmd_wf _ hs
              · exact onBit_wf _ (fun _ => execAttGo_wf) hs
              · exact State.MemOk.of_hbm hs (writeIrq_hbm ..)
              · exact State.MemOk.of_hbm hs (writeXing_hbm ..)
              · exact State.MemOk.of_hbm hs (writePwr_hbm ..)
              · exact onBit_wf _ (fun _ => execSptGo_wf) hs
              · exact onBit_wf _ (fun _ => execPtInv_wf _) hs
              · exact writePortCtrl_wf _ _ hs
              · exact writeCtxCtrl_wf _ _ _ hs
              · exact outState_wf (execHeadVaWrite_wf _ _ _ hs) hs
              · exact hstore ..
              · exact hstore ..
              · exact State.MemOk.of_hbm hs (storeReg_hbm ..)

@[simp] theorem writeReg_wf (fn off v : Nat) (hs : s.MemOk) : (writeReg fn off v s).MemOk := by
  unfold writeReg
  repeat' split
  all_goals simp [hs]

theorem execRegisterWrite_wf (fn : Fin 16) (off : BitVec 28) (val : Word32) (hs : s.MemOk) :
    EndsWf (execRegisterWrite fn off val s) := by simp [execRegisterWrite, hs]

theorem execNarrowAccess_wf (fn : Fin 16) (off : BitVec 28) (size : Nat) (write : Bool) (hs : s.MemOk) :
    EndsWf (execNarrowAccess fn off size write s) := by simp [execNarrowAccess, hs]

theorem execLowWordRead_wf (fn : Fin 16) (off : BitVec 28) (hs : s.MemOk) :
    EndsWf (execLowWordRead fn off s) := by simp [execLowWordRead, hs]

theorem execCounterRead_wf (fn : Fin 16) (off : BitVec 28) (inc : Word32) (hs : s.MemOk) :
    EndsWf (execCounterRead fn off inc s) := by simp [execCounterRead, hs]

theorem execEventClear_wf (off : BitVec 28) (val set : Word32) (hs : s.MemOk) : EndsWf (execEventClear off val set s) := by
  unfold execEventClear
  dsimp only
  repeat' split
  all_goals simp [hs]

theorem execEventEnWrite_wf (off : BitVec 28) (val : Word32) (hs : s.MemOk) : EndsWf (execEventEnWrite off val s) := by
  unfold execEventEnWrite
  split <;> simp [hs]

theorem execEvtEnSet_wf (vec : BitVec 6) (hs : s.MemOk) : EndsWf (execEvtEnSet vec s) := by simp [execEvtEnSet, hs]

theorem execMsixUnmask_wf (fn : Fin 16) (how : Unmask) (hs : s.MemOk) : EndsWf (execMsixUnmask fn how s) := by
  unfold execMsixUnmask
  split
  · simp [hs]
  · split <;> simp [forEach_hbm, hs]

theorem execPwrCfgWrite_wf (val : Word32) (hs : s.MemOk) : EndsWf (execPwrCfgWrite val s) := by simp [execPwrCfgWrite, hs]

/-! ## Wear and replacement -/

@[simp] theorem noteReplay_hbm (c cause : Nat) : (noteReplay c cause s).hbm = s.hbm := by simp [noteReplay]

@[simp] theorem shrinkPlot_hbm (c : Nat) : (shrinkPlot c s).hbm = s.hbm := by
  fun_cases shrinkPlot
  grind -ring -linarith [modCtx_hbm, forEach_hbm, forEach_wf, dropGrove_hbm]

@[simp] theorem restartLayer_wf (c : Nat) (r : Record) (stuck : Nat → Nat → Bool) (hs : s.MemOk) : (restartLayer c r stuck s).MemOk := by
  fun_cases restartLayer <;> grind -ring -linarith [takeFree_hbm, setCtx_hbm, forEach_hbm, forEach_wf, spareGrove_wf, noteReplay_hbm,
      shrinkPlot_hbm]

theorem execReplay_wf (ctx : Fin 256) (stuck : List (Fin 1088 × Fin 4608)) (hs : s.MemOk) : EndsWf (execReplay ctx stuck s) := by
  unfold execReplay
  dsimp only
  repeat' split
  all_goals simp [hs]

theorem execMarginLow_wf (nib : Fin 1088) (hs : s.MemOk) : EndsWf (execMarginLow nib s) := by simp [execMarginLow, hs]

theorem execNibTransplant_wf (nib : Fin 1024) (hs : s.MemOk) : EndsWf (execNibTransplant nib s) := by
  unfold execNibTransplant
  dsimp only
  split
  · rw [endsWf_next]
    exact transplantNib_wf _ (forEach_wf _ (fun _ _ hu => retireRows_wf _ _ hu) hs)
  · simp [hs]

@[simp] theorem copyNib_hbm (old new : Nat) : (copyNib old new s).hbm = s.hbm := rfl

theorem execGroveReplace_wf (old new : Fin 64) (hs : s.MemOk) : EndsWf (execGroveReplace old new s) := by
  have hcopy (xs : List Nat) (u : State) : (forEach xs (fun i s => copyNib (16 * old.val + i) (16 * new.val + i) s) u).hbm = u.hbm :=
    forEach_hbm _ fun _ _ => copyNib_hbm ..
  delta execGroveReplace
  extract_lets x y t1 t2
  split
  · exact (endsWf_next s).mpr hs
  · next c hc =>
    extract_lets k waits t3 t4 t5
    split
    · exact (endsWf_next s).mpr hs
    · split
      · exact (endsWf_next _).mpr (State.MemOk.of_hbm hs (stopSweep_hbm ..))
      · split
        · exact (endsWf_next _).mpr (State.MemOk.of_hbm hs (wakeGrove_hbm ..))
        · have h1 : t1.MemOk := State.MemOk.of_hbm hs (scrubGrove_hbm ..)
          have h2 : t2.MemOk := State.MemOk.of_hbm h1 (hcopy _ _)
          have h3 : t3.MemOk := State.MemOk.of_hbm h2 (countingSteps_hbm (modGrove_hbm ..))
          have h4 : t4.MemOk := State.MemOk.of_hbm h3 (dropGrove_hbm ..)
          have h5 : t5.MemOk := State.MemOk.of_hbm h4 (modCtx_hbm ..)
          exact (endsWf_next _).mpr (State.MemOk.of_hbm h5 (loseCycles_hbm ..))

theorem execSweep_wf (hs : s.MemOk) : EndsWf (execSweep s) := by
  unfold execSweep
  split <;> simp [hs]

@[simp] theorem spareRowBad_hbm (p bank r : Nat) : (spareRowBad p bank r s).hbm = s.hbm := rfl

@[simp] theorem sweepFound_wf (g : Nat) (find : SweepFind) (hs : s.MemOk) : (sweepFound g find s).MemOk := by
  fun_cases sweepFound
  grind -ring -linarith [modPNib_hbm, modGrove_hbm, forEach_hbm, forEach_wf, raise_hbm, nibRetiring_wf, spareGrove_wf, spareRowBad_hbm]

theorem execSweepEnd_wf (g : Fin 64) (find : SweepFind) (hs : s.MemOk) : EndsWf (execSweepEnd g find s) := by simp [execSweepEnd, hs]

/-! ## Layers -/

@[simp] theorem reportBadRows_hbm (c nib : Nat) : (reportBadRows c nib s).hbm = s.hbm := by
  fun_cases reportBadRows
  grind -ring -linarith [modNib_hbm, forEach_hbm, forEach_wf, noteIwDetect_hbm]

@[simp] theorem settlePlot_wf (c : Nat) (hs : s.MemOk) : (settlePlot c s).MemOk := by
  fun_cases settlePlot <;> grind -ring -linarith [forEach_hbm, forEach_wf, drainPlot_wf, staleRow_wf, gatherPass_wf]

@[simp] theorem leaveWith_wf (c : Nat) (sv : Saved) (hs : s.MemOk) : (leaveWith c sv s).MemOk := by
  fun_cases leaveWith <;> grind -ring -linarith [bump_hbm, modCtx_hbm, modNib_hbm, forEach_hbm, forEach_wf, moveBytes_hbm, freePlot_hbm,
      loseAttempt_hbm, blurHeader_wf, finishEvict_wf]

@[simp] theorem leavePlot_wf (c : Nat) (detect : Bool) (hs : s.MemOk) : (leavePlot c detect s).MemOk := by simp [leavePlot, hs]

@[simp] theorem leaveUnbrought_wf (c : Nat) (v : Saved) (hs : s.MemOk) : (leaveUnbrought c v s).MemOk := by simp [leaveUnbrought, hs]

theorem execPlotSaveDone_wf (c : Fin 256) (detect : Bool) (hs : s.MemOk) : EndsWf (execPlotSaveDone c detect s) := by
  have hsave (base : Nat) (xs : List (Nat × Nat)) (u : State) (hu : u.MemOk) : (saveAll c (saveNib c base) xs u).2.MemOk :=
    saveAll_wf c.val (f := saveNib c base) (fun r n u hu => saveNib_wf c base r n hu) xs hu
  delta execPlotSaveDone
  extract_lets c' t1 x mine found t2 t3
  have h1 : t1.MemOk := settlePlot_wf _ hs
  have h2 : t2.MemOk := by
    simp only [t2]
    split
    · exact State.MemOk.of_hbm h1 (modCtx_hbm ..)
    · exact h1
  have h3 : t3.MemOk := State.MemOk.of_hbm h2 (forEach_hbm _ fun _ _ => reportBadRows_hbm ..)
  split
  · exact (endsWf_next s).mpr hs
  · split
    · exact (endsWf_next _).mpr (leaveUnbrought_wf _ _ hs)
    · split
      · exact (endsWf_next _).mpr h1
      · split
        · next e u h =>
          have hu : u.MemOk := (hsave _ _ _ h3).of_eq h
          extract_lets u2
          have hu2 : u2.MemOk := by
            simp only [u2]
            split
            · exact State.MemOk.of_hbm hu (ptFault_hbm ..)
            · exact hu
          rw [endsWf_next]
          split
          · exact ctxFault_wf _ _ hu2
          · exact ctxFaultQuiet_wf _ _ _ hu2
        · next u h => exact (endsWf_next _).mpr (leavePlot_wf _ _ ((hsave _ _ _ h3).of_eq h))

theorem restoreRow_wf (c va nib r : Nat) {acc : Option VErr × State} (h : acc.2.MemOk) : (restoreRow c va nib r acc).2.MemOk := by
  fun_cases restoreRow <;> grind [vRead_wf, modNib_hbm]

@[simp] theorem restorePlot_wf (c : Nat) (v : Saved) (hs : s.MemOk) : (restorePlot c v s).2.MemOk := by
  have hrows (va nib : Nat) (xs : List Nat) (q : Option VErr × State) (hq : q.2.MemOk) :
      (xs.foldl (fun acc r => restoreRow c va nib r acc) q).2.MemOk :=
    foldl_wf _ (fun _ _ h => restoreRow_wf _ _ _ _ h) hq
  delta restorePlot
  extract_lets b
  refine foldl_wf _ (fun q x hq => ?_) hs
  conv => arg 1; arg 1; zeta
  exact hrows _ _ _ (_, _) (State.MemOk.of_hbm hq ((moveBytes_hbm ..).trans (modNib_hbm ..)))

theorem walkSaveArea_wf (c : Nat) (hs : s.MemOk) : (walkSaveArea c s).2.MemOk := by
  fun_cases walkSaveArea <;> grind [modCtx_hbm, probeSave_wf, ptFault_hbm, ctxFault_wf]

@[simp] theorem startError_wf (c : Nat) (e : VErr) (hs : s.MemOk) : (startError c e s).MemOk := by simp [startError, hs]

@[simp] theorem loadImage_wf (c : Nat) (r : Record) (hs : s.MemOk) : (loadImage c r s).2.MemOk := by
  fun_cases loadImage <;> grind -ring -linarith [vRead_wf, moveBytes_hbm, startError_wf]

theorem litStep_wf (c reason : Nat) (r : Record) (hs : s.MemOk) : (litStep c reason r s).2.MemOk := litFault_wf _ _ _ _ hs

@[simp] theorem setLit_hbm (c : Nat) (l : LitFrame) : (setLit c l s).hbm = s.hbm := rfl

theorem openPush_wf (c : Nat) (r : Record) (l : LitFrame) (hs : s.MemOk) : (openPush c r l s).2.MemOk := by
  fun_cases openPush <;> grind [litStep_wf, writeScb_wf, litError_wf, setLit_hbm]

theorem openPop_wf (c : Nat) (r : Record) (l : LitFrame) (hs : s.MemOk) : (openPop c r l s).2.MemOk := by
  fun_cases openPop <;> grind [litStep_wf, writeScb_wf, litError_wf, setLit_hbm, vRead_wf, noteLitter_hbm]

theorem openLitter_wf (c : Nat) (r : Record) (hs : s.MemOk) : (openLitter c r s).2.MemOk := by
  fun_cases openLitter <;> grind [litStep_wf, litError_wf, setLit_hbm, vRead_wf, openPush_wf, openPop_wf]

@[simp] theorem loadThin_wf (c : Nat) (r : Record) (data : List Byte) (hs : s.MemOk) :
    (loadThin c r data s).2.MemOk := by simp [loadThin, hs]

@[simp] theorem startStrands_wf (c : Nat) (hs : s.MemOk) : (startStrands c s).MemOk := by
  fun_cases startStrands
  grind -ring -linarith [forEach_hbm, forEach_wf, goStrand_wf]

theorem startCircle_wf (c : Nat) (r : Record) (hs : s.MemOk) : (startCircle c r s).2.MemOk := by
  fun_cases startCircle <;> grind [ligInvalid_wf, openStep_wf, modCtx_hbm]

@[simp] theorem startAttempt_wf (c : Nat) (r : Record) (hs : s.MemOk) : (startAttempt c r s).MemOk := by
  unfold startAttempt
  have himage := loadImage_wf c r hs
  split
  · next h => exact himage.of_eq h
  · next h =>
    have hlitter := openLitter_wf c r (himage.of_eq h)
    split
    · next h => exact hlitter.of_eq h
    · next h =>
      have hthin (data : List Byte) := loadThin_wf c r data (hlitter.of_eq h)
      split
      · next h => exact (hthin _).of_eq h
      · next h =>
        have hcircle := startCircle_wf c r ((hthin _).of_eq h)
        split
        · next h => exact hcircle.of_eq h
        · next h =>
          refine startStrands_wf _ (State.MemOk.of_hbm ?_ (modCtx_hbm ..))
          exact forEach_wf _ (fun _ _ hu => by simpa using hu) (hcircle.of_eq h)

@[simp] theorem spareBrought_wf (c : Nat) (hs : s.MemOk) : (spareBrought c s).MemOk := by
  fun_cases spareBrought
  grind -ring -linarith [takeFree_hbm, forEach_hbm, forEach_wf, spareGrove_wf]

@[simp] theorem scribesBack_wf (c : Nat) (hs : s.MemOk) : (scribesBack c s).MemOk := by simp [scribesBack, hs]

theorem restartSaved_wf (c : Nat) (r : Record) (cause : Nat) (hs : s.MemOk) : (restartSaved c r cause s).2.MemOk := by
  fun_cases restartSaved <;> grind [barReplay_wf, ctxFault_wf, raise_hbm, bump_hbm, spareBrought_wf, unwait_hbm, modCtx_hbm,
      scribesBack_wf, noteReplay_hbm]

@[simp] theorem endWait_wf (c : Nat) (r : Record) (hs : s.MemOk) : (endWait c r s).MemOk := by
  unfold endWait
  split <;> simp [hs]

@[simp] theorem beginLayer_wf (c : Nat) (r : Record) (v : Option Saved) (hs : s.MemOk) : (beginLayer c r v s).MemOk := by
  fun_cases beginLayer <;> grind -ring -linarith [takeFree_hbm, modCtx_hbm, modNib_hbm, forEach_hbm, forEach_wf, reserveWays_wf,
      openUpdate_wf, startAttempt_wf, scribesBack_wf, endWait_wf]

theorem bringPlot_wf (c : Nat) (r : Record) (hs : s.MemOk) : (bringPlot c r s).1.2.MemOk := by
  fun_cases bringPlot <;> grind [restartSaved_wf, modCtx_hbm, restorePlot_wf, ctxFault_wf, ptFault_hbm, rollback_wf]

theorem execLayerStart_wf (ctx : Fin 256) (hs : s.MemOk) : EndsWf (execLayerStart ctx s) := by
  unfold execLayerStart
  dsimp only
  split
  · exact (endsWf_next s).mpr hs
  · next r hr =>
    split
    · exact (endsWf_next s).mpr hs
    · have hwalk := walkSaveArea_wf ctx.val hs
      split
      · next h => exact (endsWf_next _).mpr (hwalk.of_eq h)
      · next h =>
        have hplot := bringPlot_wf ctx.val r (hwalk.of_eq h)
        split
        · next h => exact (endsWf_next _).mpr (by rw [h] at hplot; exact hplot)
        · next h => exact (endsWf_next _).mpr (beginLayer_wf _ _ _ (by rw [h] at hplot; exact hplot))

@[simp] theorem notePrediction_hbm (c m : Nat) (rerun : Bool) : (notePrediction c m rerun s).hbm = s.hbm := by simp [notePrediction]

@[simp] theorem rerunDense_wf (c : Nat) (hs : s.MemOk) : (rerunDense c s).MemOk := by simp [rerunDense, hs]

@[simp] theorem closeLayer_wf (c : Nat) (r : Record) (hs : s.MemOk) : (closeLayer c r s).MemOk := by simp [closeLayer, hs]

theorem execLayerEnd_wf (ctx : Fin 256) (hs : s.MemOk) : EndsWf (execLayerEnd ctx s) := by
  unfold execLayerEnd
  dsimp only
  repeat' split
  all_goals simp [hs]

/-! ## The management bus -/

theorem endpoint_wf (code : Byte) (data : List Byte) (hs : s.MemOk) : EndsWf (endpoint code data s) := by simp [endpoint, hs]

theorem execFruRead_wf (off : Byte) (hs : s.MemOk) : EndsWf (execFruRead off s) := by simp [execFruRead, hs]

theorem execIdent_wf (hs : s.MemOk) : EndsWf (execIdent s) := by
  fun_cases execIdent
  grind -ring -linarith [endpoint_wf]

theorem execState_wf (hs : s.MemOk) : EndsWf (execState s) := by
  fun_cases execState
  grind -ring -linarith [endpoint_wf]

theorem execInput_wf (hs : s.MemOk) : EndsWf (execInput s) := by
  fun_cases execInput
  grind -ring -linarith [endpoint_wf]

theorem execTemp_wf (hs : s.MemOk) : EndsWf (execTemp s) := by
  fun_cases execTemp
  grind -ring -linarith [endpoint_wf]

theorem execRails_wf (hs : s.MemOk) : EndsWf (execRails s) := by
  fun_cases execRails
  grind -ring -linarith [endpoint_wf]

theorem execMevent_wf (hs : s.MemOk) : EndsWf (execMevent s) := by
  fun_cases execMevent
  grind -ring -linarith [endpoint_wf]

theorem execCables_wf (hs : s.MemOk) : EndsWf (execCables s) := by
  fun_cases execCables
  grind -ring -linarith [endpoint_wf]

theorem execMeventClr_wf (val : MgmtWrite) (hs : s.MemOk) : EndsWf (execMeventClr val s) := by simp [execMeventClr, hs]

/-! ## Sparse MMAs -/

@[simp] theorem countTile_hbm (nib : Nat) (i : Mma) (h : SparseHead) (compacted : Bool) (tile : List (List (Nat × Nat))) :
    (countTile nib i h compacted tile s).hbm = s.hbm := rfl

@[simp] theorem sparseIllegal_wf (nib pc reason : Nat) (hs : s.MemOk) : (sparseIllegal nib pc reason s).MemOk := by simp [sparseIllegal, hs]

@[simp] theorem runTile_wf (nib : Nat) (i : Mma) (region : Nat) (head : Row) (hs : s.MemOk) : (runTile nib i region head s).MemOk := by
  unfold runTile
  dsimp only
  repeat' split
  all_goals simp [hs]

@[simp] theorem issueSparse_wf (nib : Nat) (e : MxEntry) (region : Nat) (hs : s.MemOk) : (issueSparse nib e region s).MemOk := by
  unfold issueSparse
  dsimp only
  repeat' split
  all_goals simp [hs]

theorem execSparseMmaIssue_wf (nib : Fin 1024) (ups : List Upset) (hs : s.MemOk) : EndsWf (execSparseMmaIssue nib ups s) := by
  refine mxRow_wf (fun nib e u hu => ?_) nib ups hs
  split <;> simp [hu]

/-! ## Commands -/

theorem exec_wf (c : Instr) (hs : s.MemOk) : EndsWf (exec c s) := by
  cases c with
  | registerWrite fn off val => exact execRegisterWrite_wf _ _ _ hs
  | narrowAccess fn off size write => exact execNarrowAccess_wf _ _ _ _ hs
  | lowWordRead fn off => exact execLowWordRead_wf _ _ hs
  | counterRead fn off inc => exact execCounterRead_wf _ _ _ hs
  | eventClear off val set => exact execEventClear_wf _ _ _ hs
  | eventEnWrite off val => exact execEventEnWrite_wf _ _ hs
  | evtEnSet vec => exact execEvtEnSet_wf _ hs
  | msixUnmask fn how => exact execMsixUnmask_wf _ _ hs
  | arm => exact execArm_wf hs
  | verifyComplete => exact execVerifyComplete_wf hs
  | disarm => exact execDisarm_wf hs
  | disarmDone => exact execDisarmDone_wf hs
  | mapGo => exact execMapGo_wf hs
  | mapApplied failed => exact execMapApplied_wf _ hs
  | selfMap => exact execSelfMap_wf hs
  | selfMapDone entries failed => exact execSelfMapDone_wf _ _ hs
  | imgGo => exact execImgGo_wf hs
  | imageVerified => exact execImageVerified_wf hs
  | keyLoad slot => exact execKeyLoad_wf _ hs
  | keyParsed => exact execKeyParsed_wf hs
  | keyClear slot => exact execKeyClear_wf _ hs
  | attGo => exact execAttGo_wf hs
  | attDone => exact execAttDone_wf hs
  | sptGo => exact execSptGo_wf hs
  | spatterDone => exact execSpatterDone_wf hs
  | ptInv ctx => exact execPtInv_wf _ hs
  | invDone => exact execInvDone_wf hs
  | ctxEnable fn ctx => exact execCtxEnable_wf _ _ hs
  | kill fn ctx => exact execKill_wf _ _ hs
  | killDone ctx => exact execKillDone_wf _ hs
  | release fn ctx => exact execRelease_wf _ _ hs
  | evict fn ctx => exact execEvict_wf _ _ hs
  | headVaWrite fn ctx hi => exact execHeadVaWrite_wf _ _ _ hs
  | watchWake ctx => exact execWatchWake_wf _ hs
  | pwrCfgWrite val => exact execPwrCfgWrite_wf _ hs
  | portEnable p en => exact execPortEnable_wf _ _ hs
  | portRetrainCmd p => exact execPortRetrainCmd_wf _ hs
  | portDownCmd p => exact execPortDownCmd_wf _ hs
  | bar2Read fn off len => exact execBar2Read_wf _ _ _ hs
  | bar2Write fn off data => exact execBar2Write_wf _ _ _ hs
  | fruRead off => exact execFruRead_wf _ hs
  | ident => exact execIdent_wf hs
  | state => exact execState_wf hs
  | input => exact execInput_wf hs
  | temp => exact execTemp_wf hs
  | rails => exact execRails_wf hs
  | mevent => exact execMevent_wf hs
  | cables => exact execCables_wf hs
  | meventClr val => exact execMeventClr_wf _ hs
  | powerOn => exact execPowerOn_wf hs
  | understoryRelease => exact execUnderstoryRelease_wf hs
  | modEnAssert => exact execModEnAssert_wf hs
  | pwrgdRelease => exact execPwrgdRelease_wf hs
  | modEnDeassert => exact execModEnDeassert_wf hs
  | inputPowerLoss => exact execInputPowerLoss_wf hs
  | perstDeassert => exact execPerstDeassert_wf hs
  | configReady => exact execConfigReady_wf hs
  | linkTrained rate width flit => exact execLinkTrained_wf _ _ _ hs
  | hostReset kind => exact execHostReset_wf _ hs
  | vfFlr vf => exact execVfFlr_wf _ hs
  | pwrBrakeAssert => exact execPwrBrakeAssert_wf hs
  | pwrBrakeRelease => exact execPwrBrakeRelease_wf hs
  | cblOverload k => exact execCblOverload_wf _ hs
  | railWarning rail mv => exact execRailWarning_wf _ _ hs
  | railRecover mv => exact execRailRecover_wf _ hs
  | dipRecoveryEnd below => exact execDipRecoveryEnd_wf _ hs
  | supplySuspect rail mv => exact execSupplySuspect_wf _ _ hs
  | supplyReset rail => exact execSupplyReset_wf _ hs
  | vaonReset => exact execVaonReset_wf hs
  | fabricUnlock pll => exact execFabricUnlock_wf _ hs
  | deviceStopped => exact execDeviceStopped_wf hs
  | pllLockTimeout g => exact execPllLockTimeout_wf _ hs
  | pllLockLoss g => exact execPllLockLoss_wf _ hs
  | understoryTick tick => exact execUnderstoryTick_wf _ hs
  | plotSaveDone ctx detect => exact execPlotSaveDone_wf _ _ hs
  | ctxEvict => exact execCtxEvict_wf hs
  | groveSleep g => exact execGroveSleep_wf _ hs
  | groveSleepDone g => exact execGroveSleepDone_wf _ hs
  | groveWakeDone g lock => exact execGroveWakeDone_wf _ _ hs
  | layerStart ctx => exact execLayerStart_wf _ hs
  | layerEnd ctx => exact execLayerEnd_wf _ hs
  | groveScrubDone g => exact execGroveScrubDone_wf _ hs
  | replay ctx stuck => exact execReplay_wf _ _ hs
  | marginLow nib => exact execMarginLow_wf _ hs
  | nibTransplant nib => exact execNibTransplant_wf _ hs
  | groveReplace old new => exact execGroveReplace_wf _ _ hs
  | sweep => exact execSweep_wf hs
  | sweepEnd g find => exact execSweepEnd_wf _ _ hs
  | aluAdd nib => exact execAluAdd_wf _ hs
  | aluSub nib => exact execAluSub_wf _ hs
  | aluAnd nib => exact execAluAnd_wf _ hs
  | aluOr nib => exact execAluOr_wf _ hs
  | aluXor nib => exact execAluXor_wf _ hs
  | aluSll nib => exact execAluSll_wf _ hs
  | aluSrl nib => exact execAluSrl_wf _ hs
  | aluSra nib => exact execAluSra_wf _ hs
  | aluMul nib => exact execAluMul_wf _ hs
  | aluSlt nib => exact execAluSlt_wf _ hs
  | aluSltu nib => exact execAluSltu_wf _ hs
  | aluFlt nib => exact execAluFlt_wf _ hs
  | aluFeq nib => exact execAluFeq_wf _ hs
  | aluFadd nib => exact execAluFadd_wf _ hs
  | aluFmul nib => exact execAluFmul_wf _ hs
  | addi nib => exact execAddi_wf _ hs
  | lui nib => exact execLui_wf _ hs
  | lw nib => exact execLw_wf _ hs
  | sw nib => exact execSw_wf _ hs
  | beq nib => exact execBeq_wf _ hs
  | bne nib => exact execBne_wf _ hs
  | blt nib => exact execBlt_wf _ hs
  | bge nib => exact execBge_wf _ hs
  | jal nib => exact execJal_wf _ hs
  | jalr nib => exact execJalr_wf _ hs
  | mxq nib => exact execMxq_wf _ hs
  | vxq nib => exact execVxq_wf _ hs
  | dma nib => exact execDma_wf _ hs
  | wsig nib => exact execWsig_wf _ hs
  | wsigDone nib => exact execWsigDone_wf _ hs
  | wtag nib => exact execWtag_wf _ hs
  | wtagDone nib => exact execWtagDone_wf _ hs
  | rsum nib => exact execRsum_wf _ hs
  | rsumDone nib => exact execRsumDone_wf _ hs
  | csrr nib => exact execCsrr_wf _ hs
  | csrw nib => exact execCsrw_wf _ hs
  | vwait nib => exact execVwait_wf _ hs
  | vwaitDone nib => exact execVwaitDone_wf _ hs
  | strandEnd nib => exact execStrandEnd_wf _ hs
  | issueStall nib => exact execIssueStall_wf _ hs
  | quillWait nib => exact execQuillWait_wf _ hs
  | vecStall nib => exact execVecStall_wf _ hs
  | dmaStall nib desc => exact execDmaStall_wf _ _ hs
  | scrStall mc => exact execScrStall_wf _ hs
  | mmaIssue nib ups => exact execMmaIssue_wf _ _ hs
  | gatherPass nib timedOut ups => exact execGatherPass_wf _ _ _ hs
  | sparseMmaIssue nib ups => exact execSparseMmaIssue_wf _ _ hs
  | readoutIssue nib => exact execReadoutIssue_wf _ hs
  | accclrIssue nib => exact execAccclrIssue_wf _ hs
  | vadd nib => exact execVadd_wf _ hs
  | vsub nib => exact execVsub_wf _ hs
  | vmul nib => exact execVmul_wf _ hs
  | vfma nib => exact execVfma_wf _ hs
  | vmax nib => exact execVmax_wf _ hs
  | vmin nib => exact execVmin_wf _ hs
  | vabs nib => exact execVabs_wf _ hs
  | vneg nib => exact execVneg_wf _ hs
  | vrcp nib => exact execVrcp_wf _ hs
  | vsqrt nib => exact execVsqrt_wf _ hs
  | vrsqrt nib => exact execVrsqrt_wf _ hs
  | vexp2 nib => exact execVexp2_wf _ hs
  | vlog2 nib => exact execVlog2_wf _ hs
  | vcmplt nib => exact execVcmplt_wf _ hs
  | vsel nib => exact execVsel_wf _ hs
  | vfn nib => exact execVfn_wf _ hs
  | vmov nib => exact execVmov_wf _ hs
  | vrng nib => exact execVrng_wf _ hs
  | vld nib ups => exact execVld_wf _ _ hs
  | vst nib ups => exact execVst_wf _ _ hs
  | vpop nib => exact execVpop_wf _ hs
  | vredr nib => exact execVredr_wf _ hs
  | vredc nib => exact execVredc_wf _ hs
  | vsum nib => exact execVsum_wf _ hs
  | vtload nib ups => exact execVtload_wf _ _ hs
  | descHbmRead nib desc => exact execDescHbmRead_wf _ _ hs
  | descHbmWrite nib desc ups => exact execDescHbmWrite_wf _ _ _ hs
  | descLocalCopy nib desc ups => exact execDescLocalCopy_wf _ _ _ hs
  | push nib desc ups => exact execPush_wf _ _ _ hs
  | pull nib desc => exact execPull_wf _ _ hs
  | ptWalk nib desc => exact execPtWalk_wf _ _ hs
  | dmaRowLand nib desc row => exact execDmaRowLand_wf _ _ _ hs
  | descriptorComplete nib desc => exact execDescriptorComplete_wf _ _ hs
  | remotePushArrive nib desc row => exact execRemotePushArrive_wf _ _ _ hs
  | pullServe nib desc row ups => exact execPullServe_wf _ _ _ _ hs
  | flitArrive flit crcOk wire => exact execFlitArrive_wf _ _ _ hs
  | seamErrorThreshold link wire => exact execSeamErrorThreshold_wf _ _ hs
  | seamSwitch link => exact execSeamSwitch_wf _ hs
  | mcRequest nib desc => exact execMcRequest_wf _ _ hs
  | bankBusyRetry nib desc => exact execBankBusyRetry_wf _ _ hs
  | mcRead mc tag aged errs => exact execMcRead_wf _ _ _ _ hs
  | patrolRead mc errs => exact execPatrolRead_wf _ _ hs
  | refresh mc bank stackC => exact execRefresh_wf _ _ _ hs
  | pprDone mc held => exact execPprDone_wf _ _ hs
  | stackFail mc => exact execStackFail_wf _ hs
  | scribeGroupDone mc ctx desc group => exact execScribeGroupDone_wf _ _ _ _ hs
  | updateCommit ctx => exact execUpdateCommit_wf _ hs
  | bucketAgreeing => exact execBucketAgreeing_wf hs
  | stepClose => exact execStepClose_wf hs
  | scale p => exact execScale_wf _ hs
  | agreed p => exact execAgreed_wf _ hs
  | partialPkt p => exact execPartialPkt_wf _ hs
  | param p => exact execParam_wf _ hs
  | close p => exact execClose_wf _ hs
  | verdict p => exact execVerdict_wf _ hs
  | abort p => exact execAbort_wf _ hs
  | stepTimeout => exact execStepTimeout_wf hs
  | signalDetect p => exact execSignalDetect_wf _ hs
  | trainingFrame p frames peer => exact execTrainingFrame_wf _ _ _ hs
  | negotiateTimeout p => exact execNegotiateTimeout_wf _ hs
  | equalizeCandidateEnd p rxErrs txErrs => exact execEqualizeCandidateEnd_wf _ _ _ hs
  | identityBlock p => exact execIdentityBlock_wf _ hs
  | identifyTimeout p => exact execIdentifyTimeout_wf _ hs
  | idHoldEnd p => exact execIdHoldEnd_wf _ hs
  | lossOfSignal p => exact execLossOfSignal_wf _ hs
  | codewordReceive p cw => exact execCodewordReceive_wf _ _ hs
  | retrainTimeout p => exact execRetrainTimeout_wf _ hs
  | laneErrorThreshold p lane => exact execLaneErrorThreshold_wf _ _ hs
  | spareReq p lane => exact execSpareReq_wf _ _ hs
  | spareAck p lane sq => exact execSpareAck_wf _ _ _ hs
  | inputUv mv => exact execInputUv_wf _ hs
  | vfEnable mask => exact execVfEnable_wf _ hs

end

/-- Settles O3, by the form of memory being kept by every function that the commands are made of. -/
theorem memoryFormIsInvariant : Obligations.MemoryFormIsInvariant := by
  unfold Obligations.MemoryFormIsInvariant
  intro s t hs h
  unfold step at h
  split at h
  · cases h
    exact hs
  · next c rest _ => exact exec_wf (s := { s with pending := rest }) c hs t h

end Sys2Proof.Machine

/-! SUPPORT. PT_INV: what it leaves of each nib's cached translations. -/

namespace Sys2Proof.Machine

open Sys2Proof.Spec

section
variable {β : Type} [DecidableEq β] {d : β}

theorem key_ge_of_tabWfFrom {lo : Nat} {t : Tab β} (w : tabWfFrom d lo t = true) : ∀ k ∈ t.map (fun p => p.1), lo ≤ k := by
  induction t generalizing lo with
  | nil => simp
  | cons p t ih =>
    simp only [tabWfFrom, Bool.and_eq_true, decide_eq_true_eq] at w
    obtain ⟨⟨hlo, _⟩, ht⟩ := w
    intro k hk
    rcases List.mem_cons.mp hk with rfl | hk
    · exact hlo
    · exact Nat.le_of_succ_le (Nat.le_trans (Nat.succ_le_succ hlo) (ih ht k hk))

theorem nodup_keys_of_tabWfFrom {lo : Nat} {t : Tab β} (w : tabWfFrom d lo t = true) : (t.map (fun p => p.1)).Nodup := by
  induction t generalizing lo with
  | nil => exact List.nodup_nil
  | cons p t ih =>
    simp only [tabWfFrom, Bool.and_eq_true] at w
    obtain ⟨_, ht⟩ := w
    exact List.nodup_cons.mpr ⟨fun hp => Nat.not_succ_le_self p.1 (key_ge_of_tabWfFrom ht p.1 hp), ih ht⟩

omit [DecidableEq β] in
theorem tabGet_of_not_key {t : Tab β} {i : Nat} (h : i ∉ t.map (fun p => p.1)) : tabGet d t i = d := by
  induction t with
  | nil => rfl
  | cons p t ih =>
    obtain ⟨hp, ht⟩ := not_or.mp (mt List.mem_cons.mpr h)
    rw [tabGet, tabFind?, if_neg (Ne.symm hp)]
    exact ih ht

/-- What every value becomes when one function, which leaves the default as it is, is applied to each that a canonical table lists. -/
theorem tabGet_tabUpdate_keys {f : β → β} (hf : f d = d) {t : Tab β} (w : tabWf d t = true) (i : Nat) :
    tabGet d (tabUpdate d id (fun _ => f) (t.map (fun p => p.1)) t) i = f (tabGet d t i) := by
  by_cases h : i ∈ t.map (fun p => p.1)
  · have hkeys : ((t.map (fun p => p.1)).map id).Nodup := by
      rw [List.map_id]
      exact nodup_keys_of_tabWfFrom w
    exact tabGet_tabUpdate w hkeys h
  · have hother : ∀ x ∈ t.map (fun p => p.1), id x ≠ i := fun x hx he => h (he ▸ hx)
    rw [tabGet_tabUpdate_other hother, tabGet_of_not_key h, hf]

end

/-- A nib without the cached translations of a context. -/
def Nib.dropContext (ctx : Nat) (n : Nib) : Nib := { n with tlb := n.tlb.filter (fun e => decide (e.1 / 2 ^ 27 ≠ ctx)) }

theorem dropContext_cold (ctx : Nat) : Nib.cold.dropContext ctx = Nib.cold := rfl

theorem ptInv_answers {s : State} (ctx : Fin 256) (h : s.mmu.inv = none) : Answers (.ptInv ctx) s
    { s with nibs := tabUpdate Nib.cold id (fun _ => Nib.dropContext ctx.val) (s.nibs.map (fun p => p.1)) s.nibs,
             mmu := { s.mmu with inv := some ctx.val } } := by
  change execPtInv ctx s = _
  unfold execPtInv
  rw [h, if_neg (by decide)]
  exact congrArg (fun u : State => Host.Outcome.next { u with mmu := { u.mmu with inv := some ctx.val } })
    (modNibs_eq id (fun _ => Nib.dropContext ctx.val) (s.nibs.map (fun p => p.1)) s)

theorem ptInv_busy {s : State} (ctx : Fin 256) (h : s.mmu.inv ≠ none) : Answers (.ptInv ctx) s s := by
  change execPtInv ctx s = _
  unfold execPtInv
  rw [if_pos (Option.isSome_iff_ne_none.mpr h)]

/-- Settles O22, by the update of a canonical table at every key that it lists. -/
theorem translationInvalidate : Obligations.TranslationInvalidate := by
  unfold Obligations.TranslationInvalidate
  intro s ctx
  refine ⟨fun h w => ⟨_, ptInv_answers ctx h, fun n => ?_⟩, ptInv_busy ctx, rfl⟩
  exact tabGet_tabUpdate_keys (dropContext_cold ctx.val) w n

end Sys2Proof.Machine

/-! SUPPORT. The memory controllers: what the read of a row leaves of the Canopy, and that no fault trains a stack. -/

namespace Sys2Proof.Machine

/-! ## A read changes nothing of the Canopy -/

theorem forEach_canopy {α : Type} (xs : List α) {f : α → State → State} {s : State} (hf : ∀ x u, (f x u).canopy = u.canopy) :
    (forEach xs f s).canopy = s.canopy := by
  induction xs generalizing s with
  | nil => rfl
  | cons x xs ih => exact ih.trans (hf x s)

section

variable {s : State}

@[simp] theorem sendMsix_canopy (fn vec : Nat) : (sendMsix fn vec s).canopy = s.canopy := by
  unfold sendMsix
  repeat' split
  all_goals simp

@[simp] theorem sendEvent_canopy : (sendEvent s).canopy = s.canopy := by
  unfold sendEvent
  dsimp only
  repeat' split
  all_goals simp

@[simp] theorem logAt_canopy (stamp : Nat) (coalesced : Bool) (p : Page) (j event : Nat) (n : Note) :
    (logAt stamp coalesced p j event n s).canopy = s.canopy := rfl

@[simp] theorem logNow_canopy (p : Page) (j event : Nat) (n : Note) : (logNow p j event n s).canopy = s.canopy := rfl

@[simp] theorem setEvent_canopy (p : Page) (j event : Nat) : (setEvent p j event s).canopy = s.canopy := by
  unfold setEvent
  dsimp only
  repeat' split
  all_goals simp

@[simp] theorem countEvent_canopy (p : Page) (a hi lo : Nat) : (countEvent p a hi lo s).canopy = s.canopy := by
  unfold countEvent
  split <;> simp

@[simp] theorem crossEvent_canopy (full : Bool) (f : Nat) : (crossEvent full f s).canopy = s.canopy := by
  unfold crossEvent
  dsimp only
  repeat' split
  all_goals simp

@[simp] theorem crossOf_canopy (full : Bool) (p : Page) : (crossOf full p s).canopy = s.canopy := by
  unfold crossOf
  split <;> simp

@[simp] theorem raiseWith_canopy (full : Bool) (p : Page) (j event : Nat) (n : Note) :
    (raiseWith full p j event n s).canopy = s.canopy := by simp [raiseWith]

@[simp] theorem raise_canopy (p : Page) (j event : Nat) (n : Note) : (raise p j event n s).canopy = s.canopy := by simp [raise]

@[simp] theorem mapChanged_canopy (e : Nat) : (mapChanged e s).canopy = s.canopy := by simp [mapChanged]

@[simp] theorem mapAdd_canopy (e : Nat) : (mapAdd e s).canopy = s.canopy := by
  unfold mapAdd
  split <;> simp

@[simp] theorem errLast_canopy (mc dpa cls : Nat) : (errLast mc dpa cls s).canopy = s.canopy := by rw [errLast, setPair_canopy]

@[simp] theorem startRepair_canopy (mc key : Nat) (ue : Bool) : (startRepair mc key ue s).canopy = s.canopy := by
  unfold startRepair
  dsimp only
  repeat' split
  all_goals simp

theorem takeFree_blotter_canopy (b : Blotter) : (takeFree { s with blotter := b }).canopy = s.canopy := rfl

@[simp] theorem noteCe_canopy (mc cw : Nat) : (noteCe mc cw s).canopy = s.canopy := by
  unfold noteCe
  extract_lets dpa full u v t e
  clear_value e
  rw [setEvent_canopy, crossOf_canopy, takeFree_blotter_canopy]
  exact (errLast_canopy mc dpa 1).trans (countEvent_canopy ..)

@[simp] theorem memCe_canopy (mc cw : Nat) : (memCe mc cw s).canopy = s.canopy := by
  unfold memCe
  dsimp only
  repeat' split
  all_goals simp

@[simp] theorem memUe_canopy (mc cw : Nat) (poisoned : Bool) : (memUe mc cw poisoned s).canopy = s.canopy := by simp [memUe]

@[simp] theorem injectError_canopy (row : Nat) : (injectError row s).canopy = s.canopy := by
  unfold injectError
  dsimp only
  repeat' split
  all_goals simp

@[simp] theorem openPage_canopy (dpa : Nat) : (openPage dpa s).canopy = s.canopy := rfl

@[simp] theorem stackWrite_canopy (row : Nat) (keep : Nat → Bool) : (stackWrite row keep s).canopy = s.canopy := by simp [stackWrite]

@[simp] theorem poisonRow_canopy (row : Nat) : (poisonRow row s).canopy = s.canopy := by simp [poisonRow]

@[simp] theorem checkRow_canopy (row : Nat) (back : Bool) : (checkRow row back s).canopy = s.canopy := by
  fun_cases checkRow <;> grind -ring -linarith [forEach_canopy, memCe_canopy, memUe_canopy, injectError_canopy]

@[simp] theorem copyDram_canopy (mc key : Nat) : (copyDram mc key s).canopy = s.canopy := by
  fun_cases copyDram
  grind -ring -linarith [forEach_canopy, noteCe_canopy, stackWrite_canopy]

@[simp] theorem awaitRepair_canopy (dpa : Nat) : (awaitRepair dpa s).canopy = s.canopy := by
  fun_cases awaitRepair
  grind -ring -linarith [forEach_canopy, copyDram_canopy]

@[simp] theorem putLines_canopy (dpa : Nat) (ls : List Line) : (putLines dpa ls s).canopy = s.canopy := rfl

@[simp] theorem dropLine_canopy (dpa : Nat) : (dropLine dpa s).canopy = s.canopy := rfl

@[simp] theorem useLine_canopy (l : Line) : (useLine l s).canopy = s.canopy := rfl

@[simp] theorem lineCe_canopy (l : Line) (k : Nat) : (lineCe l k s).canopy = s.canopy := by simp [lineCe]

@[simp] theorem correctLine_canopy (l : Line) : (correctLine l s).canopy = s.canopy := by
  fun_cases correctLine
  grind -ring -linarith [forEach_canopy, lineCe_canopy]

@[simp] theorem spillLine_canopy (l : Line) : (spillLine l s).canopy = s.canopy := by
  unfold spillLine
  repeat' split
  all_goals simp

@[simp] theorem dropWay_canopy (mc w : Nat) : (dropWay mc w s).canopy = s.canopy := by simp [dropWay]

@[simp] theorem reserveWay_canopy (mc slice a : Nat) : (reserveWay mc slice a s).canopy = s.canopy := by
  induction a generalizing s with
  | zero => rfl
  | succ fuel ih => grind [reserveWay, forEach_canopy, spillLine_canopy, dropWay_canopy]

@[simp] theorem retireWay_canopy (mc w : Nat) : (retireWay mc w s).canopy = s.canopy := by
  fun_cases retireWay
  grind -ring -linarith [forEach_canopy, spillLine_canopy, dropWay_canopy, reserveWay_canopy]

@[simp] theorem judgeWay_canopy (l : Line) : (judgeWay l s).canopy = s.canopy := by
  unfold judgeWay
  split <;> simp

@[simp] theorem insertLine_canopy (al : Alloc) (dpa : Nat) (dirty : Bool) (errs : Tab CwErr) :
    (insertLine al dpa dirty errs s).canopy = s.canopy := by
  unfold insertLine
  dsimp only
  repeat' split
  all_goals simp

@[simp] theorem settleLine_canopy (dpa : Nat) : (settleLine dpa s).canopy = s.canopy := by
  unfold settleLine
  repeat' split
  all_goals simp

@[simp] theorem readRowAt_canopy (al : Alloc) (row : Nat) : (readRowAt al row s).2.canopy = s.canopy := by
  unfold readRowAt
  dsimp only
  repeat' split
  all_goals simp

end

/-! ## Stacks stay trained or untrained -/

/-- What the controllers hold of a kind stands where the list of it does. -/
theorem getMc_of_map {α : Type} {f : Mc → α} {s t : State} (h : t.mcs.map f = s.mcs.map f) (m : Nat) :
    f (getMc t m) = f (getMc s m) := by
  have hget (u : State) : f (getMc u m) = vget (f Mc.off) (u.mcs.map f) m := by
    simp [getMc, vget, Option.getD_map]
  rw [hget, hget, h]

theorem setMc_map {α : Type} {f : Mc → α} {m : Nat} {x : Mc} {s : State} (h : f x = f (getMc s m)) :
    (setMc m x s).mcs.map f = s.mcs.map f := by
  refine Vector.ext fun i hi => ?_
  rw [Vector.getElem_map, Vector.getElem_map]
  by_cases hm : m = i
  · subst hm
    simp [setMc, vset, h, getMc, vget, hi]
  · simp [setMc, vset, hm]

theorem forEach_map {α β : Type} {f : Mc → β} (xs : List α) {g : α → State → State} {s : State}
    (hg : ∀ x u, (g x u).mcs.map f = u.mcs.map f) : (forEach xs g s).mcs.map f = s.mcs.map f := by
  induction xs generalizing s with
  | nil => rfl
  | cons x xs ih => exact ih.trans (hg x s)

theorem forEach_mcs {α : Type} (xs : List α) {f : α → State → State} {s : State} (hf : ∀ x u, (f x u).mcs = u.mcs) :
    (forEach xs f s).mcs = s.mcs := by
  induction xs generalizing s with
  | nil => rfl
  | cons x xs ih => exact ih.trans (hf x s)

@[simp] theorem setMc_trained {x : Mc} {m : Nat} {s : State} (h : x.trained = (getMc s m).trained) :
    (setMc m x s).mcs.map Mc.trained = s.mcs.map Mc.trained := setMc_map h

@[simp] theorem modMc_trained {f : Mc → Mc} {m : Nat} {s : State} (h : (f (getMc s m)).trained = (getMc s m).trained) :
    (modMc m f s).mcs.map Mc.trained = s.mcs.map Mc.trained := setMc_map h

theorem forEach_trained {α : Type} (xs : List α) {f : α → State → State} {s : State}
    (hf : ∀ x u, (f x u).mcs.map Mc.trained = u.mcs.map Mc.trained) : (forEach xs f s).mcs.map Mc.trained = s.mcs.map Mc.trained :=
  forEach_map xs hf

theorem foldl_trained {α β : Type} (xs : List α) {f : β × State → α → β × State} {p : β × State}
    (hf : ∀ q x, (f q x).2.mcs.map Mc.trained = q.2.mcs.map Mc.trained) :
    (xs.foldl f p).2.mcs.map Mc.trained = p.2.mcs.map Mc.trained := by
  induction xs generalizing p with
  | nil => rfl
  | cons x xs ih => exact ih.trans (hf p x)

section

variable {s : State}

@[simp] theorem sendMsix_mcs (fn vec : Nat) : (sendMsix fn vec s).mcs = s.mcs := by
  unfold sendMsix
  repeat' split
  all_goals simp

@[simp] theorem sendEvent_mcs : (sendEvent s).mcs = s.mcs := by
  unfold sendEvent
  dsimp only
  repeat' split
  all_goals simp

@[simp] theorem logAt_mcs (stamp : Nat) (coalesced : Bool) (p : Page) (j event : Nat) (n : Note) :
    (logAt stamp coalesced p j event n s).mcs = s.mcs := rfl

@[simp] theorem logNow_mcs (p : Page) (j event : Nat) (n : Note) : (logNow p j event n s).mcs = s.mcs := rfl

@[simp] theorem setEvent_mcs (p : Page) (j event : Nat) : (setEvent p j event s).mcs = s.mcs := by
  unfold setEvent
  dsimp only
  repeat' split
  all_goals simp

@[simp] theorem countEvent_mcs (p : Page) (a hi lo : Nat) : (countEvent p a hi lo s).mcs = s.mcs := by
  unfold countEvent
  split <;> simp

@[simp] theorem crossEvent_mcs (full : Bool) (f : Nat) : (crossEvent full f s).mcs = s.mcs := by
  unfold crossEvent
  dsimp only
  repeat' split
  all_goals simp

@[simp] theorem crossOf_mcs (full : Bool) (p : Page) : (crossOf full p s).mcs = s.mcs := by
  unfold crossOf
  split <;> simp

@[simp] theorem raiseWith_mcs (full : Bool) (p : Page) (j event : Nat) (n : Note) :
    (raiseWith full p j event n s).mcs = s.mcs := by simp [raiseWith]

@[simp] theorem raise_mcs (p : Page) (j event : Nat) (n : Note) : (raise p j event n s).mcs = s.mcs := by simp [raise]

@[simp] theorem mapChanged_mcs (e : Nat) : (mapChanged e s).mcs = s.mcs := by simp [mapChanged]

@[simp] theorem mapAdd_mcs (e : Nat) : (mapAdd e s).mcs = s.mcs := by
  unfold mapAdd
  split <;> simp

@[simp] theorem errLast_mcs (mc dpa cls : Nat) : (errLast mc dpa cls s).mcs = s.mcs := by rw [errLast, setPair_mcs]

@[simp] theorem startRepair_trained (mc key : Nat) (ue : Bool) : (startRepair mc key ue s).mcs.map Mc.trained = s.mcs.map Mc.trained := by
  unfold startRepair
  dsimp only
  repeat' split
  all_goals simp

theorem takeFree_blotter_mcs (b : Blotter) : (takeFree { s with blotter := b }).mcs = s.mcs := rfl

@[simp] theorem noteCe_mcs (mc cw : Nat) : (noteCe mc cw s).mcs = s.mcs := by
  unfold noteCe
  extract_lets dpa full u v t e
  clear_value e
  rw [setEvent_mcs, crossOf_mcs, takeFree_blotter_mcs]
  exact (errLast_mcs mc dpa 1).trans (countEvent_mcs ..)

@[simp] theorem memCe_trained (mc cw : Nat) : (memCe mc cw s).mcs.map Mc.trained = s.mcs.map Mc.trained := by
  unfold memCe
  dsimp only
  repeat' split
  all_goals simp

@[simp] theorem memUe_trained (mc cw : Nat) (poisoned : Bool) :
    (memUe mc cw poisoned s).mcs.map Mc.trained = s.mcs.map Mc.trained := by simp [memUe]

@[simp] theorem injectError_mcs (row : Nat) : (injectError row s).mcs = s.mcs := by
  unfold injectError
  dsimp only
  repeat' split
  all_goals simp

@[simp] theorem openPage_trained (dpa : Nat) : (openPage dpa s).mcs.map Mc.trained = s.mcs.map Mc.trained := by simp [openPage]

@[simp] theorem stackWrite_trained (row : Nat) (keep : Nat → Bool) :
    (stackWrite row keep s).mcs.map Mc.trained = s.mcs.map Mc.trained := by simp [stackWrite]

@[simp] theorem poisonRow_trained (row : Nat) : (poisonRow row s).mcs.map Mc.trained = s.mcs.map Mc.trained := by simp [poisonRow]

@[simp] theorem checkRow_trained (row : Nat) (back : Bool) : (checkRow row back s).mcs.map Mc.trained = s.mcs.map Mc.trained := by
  fun_cases checkRow <;> grind -ring -linarith [forEach_mcs, forEach_trained, memCe_trained, memUe_trained, injectError_mcs]

@[simp] theorem copyDram_trained (mc key : Nat) : (copyDram mc key s).mcs.map Mc.trained = s.mcs.map Mc.trained := by
  fun_cases copyDram
  grind -ring -linarith [forEach_mcs, forEach_trained, noteCe_mcs, stackWrite_trained]

@[simp] theorem awaitRepair_trained (dpa : Nat) : (awaitRepair dpa s).mcs.map Mc.trained = s.mcs.map Mc.trained := by
  fun_cases awaitRepair
  grind -ring -linarith [forEach_mcs, forEach_trained, copyDram_trained]

@[simp] theorem answerBusy_mcs (dpa : Nat) : (answerBusy dpa s).mcs = s.mcs := by simp [answerBusy]

@[simp] theorem putLines_trained (dpa : Nat) (ls : List Line) :
    (putLines dpa ls s).mcs.map Mc.trained = s.mcs.map Mc.trained := by simp [putLines]

@[simp] theorem dropLine_trained (dpa : Nat) : (dropLine dpa s).mcs.map Mc.trained = s.mcs.map Mc.trained := by simp [dropLine]

@[simp] theorem useLine_trained (l : Line) : (useLine l s).mcs.map Mc.trained = s.mcs.map Mc.trained := by simp [useLine]

@[simp] theorem lineCe_trained (l : Line) (k : Nat) : (lineCe l k s).mcs.map Mc.trained = s.mcs.map Mc.trained := by simp [lineCe]

@[simp] theorem correctLine_trained (l : Line) : (correctLine l s).mcs.map Mc.trained = s.mcs.map Mc.trained := by
  fun_cases correctLine
  grind -ring -linarith [forEach_mcs, forEach_trained, lineCe_trained]

@[simp] theorem spillLine_trained (l : Line) : (spillLine l s).mcs.map Mc.trained = s.mcs.map Mc.trained := by
  unfold spillLine
  repeat' split
  all_goals simp

@[simp] theorem dropWay_trained (mc w : Nat) : (dropWay mc w s).mcs.map Mc.trained = s.mcs.map Mc.trained := by simp [dropWay]

@[simp] theorem reserveWay_trained (mc slice a : Nat) : (reserveWay mc slice a s).mcs.map Mc.trained = s.mcs.map Mc.trained := by
  induction a generalizing s with
  | zero => rfl
  | succ fuel ih => grind [reserveWay, forEach_trained, spillLine_trained, dropWay_trained]

@[simp] theorem retireWay_trained (mc w : Nat) : (retireWay mc w s).mcs.map Mc.trained = s.mcs.map Mc.trained := by
  fun_cases retireWay
  grind -ring -linarith [forEach_mcs, forEach_trained, spillLine_trained, dropWay_trained, reserveWay_trained]

@[simp] theorem judgeWay_trained (l : Line) : (judgeWay l s).mcs.map Mc.trained = s.mcs.map Mc.trained := by
  unfold judgeWay
  split <;> simp

@[simp] theorem insertLine_trained (al : Alloc) (dpa : Nat) (dirty : Bool) (errs : Tab CwErr) :
    (insertLine al dpa dirty errs s).mcs.map Mc.trained = s.mcs.map Mc.trained := by
  unfold insertLine
  dsimp only
  repeat' split
  all_goals simp

@[simp] theorem settleLine_trained (dpa : Nat) : (settleLine dpa s).mcs.map Mc.trained = s.mcs.map Mc.trained := by
  unfold settleLine
  repeat' split
  all_goals simp

@[simp] theorem readRowAt_trained (al : Alloc) (row : Nat) : (readRowAt al row s).2.mcs.map Mc.trained = s.mcs.map Mc.trained := by
  unfold readRowAt
  dsimp only
  repeat' split
  all_goals simp

@[simp] theorem writeRowAt_trained (al : Alloc) (a n : Nat) : (writeRowAt al a n s).mcs.map Mc.trained = s.mcs.map Mc.trained := by
  unfold writeRowAt
  dsimp only
  repeat' split
  all_goals simp

@[simp] theorem serveReads_trained (row : Nat) : (serveReads row s).mcs.map Mc.trained = s.mcs.map Mc.trained := by
  unfold serveReads
  split <;> simp

@[simp] theorem readsFirst_trained (lo hi : Nat) : (readsFirst lo hi s).mcs.map Mc.trained = s.mcs.map Mc.trained := by
  fun_cases readsFirst
  grind -ring -linarith [forEach_mcs, forEach_trained, serveReads_trained]

@[simp] theorem leaveTag_trained (x : Xfer) : (leaveTag x s).mcs.map Mc.trained = s.mcs.map Mc.trained := by
  unfold leaveTag
  split <;> simp

@[simp] theorem comeToBank_trained (dpa : Nat) : (comeToBank dpa s).mcs.map Mc.trained = s.mcs.map Mc.trained := by
  unfold comeToBank
  dsimp only
  repeat' split
  all_goals simp

@[simp] theorem memReadAs_trained (al : Alloc) (a n : Nat) : (memReadAs al a n s).2.mcs.map Mc.trained = s.mcs.map Mc.trained := by
  unfold memReadAs
  split
  next h =>
  refine (congrArg (fun q => q.2.mcs.map Mc.trained) h).symm.trans (foldl_trained _ fun q x => ?_)
  grind [readRowAt_trained, comeToBank_trained]

@[simp] theorem memRead_trained (a n : Nat) : (memRead a n s).2.mcs.map Mc.trained = s.mcs.map Mc.trained := by simp [memRead]

@[simp] theorem memWriteAs_trained (al : Alloc) (a : Nat) (data : List Byte) :
    (memWriteAs al a data s).mcs.map Mc.trained = s.mcs.map Mc.trained := by
  fun_cases memWriteAs
  grind -ring -linarith [forEach_mcs, forEach_trained, writeRowAt_trained, readsFirst_trained]

@[simp] theorem memWrite_trained (a : Nat) (data : List Byte) : (memWrite a data s).mcs.map Mc.trained = s.mcs.map Mc.trained := by
  fun_cases memWrite
  grind -ring -linarith [forEach_mcs, forEach_trained, comeToBank_trained, memWriteAs_trained]

@[simp] theorem walkRead_trained (table idx : Nat) :
    (walkRead table idx s).2.mcs.map Mc.trained = s.mcs.map Mc.trained := by simp [walkRead]

@[simp] theorem walkLevels_trained (c va : Nat) : (walkLevels c va s).2.mcs.map Mc.trained = s.mcs.map Mc.trained := by
  fun_cases walkLevels <;> grind -ring -linarith [walkRead_trained]

@[simp] theorem walk_trained (c va : Nat) : (walk c va s).2.mcs.map Mc.trained = s.mcs.map Mc.trained := by
  unfold walk
  split <;> simp

@[simp] theorem translate_trained (c va : Nat) (write : Bool) : (translate c va write s).2.mcs.map Mc.trained = s.mcs.map Mc.trained := by
  fun_cases translate <;> grind -ring -linarith [walk_trained]

@[simp] theorem ptFault_mcs (c va reason : Nat) : (ptFault c va reason s).mcs = s.mcs := by simp [ptFault]

theorem vTargetsBy_trained {tr : Translate} (htr : ∀ va u, (tr va u).2.mcs.map Mc.trained = u.mcs.map Mc.trained) (va n : Nat) :
    (vTargetsBy tr va n s).2.mcs.map Mc.trained = s.mcs.map Mc.trained := by
  refine foldl_trained _ fun q x => ?_
  have h := htr x.1
  grind

@[simp] theorem writePieces_trained (a : List (Nat × Nat)) (a1 : List Byte) :
    (writePieces a a1 s).mcs.map Mc.trained = s.mcs.map Mc.trained := by
  induction a generalizing a1 s with
  | nil => rfl
  | cons p ps ih => exact (ih _).trans (memWrite_trained ..)

theorem vWriteBy_trained {tr : Translate} (htr : ∀ va u, (tr va u).2.mcs.map Mc.trained = u.mcs.map Mc.trained) (va : Nat)
    (data : List Byte) : (vWriteBy tr va data s).2.mcs.map Mc.trained = s.mcs.map Mc.trained := by
  unfold vWriteBy
  have htargets := vTargetsBy_trained (s := s) htr va data.length
  split
  · next h =>
    rw [h] at htargets
    exact htargets
  · next h =>
    rw [h] at htargets
    exact (writePieces_trained ..).trans htargets

@[simp] theorem vWrite_trained (c va : Nat) (data : List Byte) : (vWrite c va data s).2.mcs.map Mc.trained = s.mcs.map Mc.trained :=
  vWriteBy_trained (fun va _ => translate_trained c va true) va data

@[simp] theorem moveBytes_mcs (c off n : Nat) : (moveBytes c off n s).mcs = s.mcs := by
  unfold moveBytes
  dsimp only
  repeat' split
  all_goals simp

@[simp] theorem pushRow_mcs (nib va : Nat) (data : Row) : (pushRow nib va data s).mcs = s.mcs := by
  unfold pushRow
  dsimp only
  repeat' split
  all_goals simp

@[simp] theorem acceptWrite_trained (x : Xfer) : (acceptWrite x s).mcs.map Mc.trained = s.mcs.map Mc.trained := by
  unfold acceptWrite
  dsimp only
  repeat' split
  all_goals simp

@[simp] theorem countRemote_mcs (nib : Nat) : (countRemote nib s).mcs = s.mcs := by
  unfold countRemote
  split <;> simp

@[simp] theorem writeRemote_mcs (x : Xfer) : (writeRemote x s).mcs = s.mcs := by simp [writeRemote]

@[simp] theorem deliverSignal_mcs (nib seq : Nat) : (deliverSignal nib seq s).mcs = s.mcs := by
  unfold deliverSignal
  dsimp only
  repeat' split
  all_goals simp

@[simp] theorem settleRow_mcs (nib seq i : Nat) (data : Row) : (settleRow nib seq i data s).mcs = s.mcs := rfl

@[simp] theorem failDraining_mcs (nib seq : Nat) (b : Blame) : (failDraining nib seq b s).mcs = s.mcs := by
  unfold failDraining
  dsimp only
  repeat' split
  all_goals simp

@[simp] theorem noteIwDetect_mcs (c nib row reader : Nat) : (noteIwDetect c nib row reader s).mcs = s.mcs := by simp [noteIwDetect]

@[simp] theorem settlePull_mcs (x : Xfer) : (settlePull x s).mcs = s.mcs := by
  unfold settlePull
  repeat' split
  all_goals simp

@[simp] theorem dropXfer_mcs (x : Xfer) : (dropXfer x s).mcs = s.mcs := rfl

@[simp] theorem readDraining_trained (x : Xfer) : (readDraining x s).2.mcs.map Mc.trained = s.mcs.map Mc.trained := by
  unfold readDraining
  dsimp only
  repeat' split
  all_goals simp

@[simp] theorem settleHint_trained (x : Xfer) : (settleHint x s).mcs.map Mc.trained = s.mcs.map Mc.trained := by
  unfold settleHint
  repeat' split
  all_goals simp

@[simp] theorem settleXfer_trained (x : Xfer) : (settleXfer x s).mcs.map Mc.trained = s.mcs.map Mc.trained := by
  fun_cases settleXfer <;> grind -ring -linarith [comeToBank_trained, moveBytes_mcs, acceptWrite_trained, writeRemote_mcs,
      deliverSignal_mcs, settleRow_mcs, failDraining_mcs, settlePull_mcs, readDraining_trained, settleHint_trained]

@[simp] theorem drainPlot_trained (plot : List Nat) : (drainPlot plot s).mcs.map Mc.trained = s.mcs.map Mc.trained := by
  fun_cases drainPlot
  grind -ring -linarith [forEach_mcs, forEach_trained, dropXfer_mcs, settleXfer_trained]

@[simp] theorem wakeGrove_mcs (g : Nat) : (wakeGrove g s).mcs = s.mcs := by
  unfold wakeGrove
  dsimp only
  repeat' split
  all_goals simp

@[simp] theorem modGroveNibs_mcs (g : Nat) (f : Nib → Nib) : (modGroveNibs g f s).mcs = s.mcs := forEach_mcs _ fun _ _ => modNib_mcs ..

@[simp] theorem dropGrove_mcs (g : Nat) : (dropGrove g s).mcs = s.mcs := by
  unfold dropGrove
  dsimp only
  repeat' split
  all_goals simp

@[simp] theorem freePlot_mcs (c : Nat) : (freePlot c s).mcs = s.mcs := by
  fun_cases freePlot
  grind -ring -linarith [modCtx_mcs, forEach_mcs, forEach_trained, dropGrove_mcs]

@[simp] theorem stopScribes_mcs (c : Nat) : (stopScribes c s).mcs = s.mcs := forEach_mcs _ fun _ _ => modScribe_mcs ..

@[simp] theorem chargeTime_mcs (c : Nat) : (chargeTime c s).mcs = s.mcs := by
  unfold chargeTime
  dsimp only
  repeat' split
  all_goals simp

@[simp] theorem quiesce_trained (c : Nat) : (quiesce c s).mcs.map Mc.trained = s.mcs.map Mc.trained := by
  fun_cases quiesce
  grind -ring -linarith [modNib_mcs, forEach_mcs, forEach_trained, drainPlot_trained, chargeTime_mcs]

@[simp] theorem putCompletion_trained (c code : Nat) : (putCompletion c code s).2.mcs.map Mc.trained = s.mcs.map Mc.trained := by
  fun_cases putCompletion <;> grind -ring -linarith [modCtx_mcs, ptFault_mcs, vWrite_trained]

@[simp] theorem ctxMessage_mcs (c : Nat) : (ctxMessage c s).mcs = s.mcs := by
  unfold ctxMessage
  split <;> simp

@[simp] theorem enterFaulted_mcs (c code wanted : Nat) : (enterFaulted c code wanted s).mcs = s.mcs := by
  unfold enterFaulted
  dsimp only
  repeat' split
  all_goals simp

@[simp] theorem ctxFault_trained (c code : Nat) : (ctxFault c code s).mcs.map Mc.trained = s.mcs.map Mc.trained := by
  fun_cases ctxFault <;> grind -ring -linarith [stopScribes_mcs, quiesce_trained, putCompletion_trained, enterFaulted_mcs]

@[simp] theorem stopDevice_trained (code : Nat) : (stopDevice code s).mcs.map Mc.trained = s.mcs.map Mc.trained := by
  fun_cases stopDevice <;> grind -ring -linarith [forEach_mcs, forEach_trained, ctxFault_trained]

end

end Sys2Proof.Machine

/-! SUPPORT. The memory controllers: requests, patrol, refresh, repairs and the failure of a stack, each in the statements' own words. -/

namespace Sys2Proof.Machine

open Sys2Proof.Spec (Answers eventSet)

/-! ## Transfers -/

theorem sameXfer_iff {x y : Xfer} : sameXfer x y = true ↔ x.nib = y.nib ∧ x.seq = y.seq ∧ x.row = y.row := by
  simp [sameXfer, and_assoc]

/-- A transfer under way is found by its place, or one at the same place is. -/
theorem findXfer_of_mem {s : State} {x : Xfer} (h : x ∈ s.canopy.xfers) : ∃ y, findXfer s x.nib x.seq x.row = some y :=
  Option.isSome_iff_exists.mp (List.find?_isSome.mpr ⟨x, h, by simp⟩)

theorem findXfer_dropXfer_key (s : State) (x : Xfer) : findXfer (dropXfer x s) x.nib x.seq x.row = none := by
  refine findXfer_none fun y hy ⟨hn, hs, hr⟩ => ?_
  have hother := (List.mem_filter.mp hy).2
  rw [sameXfer_iff.mpr ⟨hn.symm, hs.symm, hr.symm⟩] at hother
  cases hother

/-- Where no transfer is new, none is found that was not there. -/
theorem CanopyKept.findXfer_none {s t : State} {nib seq row : Nat} (h : CanopyKept s t) (hn : findXfer s nib seq row = none) :
    findXfer t nib seq row = none := by
  refine Machine.findXfer_none fun x hx ⟨h1, h2, h3⟩ => ?_
  obtain ⟨y, hy, hyx⟩ := h.xfers x hx
  obtain ⟨k1, k2, k3⟩ := sameXfer_iff.mp hyx
  have hno := List.find?_eq_none.mp hn y hy
  simp [k1, k2, k3, h1, h2, h3] at hno

/-! ## Requests (R220, R224) -/

section
variable {s : State} {x : Xfer}

theorem oldestRequest_some {nib seq : Nat} {st : XSt} (h : oldestRequest s nib seq st = some x) :
    x ∈ s.canopy.xfers ∧ (x.kind = .read ∨ x.kind = .write ∨ x.kind = .hint) := by
  have hx := List.find?_some h
  simp only [Bool.and_eq_true, Bool.or_eq_true, beq_iff_eq, or_assoc] at hx
  exact ⟨List.mem_of_find?_eq_some h, hx.2⟩

theorem request_answers {nib : Fin 1024} {desc : Nat} {c : Instr} {st : XSt}
    (hc : (c, st) ∈ [(Instr.mcRequest nib desc, XSt.travel), (.bankBusyRetry nib desc, .busy)])
    (h : oldestRequest s nib.val desc st = some x) : Answers c s (requestMc x s) := by
  simp only [List.mem_cons, Prod.mk.injEq, List.not_mem_nil, or_false] at hc
  obtain ⟨rfl, rfl⟩ | ⟨rfl, rfl⟩ := hc
  · change execMcRequest nib desc s = _
    rw [execMcRequest, h]
  · change execBankBusyRetry nib desc s = _
    rw [execBankBusyRetry, h]

theorem bankFull_eq (s : State) (dpa : Nat) : bankFull s dpa = (decide (bankCap s (mcOf dpa) ≠ 0) &&
    decide (bankCap s (mcOf dpa) ≤ bankTags s (mcOf dpa) (bankOf (dramOf (localOf dpa))))) := by
  have hcap : (bankCap s (mcOf dpa) != 0) = decide (bankCap s (mcOf dpa) ≠ 0) := by
    rw [Bool.eq_iff_iff, bne_iff_ne, decide_eq_true_iff]
  rw [bankFull, hcap, bankAt]

theorem requestMc_read {k : Nat} (hfull : bankFull s x.place = false) (hk : x.kind = .read) (hfree : freeTag s (mcOf x.place) = some k) :
    requestMc x s = addXfer { x with st := .tag k } (dropXfer x s) := by
  simp [requestMc, hfull, hk, hfree]

theorem requestMc_write (hfull : bankFull s x.place = false) (hk : x.kind = .write) (hfree : (freeTag s (mcOf x.place)).isSome = true) :
    requestMc x s = acceptWrite x (dropXfer x s) := by
  obtain ⟨k, hfree⟩ := Option.isSome_iff_exists.mp hfree
  simp [requestMc, hfull, hk, hfree]

theorem requestMc_busy (hfull : bankFull s x.place = true) (hk : x.kind ≠ .hint) :
    requestMc x s = answerBusy x.place (setXfer { x with st := .busy } s) := by
  simp [requestMc, hfull, hk]

theorem requestMc_hint (hk : x.kind = .hint)
    (h : mscMode s (mcOf x.place) ≠ 1 ∨ 3072 < (mcTags s (mcOf x.place)).length ∨ bankFull s x.place = true) :
    requestMc x s = dropXfer x s := by
  have href : hintRefused s x.place = true := by simpa [hintRefused, or_assoc] using h
  simp [requestMc, hk, href]

theorem acceptWrite_hbm (x : Xfer) (s : State) : (acceptWrite x s).hbm = (memWriteAs (xferAlloc x) x.place (bytesOfRow x.data) s).hbm := by
  unfold acceptWrite
  dsimp only
  split <;> split <;> simp

theorem bytesOf_length (n v : Nat) : (bytesOf n v).length = n := by
  simp [bytesOf]

/-- The row of an accepted write stands in HBM, and every other byte as it did. -/
theorem acceptWrite_byte (x : Xfer) (s : State) :
    (∀ i, i < 512 → (acceptWrite x s).hbm.byte (x.place + i) = (bytesOfRow x.data).getD i 0) ∧
    (∀ a, (a < x.place ∨ x.place + 512 ≤ a) → (acceptWrite x s).hbm.byte a = s.hbm.byte a) := by
  have hlen : (bytesOfRow x.data).length = 512 := bytesOf_length 512 _
  obtain ⟨u, hu, hwrite⟩ := memWriteAs_bytes (xferAlloc x) x.place (bytesOfRow x.data) s
  rw [acceptWrite_hbm, hwrite]
  refine ⟨fun i hi => ?_, fun a ha => ?_⟩
  · rw [hbm_write_self _ _ _ _ (by omega), List.getD_eq_getElem _ _ (by omega)]
  · rw [hbm_write_other _ _ _ _ (by omega), hu.byte]

theorem findXfer_acceptWrite (x : Xfer) (s : State) : findXfer (acceptWrite x (dropXfer x s)) x.nib x.seq x.row = none :=
  (layerEdits_acceptWrite .refl x).canopyKept.findXfer_none (findXfer_dropXfer_key s x)

/-- A request that a full bank refuses waits for its retry, and BANK_CAP is raised. -/
theorem answerBusy_setXfer (h : x ∈ s.canopy.xfers) :
    findXfer (answerBusy x.place (setXfer { x with st := .busy } s)) x.nib x.seq x.row = some { x with st := .busy } ∧
    eventSet (answerBusy x.place (setXfer { x with st := .busy } s)) .memctl (mcOf x.place) 4 ∧
    (answerBusy x.place (setXfer { x with st := .busy } s)).hbm = s.hbm := by
  obtain ⟨y, hy⟩ := findXfer_of_mem h
  have hset := findXfer_setXfer (y := { x with st := .busy }) hy rfl rfl rfl
  refine ⟨?_, eventSet_raise _ _ _ _ (by decide), ?_⟩
  · simpa [findXfer, answerBusy] using hset
  · simp [answerBusy, setXfer]

end

/-! ## Patrol (R230) -/

/-- The placement of a controller's rows (R216) and its inverse agree on the controller. -/
theorem mcOf_dpaOf {mc : Nat} (h : mc < 8) (loc : Nat) : mcOf (dpaOf mc loc) = mc := by
  have hx : mc ^^^ (loc / 262144 % 8) < 8 := Nat.xor_lt_two_pow (n := 3) h (Nat.mod_lt _ (by decide))
  have hb : bits loc 17 14 < 16 := Nat.mod_lt _ (by decide)
  have hr : loc % 16384 < 16384 := Nat.mod_lt _ (by decide)
  have hlo : bits (dpaOf mc loc) 16 14 = mc ^^^ (loc / 262144 % 8) := by
    rw [dpaOf]
    generalize bits loc 17 14 = b, mc ^^^ (loc / 262144 % 8) = x, loc % 16384 = r at *
    change (_ / 16384) % 8 = x
    omega
  have hhi : bits (dpaOf mc loc) 23 21 = loc / 262144 % 8 := by
    rw [dpaOf]
    generalize bits loc 17 14 = b, mc ^^^ (loc / 262144 % 8) = x, loc % 16384 = r at *
    change (_ / 2097152) % 8 = _
    omega
  rw [mcOf, hlo, hhi, Nat.xor_assoc, Nat.xor_self, Nat.xor_zero]

section
variable {s : State}

theorem memEdits_addErrs (mc : Nat) (errs : List CwHit) : MemEdits s (addErrs mc errs s) := by
  refine forEach_chain _ (fun e u h => ?_) .refl
  dsimp only
  split
  · exact memEdits_putLines h _ _
  · exact h.tail (.errors _)

theorem patrolRead_waits {mc : Fin 8} (errs : List CwHit) (h : mcWaiting s mc.val = true) : Answers (.patrolRead mc errs) s s :=
  if_pos (.inr (.inr h))

/-- The row that a patrol reads: checked, and poisoned where it cannot be corrected. -/
def patrolRow (mc : Nat) (errs : List CwHit) (dpa : Nat) (s : State) : State :=
  let u := awaitRepair dpa (addErrs mc errs s)
  let v := checkRow dpa true (openPage dpa u)
  if stackBad u dpa = [] then v else poisonRow dpa v

theorem memEdits_patrolRow (mc : Nat) (errs : List CwHit) (dpa : Nat) : MemEdits s (patrolRow mc errs dpa s) := by
  have hcheck := memEdits_checkRow (memEdits_openPage (memEdits_awaitRepair (memEdits_addErrs (s := s) mc errs) dpa) dpa) dpa true
  unfold patrolRow
  dsimp only
  split
  · exact hcheck
  · exact memEdits_poisonRow hcheck dpa

/-- Without errors and repairs the patrol reads its row and leaves HBM as it is. -/
theorem patrolRow_hbm {mc : Nat} {dpa : Nat} (hmc : mcOf dpa = mc) (hbad : s.hbm.bad = []) (hrepairs : (getMc s mc).repairs = []) :
    (patrolRow mc [] dpa s).hbm = s.hbm := by
  have hwait : awaitRepair dpa (addErrs mc [] s) = s := by
    change awaitRepair dpa s = s
    rw [awaitRepair, hmc, hrepairs]
    rfl
  have hclean (u : State) (hu : u.hbm = s.hbm) : stackErrs u dpa = [] := by
    rw [stackErrs, hu, hbad]
    rfl
  have hcheck : checkRow dpa true (openPage dpa s) = openPage dpa s := by
    unfold checkRow
    rw [hclean (openPage dpa s) rfl]
    rfl
  rw [patrolRow, hwait, hcheck, stackBad, hclean s rfl]
  rfl

/-- The patrol goes on to the next row. -/
theorem patrolRead_goes {mc : Fin 8} (errs : List CwHit) (hlive : mcLive s mc.val = true)
    (hrate : getF s (regAt .memctl mc.val 0x44) 11 0 ≠ 0) (hwait : mcWaiting s mc.val = false) :
    ∃ f : Mc → Mc, (∀ m, (f m).patrol = ((getMc s mc.val).patrol + 1) % mcRows) ∧
      Answers (.patrolRead mc errs) s
        (modMc mc.val f (patrolRow mc.val errs (dpaOf mc.val (512 * (getMc s mc.val).patrol)) s)) := by
  have hexec : execPatrolRead mc errs s = _ := if_neg (by simp [hlive, hrate, hwait])
  exact ⟨_, fun _ => rfl, hexec⟩

/-! ## Refresh (R221) -/

theorem refresh_answers {mc : Fin 8} (bank : Fin 1024) (temp : Nat) (h : mcLive s mc.val = true) : Answers (.refresh mc bank temp) s
    (setStackTemp mc.val temp (modMc mc.val (fun m => { m with pages := tabErase m.pages (64 * (bank.val % 16) + bank.val / 16) }) s)) :=
  if_pos h

/-! ## Repairs (R231) -/

/-- A controller but for the pages that are open. -/
def Mc.unpaged (m : Mc) : Mc := { m with pages := [] }

theorem getMc_modMc (mc : Fin 8) (f : Mc → Mc) : getMc (modMc mc.val f s) mc.val = f (getMc s mc.val) :=
  getMc_setMc_self s (f (getMc s mc.val)) mc.isLt

theorem stackWrite_unpaged (row : Nat) (keep : Nat → Bool) : (stackWrite row keep s).mcs.map Mc.unpaged = s.mcs.map Mc.unpaged := by
  unfold stackWrite
  rw [injectError_mcs]
  exact setMc_map rfl

/-- Copying a DRAM row through the code opens pages, and changes nothing else of a controller. -/
theorem copyDram_unpaged (mc key : Nat) : (copyDram mc key s).mcs.map Mc.unpaged = s.mcs.map Mc.unpaged := by
  refine forEach_map _ fun row u => (stackWrite_unpaged ..).trans (forEach_map _ fun p v => ?_)
  rw [noteCe_mcs]

/-- What a copied row leaves of its controller's repairs and of what they used. -/
theorem copyDram_repairs (mc key m : Nat) : (getMc (copyDram mc key s) m).repairs = (getMc s m).repairs ∧
    (getMc (copyDram mc key s) m).soft = (getMc s m).soft ∧ (getMc (copyDram mc key s) m).slots = (getMc s m).slots := by
  have h := getMc_of_map (copyDram_unpaged (s := s) mc key) m
  have hrepairs := congrArg Mc.repairs h
  have hsoft := congrArg Mc.soft h
  have hslots := congrArg Mc.slots h
  exact ⟨hrepairs, hsoft, hslots⟩

/-- The first repair of a controller taken off its list. -/
def takeRepair (mc : Nat) (r : Repair) (rest : List Repair) (s : State) : State :=
  modMc mc (fun m => { m with repairs := rest, ceRow := tabErase m.ceRow r.key }) s

/-- What a repair reports. -/
def repairNote (mc : Nat) (r : Repair) : Note := .args (if r.ue then 2 else 1) (dpaOf mc (1024 * r.key))

/-- A DRAM row repaired: copied, accounted in its controller, entered in the map and reported. -/
def endRepair (mc : Nat) (r : Repair) (f : Mc → Mc) (entry : Nat) (s : State) : State :=
  raise .memctl mc 2 (repairNote mc r) (mapAdd entry (modMc mc f (copyDram mc r.key s)))

section
variable {mc : Fin 8} {held : Bool} {r : Repair} {rest : List Repair} (h : (getMc s mc.val).repairs = r :: rest)
include h

theorem pprDone_soft (hsoft : (held && !softUsed (getMc s mc.val) (bankOf r.key)) = true) : Answers (.pprDone mc held) s
    (endRepair mc.val r (fun m => { m with
      soft := m.soft + 1, repaired := tabSet 0 m.repaired r.key 1, softBanks := tabSet false m.softBanks (bankOf r.key) true })
      (mapEntry 9 (dramField mc.val r.key)) (takeRepair mc.val r rest s)) := by
  change execPprDone mc held s = _
  unfold execPprDone
  dsimp only
  rw [h]
  exact if_pos (by simpa using hsoft)

theorem pprDone_remap {k : Nat} (hsoft : (held && !softUsed (getMc s mc.val) (bankOf r.key)) = false)
    (hfree : freeRemap s mc.val = some k) : Answers (.pprDone mc held) s
    (endRepair mc.val r (fun m => { m with slots := m.slots + 1, repaired := tabSet 0 m.repaired r.key 2 })
      (mapEntry 10 (dramField mc.val r.key + 2 ^ 30 * k)) (takeRepair mc.val r rest s)) := by
  have hfree' : freeRemap (takeRepair mc.val r rest s) mc.val = some k := hfree
  change execPprDone mc held s = _
  unfold execPprDone
  dsimp only
  rw [h]
  dsimp only
  rw [if_neg (by simpa using hsoft), ← takeRepair, hfree']
  rfl

theorem pprDone_full (hsoft : (held && !softUsed (getMc s mc.val) (bankOf r.key)) = false)
    (hfree : freeRemap s mc.val = none) : Answers (.pprDone mc held) s
    (raise .memctl mc.val 3 (repairNote mc.val r) (takeRepair mc.val r rest s)) := by
  have hfree' : freeRemap (takeRepair mc.val r rest s) mc.val = none := hfree
  change execPprDone mc held s = _
  unfold execPprDone
  dsimp only
  rw [h]
  dsimp only
  rw [if_neg (by simpa using hsoft), ← takeRepair, hfree']
  rfl

end

theorem getMc_takeRepair (mc : Fin 8) (r : Repair) (rest : List Repair) : (getMc (takeRepair mc.val r rest s) mc.val).repairs = rest ∧
    (getMc (takeRepair mc.val r rest s) mc.val).soft = (getMc s mc.val).soft ∧
    (getMc (takeRepair mc.val r rest s) mc.val).slots = (getMc s mc.val).slots := by
  rw [takeRepair, getMc_modMc]
  exact ⟨rfl, rfl, rfl⟩

theorem getMc_endRepair (mc : Fin 8) (r : Repair) (f : Mc → Mc) (entry : Nat) :
    getMc (endRepair mc.val r f entry s) mc.val = f (getMc (copyDram mc.val r.key s) mc.val) := by
  have hmcs : (endRepair mc.val r f entry s).mcs = (modMc mc.val f (copyDram mc.val r.key s)).mcs := by
    rw [endRepair, raise_mcs, mapAdd_mcs]
  rw [getMc, hmcs, ← getMc, getMc_modMc]

theorem endRepair_cells (mc : Nat) (r : Repair) (f : Mc → Mc) (entry : Nat) : (endRepair mc r f entry s).hbm.cells = s.hbm.cells :=
  (memEdits_raise (memEdits_mapAdd (memEdits_modMc (memEdits_copyDram .refl _ _) _ _) _) _ _ _ _).cells

theorem mem_endRepair (mc : Nat) (r : Repair) (f : Mc → Mc) (entry : Nat) :
    BitVec.ofNat 64 entry ∈ (endRepair mc r f entry s).seedbank.entries :=
  (memEdits_raise .refl .memctl mc 2 _).canopyKept.entries (mem_mapAdd entry _)

theorem eventSet_endRepair (mc : Nat) (r : Repair) (f : Mc → Mc) (entry : Nat) : eventSet (endRepair mc r f entry s) .memctl mc 2 :=
  eventSet_raise .memctl mc _ _ (by decide)

/-! ## The failure of a stack (R234) -/

theorem stackFail_answers {mc : Fin 8} (h : mcLive s mc.val = true) : Answers (.stackFail mc) s
    (stopDevice 0x21 (raise .memctl mc.val 5 (.args 0 0) (modMc mc.val (fun m => { m with trained := false }) s))) := if_pos h

theorem stackFail_untrained (mc : Fin 8) (n : Note) :
    (getMc (stopDevice 0x21 (raise .memctl mc.val 5 n (modMc mc.val (fun m => { m with trained := false }) s))) mc.val).trained =
      false := by
  rw [getMc_of_map (stopDevice_trained ..), getMc, raise_mcs, ← getMc, getMc_modMc]

theorem stackFail_stops {mc : Nat} (n : Note) (hrun : s.boot.st = .run) (hstop : s.boot.stopping = none) :
    (stopDevice 0x21 (raise .memctl mc 5 n (modMc mc (fun m => { m with trained := false }) s))).boot.stopping = some 0x21 := by
  have hboot : (raise .memctl mc 5 n (modMc mc (fun m => { m with trained := false }) s)).boot = s.boot :=
    (LayerEdits.mem .refl (memEdits_raise (memEdits_modMc .refl ..) ..)).boot
  rw [(stopDevice_run 0x21 (by rw [hboot, hrun]) (by rw [hboot, hstop])).boot]

end

end Sys2Proof.Machine

/-! SUPPORT. The memory controllers: the answer to a read. -/

namespace Sys2Proof.Machine

open Sys2Proof.Spec (Answers eventSet)

/-! ## Transfers at another place -/

section
variable {s : State} {x y : Xfer}

theorem not_sameXfer_of_key {z : Xfer} (h : sameXfer y x = false) (hz : z.nib = x.nib ∧ z.seq = x.seq ∧ z.row = x.row) :
    sameXfer y z = false := by
  obtain ⟨hn, hs, hr⟩ := hz
  simpa [sameXfer, hn, hs, hr] using h

theorem findXfer_dropXfer_ne (h : sameXfer y x = false) :
    findXfer (dropXfer y s) x.nib x.seq x.row = findXfer s x.nib x.seq x.row := by
  rw [findXfer, dropXfer, List.find?_filter, findXfer]
  refine congrArg (List.find? · s.canopy.xfers) (funext fun z => ?_)
  by_cases hz : (z.nib == x.nib && z.seq == x.seq && z.row == x.row) = true
  · rw [not_sameXfer_of_key h (by simpa [and_assoc] using hz), hz]
    rfl
  · simp [hz]

theorem findXfer_setXfer_ne (h : sameXfer y x = false) :
    findXfer (setXfer y s) x.nib x.seq x.row = findXfer s x.nib x.seq x.row := by
  rw [findXfer, setXfer, List.find?_map]
  have hkey : ((fun z : Xfer => z.nib == x.nib && z.seq == x.seq && z.row == x.row) ∘ fun z => if sameXfer y z then y else z) =
      fun z : Xfer => z.nib == x.nib && z.seq == x.seq && z.row == x.row := by
    funext z
    rw [Function.comp_apply]
    split
    · next hz =>
      obtain ⟨hn, hs, hr⟩ := sameXfer_iff.mp hz
      rw [hn, hs, hr]
    · rfl
  rw [hkey, ← findXfer]
  cases hf : findXfer s x.nib x.seq x.row with
  | none => rfl
  | some z =>
    have hz := not_sameXfer_of_key h (key_of_findXfer hf)
    simp [hz]

end

/-! ## The read of a row (R224) -/

section
variable {s : State}

theorem memUe_event (mc cw : Nat) (poisoned : Bool) : eventSet (memUe mc cw poisoned s) .memctl mc 1 :=
  (memEdits_startRepair .refl _ _ _).canopyKept.events _ _ _ (by decide) (eventSet_raise .memctl mc _ _ (by decide))

/-- A row with a codeword that cannot be corrected raises MEM_UE. -/
theorem checkRow_event {row : Nat} (back : Bool) (h : stackBad s row ≠ []) : eventSet (checkRow row back s) .memctl (mcOf row) 1 := by
  unfold checkRow
  dsimp only
  split
  · next hues =>
    rw [stackBad, hues] at h
    exact absurd rfl h
  · exact memUe_event ..

theorem readRowAt_event {al : Alloc} {row : Nat} (h : (readRowAt al row s).1 ≠ []) :
    eventSet (readRowAt al row s).2 .memctl (mcOf row) 1 := by
  revert h
  unfold readRowAt
  dsimp only
  generalize settleLine row (awaitRepair row s) = t
  by_cases hcache : inCache t row = true
  · rw [if_pos hcache]
    split
    · exact fun h => absurd rfl h
    · split
      · exact fun h => absurd rfl h
      · exact fun _ => memUe_event ..
  · rw [if_neg hcache]
    generalize (if mscMode t (mcOf row) = 1 then addPair (regAt .memctl (mcOf row) 0x60) 1 t else t) = u
    intro hbad
    rw [if_neg fun hc => hbad hc.2.2]
    exact checkRow_event (s := openPage row u) true hbad

/-- The row's waiting reads all take one answer; an answer without data comes with MEM_UE. -/
theorem serveReads_answer {row : Nat} {x : Xfer} (hx : x ∈ s.canopy.xfers) (hw : waitsFor row x = true) : ∃ a : Option Row,
    (serveReads row s).canopy = { s.canopy with
      xfers := s.canopy.xfers.map (fun y => if waitsFor row y then { y with early := some a } else y) } ∧
    (a = none → eventSet (serveReads row s) .memctl (mcOf row) 1) := by
  unfold serveReads
  split
  · next hnone => exact absurd hw (List.find?_eq_none.mp hnone x hx)
  · next z _ =>
    have hcanopy := readRowAt_canopy (s := s) (xferAlloc z) row
    have hevent := @readRowAt_event s (xferAlloc z) row
    generalize readRowAt (xferAlloc z) row s = q at hcanopy hevent ⊢
    obtain ⟨bad, t⟩ := q
    refine ⟨if bad = [] then some (BitVec.ofNat 4096 (ofBytes (t.hbm.read row 512))) else none, ?_, fun ha => ?_⟩
    · dsimp only at hcanopy ⊢
      rw [hcanopy]
    · exact hevent fun hb : bad = [] => by simp [hb] at ha

/-! ## The answers are sent -/

/-- A served read that is still under way takes its answer. -/
def sendServed (y : Xfer) (s : State) : State :=
  match findXfer s y.nib y.seq y.row, y.early with
  | some _, some answer => deliverRead y answer s
  | _, _ => s

theorem sendServed_found {y z : Xfer} {a : Option Row} (hf : findXfer s y.nib y.seq y.row = some z) (ha : y.early = some a) :
    sendServed y s = deliverRead y a s := by
  rw [sendServed, hf, ha]

theorem sendServed_lost {y : Xfer} (hf : findXfer s y.nib y.seq y.row = none) : sendServed y s = s := by
  rw [sendServed, hf]

theorem mcRead_answers {mc : Fin 8} {tag : Fin 4096} {aged : Bool} {x : Xfer} (htag : readOfTag s mc.val tag.val = some x)
    (hdue : readDue aged s x = true) (hearly : x.early = none) : Answers (.mcRead mc tag aged []) s
    (forEach (servedReads (serveReads x.place s) x.place) sendServed (serveReads x.place s)) := by
  change execMcRead mc tag aged [] s = _
  unfold execMcRead
  dsimp only
  rw [show addErrs mc.val [] s = s from rfl, htag]
  dsimp only
  rw [hdue, hearly]
  rfl

/-- A read on its way back with its data. -/
def flyingRead (y : Xfer) (v : Row) : Xfer := { y with st := .flying, data := v, early := none }

/-- A read with its data sets out on its eight flits. -/
theorem deliverRead_data {y : Xfer} (v : Row) (hk : y.kind ≠ .hint) :
    (deliverRead y (some v) s).canopy.xfers = (setXfer (flyingRead y v) s).canopy.xfers ∧
    (deliverRead y (some v) s).canopy.flits.length = s.canopy.flits.length + 8 ∧ (deliverRead y (some v) s).hbm = s.hbm := by
  have hmove (c : Nat) : (moveBytes c 0xA0 512 s).canopy = s.canopy ∧ (moveBytes c 0xA0 512 s).hbm = s.hbm := by
    obtain ⟨r, k, h⟩ := moveBytes_frame c 0xA0 512 s
    rw [h]
    exact ⟨rfl, rfl⟩
  unfold deliverRead
  split
  · next h => exact absurd h hk
  · next heq _ => cases heq
  · next heq _ =>
    cases heq
    extract_lets u z dest
    have hkept : u.canopy = s.canopy ∧ u.hbm = s.hbm := by
      unfold u
      split
      · exact hmove _
      · exact ⟨rfl, rfl⟩
    obtain ⟨hcanopy, hhbm⟩ := hkept
    refine ⟨?_, ?_, hhbm⟩
    · change (setXfer z u).canopy.xfers = _
      rw [setXfer, hcanopy]
      rfl
    · simp [sendFlits, setXfer, hcanopy]

theorem deliverRead_hint {y : Xfer} (a : Option Row) (hk : y.kind = .hint) : deliverRead y a s = dropXfer y s := by
  unfold deliverRead
  rw [hk]

/-- A read whose answer is a failure is taken out, and its descriptor fails. -/
theorem deliverRead_fails (y : Xfer) : LayerEdits (dropXfer y s) (deliverRead y none s) := by
  unfold deliverRead
  split
  · exact .refl
  · dsimp only
    split
    · exact layerEdits_replayError (layerEdits_modNib .refl _ _) _ _ _
    · exact layerEdits_modNib .refl _ _
  · next heq _ => cases heq

/-- Along a list, what each step keeps and one step makes holds at the end. -/
theorem forEach_establishes {α : Type} {f : α → State → State} {P Q : State → Prop} {a : α} {l : List α} (ha : a ∈ l)
    (hP : ∀ y ∈ l, ∀ u, P u → P (f y u)) (hQ : ∀ y ∈ l, ∀ u, Q u → Q (f y u)) (hPQ : ∀ u, P u → Q (f a u)) (h : P s) :
    Q (forEach l f s) := by
  obtain ⟨l₁, l₂, rfl⟩ := List.append_of_mem ha
  have hfirst : P (forEach l₁ f s) := List.foldlRecOn (motive := P) _ _ h fun u k y hy => hP y (List.mem_append_left _ hy) u k
  have hlast : Q (forEach l₂ f (f a (forEach l₁ f s))) := List.foldlRecOn (motive := Q) _ _ (hPQ _ hfirst)
    fun u k y hy => hQ y (List.mem_append_right _ (List.mem_cons_of_mem _ hy)) u k
  simpa [forEach] using hlast

section
variable {x : Xfer} {l : List Xfer}

/-- A step of the loop leaves a read at another place where it is, takes no flit away and leaves HBM as it is. -/
theorem sendServed_data {y : Xfer} {v : Row} (ha : y.early = some (some v)) :
    (sameXfer y x = false → findXfer (sendServed y s) x.nib x.seq x.row = findXfer s x.nib x.seq x.row) ∧
    s.canopy.flits.length ≤ (sendServed y s).canopy.flits.length ∧ (sendServed y s).hbm = s.hbm := by
  cases hf : findXfer s y.nib y.seq y.row with
  | none =>
    rw [sendServed_lost hf]
    exact ⟨fun _ => rfl, le_rfl, rfl⟩
  | some z =>
    rw [sendServed_found hf ha]
    by_cases hk : y.kind = .hint
    · rw [deliverRead_hint _ hk]
      exact ⟨findXfer_dropXfer_ne, le_rfl, rfl⟩
    · obtain ⟨hxfers, hflits, hhbm⟩ := deliverRead_data (s := s) v hk
      refine ⟨fun hne => ?_, by omega, hhbm⟩
      rw [findXfer, hxfers]
      exact findXfer_setXfer_ne (y := flyingRead y v) hne

/-- The step for a read that is under way sends its row. -/
theorem sendServed_sends {v : Row} (ha : x.early = some (some v)) (hk : x.kind ≠ .hint)
    (hf : (findXfer s x.nib x.seq x.row).isSome = true) :
    findXfer (sendServed x s) x.nib x.seq x.row = some (flyingRead x v) ∧
    (sendServed x s).canopy.flits.length = s.canopy.flits.length + 8 := by
  obtain ⟨z, hz⟩ := Option.isSome_iff_exists.mp hf
  obtain ⟨hxfers, hflits, -⟩ := deliverRead_data (s := s) v hk
  rw [sendServed_found hz ha]
  refine ⟨?_, hflits⟩
  rw [findXfer, hxfers]
  exact findXfer_setXfer (y := flyingRead x v) hz rfl rfl rfl

/-- Served with data, a read sets out with its row, whatever the other reads of the row do. -/
theorem servedReads_send {v : Row} (hx : x ∈ l) (hk : x.kind ≠ .hint) (hf : (findXfer s x.nib x.seq x.row).isSome = true)
    (hearly : ∀ y ∈ l, y.early = some (some v)) (huniq : ∀ y ∈ l, sameXfer y x = true → y = x) :
    findXfer (forEach l sendServed s) x.nib x.seq x.row = some (flyingRead x v) ∧
    s.canopy.flits.length + 8 ≤ (forEach l sendServed s).canopy.flits.length ∧ (forEach l sendServed s).hbm = s.hbm := by
  refine forEach_establishes (s := s) (f := sendServed)
    (P := fun u => (findXfer u x.nib x.seq x.row).isSome = true ∧ s.canopy.flits.length ≤ u.canopy.flits.length ∧ u.hbm = s.hbm)
    (Q := fun u => findXfer u x.nib x.seq x.row = some (flyingRead x v) ∧ s.canopy.flits.length + 8 ≤ u.canopy.flits.length ∧
      u.hbm = s.hbm)
    hx (fun y hy u ⟨hfound, hlen, hhbm⟩ => ?_) (fun y hy u ⟨hfound, hlen, hhbm⟩ => ?_)
    (fun u ⟨hfound, hlen, hhbm⟩ => ?_) ⟨hf, le_rfl, rfl⟩
  · obtain ⟨hother, hmore, hkeep⟩ := sendServed_data (s := u) (x := x) (hearly y hy)
    refine ⟨?_, hlen.trans hmore, hkeep.trans hhbm⟩
    by_cases hsame : sameXfer y x = true
    · obtain rfl := huniq y hy hsame
      rw [(sendServed_sends (hearly y hy) hk hfound).1]
      rfl
    · rwa [hother (by simpa using hsame)]
  · obtain ⟨hother, hmore, hkeep⟩ := sendServed_data (s := u) (x := x) (hearly y hy)
    refine ⟨?_, hlen.trans hmore, hkeep.trans hhbm⟩
    by_cases hsame : sameXfer y x = true
    · obtain rfl := huniq y hy hsame
      exact (sendServed_sends (hearly y hy) hk (by rw [hfound]; rfl)).1
    · rwa [hother (by simpa using hsame)]
  · obtain ⟨hflying, hmore⟩ := sendServed_sends (hearly x hx) hk hfound
    exact ⟨hflying, by omega, (sendServed_data (x := x) (hearly x hx)).2.2.trans hhbm⟩

theorem sendServed_fails {y : Xfer} (ha : y.early = some none) : LayerEdits s (sendServed y s) := by
  cases hf : findXfer s y.nib y.seq y.row with
  | none =>
    rw [sendServed_lost hf]
  | some z =>
    rw [sendServed_found hf ha]
    exact (layerEdits_dropXfer .refl y).trans (deliverRead_fails y)

theorem sendServed_gone (ha : x.early = some none) : findXfer (sendServed x s) x.nib x.seq x.row = none := by
  cases hf : findXfer s x.nib x.seq x.row with
  | none => rwa [sendServed_lost hf]
  | some z =>
    rw [sendServed_found hf ha]
    exact (deliverRead_fails x).canopyKept.findXfer_none (findXfer_dropXfer_key s x)

/-- Served without data, a read is taken out, and the EVENT bits stay. -/
theorem servedReads_fail (hx : x ∈ l) (hearly : ∀ y ∈ l, y.early = some none) :
    findXfer (forEach l sendServed s) x.nib x.seq x.row = none ∧ CanopyKept s (forEach l sendServed s) := by
  refine forEach_establishes (s := s) (f := sendServed) (P := fun u => CanopyKept s u)
    (Q := fun u => findXfer u x.nib x.seq x.row = none ∧ CanopyKept s u)
    hx (fun y hy u h => ?_) (fun y hy u ⟨hgone, h⟩ => ?_) (fun u h => ?_) (.refl s)
  · exact h.trans (sendServed_fails (hearly y hy)).canopyKept
  · have hstep := (sendServed_fails (s := u) (hearly y hy)).canopyKept
    exact ⟨hstep.findXfer_none hgone, h.trans hstep⟩
  · exact ⟨sendServed_gone (hearly x hx), h.trans (sendServed_fails (hearly x hx)).canopyKept⟩

end

/-! ## The read's answer, in the statement's terms -/

section
variable {x : Xfer} {answer : Option Row}

/-- The reads that are served with `x`: they all take its answer, and at its place there is no other. -/
theorem servedReads_serveReads (hx : x ∈ s.canopy.xfers) (hw : waitsFor x.place x = true)
    (hnone : ∀ y ∈ s.canopy.xfers, y.place / 512 = x.place / 512 → y.early = none)
    (huniq : ∀ y ∈ s.canopy.xfers, sameXfer x y = true → y = x)
    (hfind : findXfer (serveReads x.place s) x.nib x.seq x.row = some { x with early := some answer }) :
    { x with early := some answer } ∈ servedReads (serveReads x.place s) x.place ∧
    (∀ y ∈ servedReads (serveReads x.place s) x.place, y.early = some answer ∧
      (sameXfer y x = true → y = { x with early := some answer })) ∧
    (serveReads x.place s).canopy.flits = s.canopy.flits ∧
    (answer = none → eventSet (serveReads x.place s) .memctl (mcOf x.place) 1) := by
  obtain ⟨a, hcanopy, hevent⟩ := serveReads_answer hx hw
  have hserved (y : Xfer) (hy : y ∈ servedReads (serveReads x.place s) x.place) :
      ∃ z ∈ s.canopy.xfers, y = { z with early := some a } := by
    obtain ⟨hmem, hp⟩ := List.mem_filter.mp hy
    simp only [Bool.and_eq_true, beq_iff_eq] at hp
    obtain ⟨hplace, hsome⟩ := hp
    rw [hcanopy] at hmem
    obtain ⟨z, hz, hzy⟩ := List.mem_map.mp hmem
    refine ⟨z, hz, ?_⟩
    split at hzy
    · exact hzy.symm
    · subst hzy
      rw [hnone z hz hplace] at hsome
      cases hsome
  have hmem : { x with early := some a } ∈ servedReads (serveReads x.place s) x.place := by
    refine List.mem_filter.mpr ⟨?_, by simp⟩
    rw [hcanopy]
    exact List.mem_map.mpr ⟨x, hx, if_pos hw⟩
  have hanswer : a = answer := by
    have hin := List.mem_of_find?_eq_some hfind
    have hsrv : { x with early := some answer } ∈ servedReads (serveReads x.place s) x.place :=
      List.mem_filter.mpr ⟨hin, by simp⟩
    obtain ⟨z, -, hz⟩ := hserved _ hsrv
    exact (Option.some.inj (congrArg Xfer.early hz)).symm
  subst hanswer
  refine ⟨hmem, fun y hy => ?_, by rw [hcanopy], hevent⟩
  obtain ⟨z, hz, rfl⟩ := hserved y hy
  refine ⟨rfl, fun hsame => ?_⟩
  obtain ⟨hn, hs, hr⟩ := sameXfer_iff.mp hsame
  rw [huniq z hz (sameXfer_iff.mpr ⟨hn.symm, hs.symm, hr.symm⟩)]

end

end

end Sys2Proof.Machine

/-! OBLIGATION O57. The memory controllers. -/

namespace Sys2Proof.Machine

open Sys2Proof.Spec (Answers eventSet)

section
variable {s : State}

/-- The transfer that holds a tag is the one that the controller reads for, where no read has left the tag early. -/
theorem readOfTag_of_tag {mc tag : Nat} {x : Xfer} (hleft : ∀ y ∈ s.canopy.xfers, y.st = .left tag → mcOf y.place ≠ mc)
    (htag : s.canopy.xfers.find? (fun x => x.st == .tag tag && mcOf x.place == mc) = some x) : readOfTag s mc tag = some x := by
  have hnone : s.canopy.xfers.find? (fun x => x.st == .left tag && mcOf x.place == mc) = none :=
    List.find?_eq_none.mpr fun y hy => by simpa using hleft y hy
  rw [readOfTag, hnone, htag]

theorem waitsFor_of_tag {x : Xfer} {k : Nat} (hst : x.st = .tag k) (hearly : x.early = none) : waitsFor x.place x = true := by
  rw [waitsFor, hst, hearly]
  simp

/-- A read that is due and finds its row sends it, or fails with MEM_UE. -/
theorem mcRead_served {mc : Fin 8} {tag : Fin 4096} {aged : Bool} {x : Xfer} {answer : Option Row}
    (hleft : ∀ y ∈ s.canopy.xfers, y.st = .left tag.val → mcOf y.place ≠ mc.val)
    (htag : s.canopy.xfers.find? (fun x => x.st == .tag tag.val && mcOf x.place == mc.val) = some x)
    (hk : x.kind ≠ .hint) (hdue : readDue aged s x = true)
    (hnone : ∀ y ∈ s.canopy.xfers, y.place / 512 = x.place / 512 → y.early = none)
    (huniq : ∀ y ∈ s.canopy.xfers, sameXfer x y = true → y = x)
    (hfind : findXfer (serveReads x.place s) x.nib x.seq x.row = some { x with early := some answer }) :
    ∃ t, Answers (.mcRead mc tag aged []) s t ∧
      (∀ v, answer = some v → findXfer t x.nib x.seq x.row = some (flyingRead x v) ∧
        s.canopy.flits.length + 8 ≤ t.canopy.flits.length ∧ t.hbm.cells = s.hbm.cells) ∧
      (answer = none → findXfer t x.nib x.seq x.row = none ∧ eventSet t .memctl mc.val 1) := by
  have hx := List.mem_of_find?_eq_some htag
  have hearly := hnone x hx rfl
  have hplace := List.find?_some htag
  simp only [Bool.and_eq_true, beq_iff_eq] at hplace
  obtain ⟨hst, hmc⟩ := hplace
  obtain ⟨hmem, hall, hflits, hevent⟩ := servedReads_serveReads hx (waitsFor_of_tag hst hearly) hnone huniq hfind
  refine ⟨_, mcRead_answers (readOfTag_of_tag hleft htag) hdue hearly, fun v hv => ?_, fun hv => ?_⟩
  · subst hv
    obtain ⟨hflying, hmore, hhbm⟩ := servedReads_send (x := { x with early := some (some v) }) hmem hk (Option.isSome_of_eq_some hfind)
      (fun y hy => (hall y hy).1) fun y hy => (hall y hy).2
    refine ⟨hflying, by rwa [hflits] at hmore, ?_⟩
    rw [hhbm, (memEdits_serveReads .refl _).cells]
  · subst hv
    obtain ⟨hgone, hkept⟩ := servedReads_fail hmem fun y hy => (hall y hy).1
    exact ⟨hgone, hkept.events _ _ _ (by decide) (hmc ▸ hevent rfl)⟩

/-- A repair ends as a soft repair, as a remap, or with the pool full. -/
theorem pprDone_ends {mc : Fin 8} {held : Bool} {r : Repair} {rest : List Repair} (h : (getMc s mc.val).repairs = r :: rest) :
    ∃ t, Answers (.pprDone mc held) s t ∧ (getMc t mc.val).repairs = rest ∧ t.hbm.cells = s.hbm.cells ∧
      ((held && !softUsed (getMc s mc.val) (bankOf r.key)) = true → (getMc t mc.val).soft = (getMc s mc.val).soft + 1 ∧
        (getMc t mc.val).slots = (getMc s mc.val).slots ∧ eventSet t .memctl mc.val 2 ∧
        BitVec.ofNat 64 (mapEntry 9 (dramField mc.val r.key)) ∈ t.seedbank.entries) ∧
      (∀ k, (held && !softUsed (getMc s mc.val) (bankOf r.key)) = false → freeRemap s mc.val = some k →
        (getMc t mc.val).slots = (getMc s mc.val).slots + 1 ∧ eventSet t .memctl mc.val 2 ∧
        BitVec.ofNat 64 (mapEntry 10 (dramField mc.val r.key + 2 ^ 30 * k)) ∈ t.seedbank.entries) ∧
      ((held && !softUsed (getMc s mc.val) (bankOf r.key)) = false → freeRemap s mc.val = none →
        (getMc t mc.val).slots = (getMc s mc.val).slots ∧ eventSet t .memctl mc.val 3) := by
  obtain ⟨htaken, hsoftTaken, hslotsTaken⟩ := getMc_takeRepair (s := s) mc r rest
  obtain ⟨hcopied, hsoftCopied, hslotsCopied⟩ := copyDram_repairs (s := takeRepair mc.val r rest s) mc.val r.key mc.val
  cases hsoft : held && !softUsed (getMc s mc.val) (bankOf r.key) with
  | true =>
    refine ⟨_, pprDone_soft h hsoft, ?_, endRepair_cells .., fun _ => ⟨?_, ?_, eventSet_endRepair .., mem_endRepair ..⟩, ?_, ?_⟩
    · rw [getMc_endRepair]
      exact hcopied.trans htaken
    · rw [getMc_endRepair]
      exact congrArg (· + 1) (hsoftCopied.trans hsoftTaken)
    · rw [getMc_endRepair]
      exact hslotsCopied.trans hslotsTaken
    · exact fun _ hf => Bool.noConfusion hf
    · exact fun hf => Bool.noConfusion hf
  | false =>
    cases hfree : freeRemap s mc.val with
    | some k =>
      refine ⟨_, pprDone_remap h hsoft hfree, ?_, endRepair_cells .., fun hf => Bool.noConfusion hf, fun j _ hj => ?_,
        fun _ hf => absurd hf (Option.some_ne_none k)⟩
      · rw [getMc_endRepair]
        exact hcopied.trans htaken
      · cases hj
        refine ⟨?_, eventSet_endRepair .., mem_endRepair ..⟩
        rw [getMc_endRepair]
        exact congrArg (· + 1) (hslotsCopied.trans hslotsTaken)
    | none =>
      have hmc : getMc (raise .memctl mc.val 3 (repairNote mc.val r) (takeRepair mc.val r rest s)) mc.val =
          getMc (takeRepair mc.val r rest s) mc.val := by
        rw [getMc, raise_mcs, getMc]
      refine ⟨_, pprDone_full h hsoft hfree, ?_, (memEdits_raise (memEdits_modMc .refl _ _) _ _ _ _).cells,
        fun hf => Bool.noConfusion hf, fun k _ hf => absurd hf.symm (Option.some_ne_none k),
        fun _ _ => ⟨?_, eventSet_raise _ _ _ _ (by decide)⟩⟩
      · rw [hmc, htaken]
      · rw [hmc, hslotsTaken]

/-- The patrol's next row. -/
theorem patrolRead_next {mc : Fin 8} (errs : List CwHit) (hlive : mcLive s mc.val = true)
    (hrate : getF s (regAt .memctl mc.val 0x44) 11 0 ≠ 0) (hwait : mcWaiting s mc.val = false) :
    ∃ t, Answers (.patrolRead mc errs) s t ∧ (getMc t mc.val).patrol = ((getMc s mc.val).patrol + 1) % mcRows ∧
      t.hbm.cells = s.hbm.cells ∧ (errs = [] → s.hbm.bad = [] → (getMc s mc.val).repairs = [] → t.hbm = s.hbm) := by
  obtain ⟨f, hf, hanswers⟩ := patrolRead_goes errs hlive hrate hwait
  refine ⟨_, hanswers, ?_, (memEdits_patrolRow ..).cells, fun herrs hbad hrepairs => ?_⟩
  · rw [getMc_modMc]
    exact hf _
  · subst herrs
    rw [modMc_hbm]
    exact patrolRow_hbm (mcOf_dpaOf mc.isLt _) hbad hrepairs

theorem refresh_temperature {mc : Fin 8} (bank : Fin 1024) (temp : Nat) (hlive : mcLive s mc.val = true) :
    ∃ t, Answers (.refresh mc bank temp) s t ∧ t = { s with mcs := t.mcs } ∧ (getMc t mc.val).tempC = min 255 temp ∧
      (getMc t mc.val).pages = tabErase (getMc s mc.val).pages (64 * (bank.val % 16) + bank.val / 16) := by
  refine ⟨_, refresh_answers bank temp hlive, rfl, ?_, ?_⟩
  · rw [setStackTemp, getMc_modMc]
  · rw [setStackTemp, getMc_modMc, getMc_modMc]

theorem stackFail_ends {mc : Fin 8} (hlive : mcLive s mc.val = true) : ∃ t, Answers (.stackFail mc) s t ∧
    (getMc t mc.val).trained = false ∧ eventSet t .memctl mc.val 5 ∧
    (s.boot.st = .run → s.boot.stopping = none → t.boot.stopping = some 0x21) :=
  ⟨_, stackFail_answers hlive, stackFail_untrained mc _,
    (stopDevice_kept _ _).events _ _ _ (by decide) (eventSet_raise .memctl mc.val _ _ (by decide)), stackFail_stops _⟩

end

/-- Settles O57. A request is answered by the branch that its bank and its kind choose; a read's answer is delivered along the list of
the row's reads, of which only its own step is at its place; and what the controllers do to memory are edits that keep its cells. -/
theorem memoryControllers : Obligations.MemoryControllers := by
  unfold Obligations.MemoryControllers
  intro s
  refine ⟨fun nib desc c st x full hc hold hfull => ?_, fun mc tag aged x answer => mcRead_served,
    fun mc errs => patrolRead_waits errs, fun mc errs => patrolRead_next errs, fun mc bank temp => refresh_temperature bank temp,
    fun mc held soft r rest m hm hr hsoft => ?_, fun mc => stackFail_ends⟩
  · have hanswers := request_answers hc hold
    obtain ⟨hx, -⟩ := oldestRequest_some hold
    rw [← bankFull_eq] at hfull
    subst hfull
    refine ⟨fun hfree hk k htag => ?_, fun hfree hk htag _ => ?_, fun hbusy hk => ?_, fun hk hrefused => ?_⟩
    · rw [requestMc_read hfree hk htag] at hanswers
      exact hanswers
    · rw [requestMc_write hfree hk htag] at hanswers
      exact ⟨_, hanswers, findXfer_acceptWrite x s, acceptWrite_byte x (dropXfer x s)⟩
    · rw [requestMc_busy hbusy hk] at hanswers
      exact ⟨_, hanswers, answerBusy_setXfer hx⟩
    · rw [requestMc_hint hk hrefused] at hanswers
      exact hanswers
  · subst hm hsoft
    exact pprDone_ends hr

end Sys2Proof.Machine

/-! SUPPORT. The Scribe: the configuration words, which no read of memory and no translation changes. -/

namespace Sys2Proof.Machine

open Sys2Proof.Spec

/-! ## Configuration words -/

/-- The words at offset 0x40 of every page, where the configuration stands, by page number. -/
def configOf (r : Tab Word32) (k : Nat) : Word32 := tabGet 0 r (0x1000 * k + 0x40)

/-- The FP8 overflow mode is read from one of them (R64). -/
theorem fp8Sat_of_configOf {s t : State} (h : configOf t.regs = configOf s.regs) : fp8Sat t = fp8Sat s := by
  have hword : getR t (regAt .numeric 0 0x40) = getR s (regAt .numeric 0 0x40) := congrArg BitVec.toNat (congrFun h 0xA)
  rw [fp8Sat, getF, hword, ← getF, ← fp8Sat]

/-- What is only reported changes none. -/
theorem Notes.configOf {s t : State} (h : Notes s t) : configOf t.regs = configOf s.regs :=
  funext fun k => BitVec.eq_of_toNat_eq (h.config (0x1000 * k + 0x40) (by omega))

theorem forEach_configOf {α : Type} (xs : List α) {f : α → State → State} {s : State}
    (hf : ∀ x u, configOf (f x u).regs = configOf u.regs) : configOf (forEach xs f s).regs = configOf s.regs := by
  induction xs generalizing s with
  | nil => rfl
  | cons x xs ih => exact ih.trans (hf x s)

theorem foldl_configOf {α β : Type} (xs : List α) {f : β × State → α → β × State} {p : β × State}
    (hf : ∀ q x, configOf (f q x).2.regs = configOf q.2.regs) : configOf (xs.foldl f p).2.regs = configOf p.2.regs := by
  induction xs generalizing p with
  | nil => rfl
  | cons x xs ih => exact ih.trans (hf p x)

section

variable {s : State}

/-! ## Words, events and the repair map -/

@[simp] theorem setR_configOf (p : Page) (j v : Nat) {off : Nat} (hlt : off < 0x1000) (h40 : off ≠ 0x40) :
    configOf (setR (regAt p j off) v s).regs = configOf s.regs :=
  ((Notes.refl s).setR v ((regAt_mod p j hlt).symm ▸ h40)).configOf

@[simp] theorem bump_configOf (p : Page) (j hi lo n : Nat) {off : Nat} (hlt : off < 0x1000) (h40 : off ≠ 0x40) :
    configOf (bump (regAt p j off) hi lo n s).regs = configOf s.regs := setR_configOf p j _ hlt h40

@[simp] theorem setPair_configOf (p : Page) (j v : Nat) {off : Nat} (hlt : off + 4 < 0x1000) (h40 : off ≠ 0x40) (h44 : off + 4 ≠ 0x40) :
    configOf (setPair (regAt p j off) v s).regs = configOf s.regs :=
  (setR_configOf p j (off := off + 4) _ hlt h44).trans (setR_configOf p j _ (by omega) h40)

@[simp] theorem addPair_configOf (p : Page) (j n : Nat) {off : Nat} (hlt : off + 4 < 0x1000) (h40 : off ≠ 0x40) (h44 : off + 4 ≠ 0x40) :
    configOf (addPair (regAt p j off) n s).regs = configOf s.regs := setPair_configOf p j _ hlt h40 h44

@[simp] theorem setEvent_configOf (p : Page) (j e : Nat) : configOf (setEvent p j e s).regs = configOf s.regs :=
  ((Notes.refl s).setEvent p j e).configOf

@[simp] theorem crossOf_configOf (full : Bool) (p : Page) : configOf (crossOf full p s).regs = configOf s.regs :=
  ((Notes.refl s).crossOf full p).configOf

@[simp] theorem raise_configOf (p : Page) (j e : Nat) (n : Note) : configOf (raise p j e n s).regs = configOf s.regs :=
  ((Notes.refl s).raise p j e n).configOf

@[simp] theorem countEvent_configOf (q p : Page) (j hi lo : Nat) {off : Nat} (hlt : off < 0x1000) (h40 : off ≠ 0x40) :
    configOf (countEvent q (regAt p j off) hi lo s).regs = configOf s.regs :=
  ((Notes.refl s).countEvent q p j hi lo ⟨hlt, h40⟩).configOf

@[simp] theorem mapAdd_configOf (e : Nat) : configOf (mapAdd e s).regs = configOf s.regs := by
  unfold mapAdd
  split <;> simp [mapChanged]

/-! ## Errors and repairs -/

@[simp] theorem errLast_configOf (mc dpa cls : Nat) : configOf (errLast mc dpa cls s).regs = configOf s.regs := by simp [errLast]

@[simp] theorem startRepair_regs (mc key : Nat) (ue : Bool) : (startRepair mc key ue s).regs = s.regs := by
  unfold startRepair
  dsimp only
  split <;> simp

@[simp] theorem noteCe_configOf (mc cw : Nat) : configOf (noteCe mc cw s).regs = configOf s.regs := by
  simp [noteCe]

@[simp] theorem memCe_configOf (mc cw : Nat) : configOf (memCe mc cw s).regs = configOf s.regs := by
  unfold memCe
  dsimp only
  split <;> simp

@[simp] theorem memUe_configOf (mc cw : Nat) (poisoned : Bool) : configOf (memUe mc cw poisoned s).regs = configOf s.regs := by
  simp [memUe]

@[simp] theorem injectError_configOf (row : Nat) : configOf (injectError row s).regs = configOf s.regs := by
  unfold injectError
  dsimp only
  split <;> simp

@[simp] theorem openPage_regs (dpa : Nat) : (openPage dpa s).regs = s.regs := rfl

@[simp] theorem stackWrite_configOf (row : Nat) (keep : Nat → Bool) : configOf (stackWrite row keep s).regs = configOf s.regs := by
  simp [stackWrite]

@[simp] theorem poisonRow_configOf (row : Nat) : configOf (poisonRow row s).regs = configOf s.regs := by simp [poisonRow]

@[simp] theorem checkRow_configOf (row : Nat) (back : Bool) : configOf (checkRow row back s).regs = configOf s.regs := by
  have hsingles (ps : List (Nat × CwErr)) : configOf (forEach ps (fun p s =>
      memCe (mcOf row) p.1 { s with hbm := { s.hbm with bad := tabErase s.hbm.bad p.1 } }) s).regs = configOf s.regs :=
    forEach_configOf ps fun _ _ => by simp
  unfold checkRow
  dsimp only
  repeat' split
  all_goals simp [hsingles]

@[simp] theorem copyDram_configOf (mc key : Nat) : configOf (copyDram mc key s).regs = configOf s.regs :=
  forEach_configOf _ fun _ _ => (stackWrite_configOf ..).trans (forEach_configOf _ fun _ _ => noteCe_configOf ..)

@[simp] theorem awaitRepair_configOf (dpa : Nat) : configOf (awaitRepair dpa s).regs = configOf s.regs :=
  forEach_configOf _ fun _ _ => copyDram_configOf ..

@[simp] theorem answerBusy_configOf (dpa : Nat) : configOf (answerBusy dpa s).regs = configOf s.regs := by simp [answerBusy]

/-! ## The memory-side cache -/

@[simp] theorem putLines_regs (dpa : Nat) (ls : List Line) : (putLines dpa ls s).regs = s.regs := rfl

@[simp] theorem dropLine_regs (dpa : Nat) : (dropLine dpa s).regs = s.regs := rfl

@[simp] theorem useLine_regs (l : Line) : (useLine l s).regs = s.regs := rfl

@[simp] theorem correctLine_configOf (l : Line) : configOf (correctLine l s).regs = configOf s.regs :=
  forEach_configOf _ fun _ _ => by simp [lineCe]

@[simp] theorem spillLine_configOf (l : Line) : configOf (spillLine l s).regs = configOf s.regs := by
  unfold spillLine
  repeat' split
  all_goals simp

@[simp] theorem dropWay_configOf (mc w : Nat) : configOf (dropWay mc w s).regs = configOf s.regs := by simp [dropWay]

@[simp] theorem reserveWay_configOf (mc slice fuel : Nat) : configOf (reserveWay mc slice fuel s).regs = configOf s.regs := by
  induction fuel generalizing s with
  | zero => rfl
  | succ fuel ih =>
    have hspill (ls : List Line) : configOf (forEach ls spillLine s).regs = configOf s.regs :=
      forEach_configOf ls fun l _ => spillLine_configOf l
    unfold reserveWay
    dsimp only
    repeat' split
    all_goals simp [ih, hspill]

@[simp] theorem judgeWay_configOf (l : Line) : configOf (judgeWay l s).regs = configOf s.regs := by
  have hspill (ls : List Line) : configOf (forEach ls spillLine s).regs = configOf s.regs :=
    forEach_configOf ls fun l _ => spillLine_configOf l
  unfold judgeWay retireWay
  split <;> simp [hspill]

@[simp] theorem insertLine_configOf (al : Alloc) (dpa : Nat) (dirty : Bool) (errs : Tab CwErr) :
    configOf (insertLine al dpa dirty errs s).regs = configOf s.regs := by
  unfold insertLine
  dsimp only
  repeat' split
  all_goals simp

@[simp] theorem settleLine_configOf (dpa : Nat) : configOf (settleLine dpa s).regs = configOf s.regs := by
  unfold settleLine
  repeat' split
  all_goals simp

/-! ## Reads of a row, and translation -/

@[simp] theorem readRowAt_configOf (al : Alloc) (row : Nat) : configOf (readRowAt al row s).2.regs = configOf s.regs := by
  unfold readRowAt
  dsimp only
  repeat' split
  all_goals simp

@[simp] theorem serveReads_configOf (row : Nat) : configOf (serveReads row s).regs = configOf s.regs := by
  unfold serveReads
  split <;> simp

@[simp] theorem leaveTag_configOf (x : Xfer) : configOf (leaveTag x s).regs = configOf s.regs := by
  unfold leaveTag
  split <;> simp

@[simp] theorem comeToBank_configOf (dpa : Nat) : configOf (comeToBank dpa s).regs = configOf s.regs := by
  unfold comeToBank
  dsimp only
  repeat' split
  all_goals simp

@[simp] theorem memReadAs_configOf (al : Alloc) (a n : Nat) : configOf (memReadAs al a n s).2.regs = configOf s.regs := by
  unfold memReadAs
  split
  next h =>
  refine (congrArg (fun q => configOf q.2.regs) h).symm.trans (foldl_configOf _ fun q x => ?_)
  dsimp only
  rw [readRowAt_configOf, comeToBank_configOf]

@[simp] theorem walkRead_configOf (table idx : Nat) : configOf (walkRead table idx s).2.regs = configOf s.regs := by
  simp [walkRead, memRead]

theorem walkLevels_configOf (c va : Nat) : configOf (walkLevels c va s).2.regs = configOf s.regs := by
  fun_cases walkLevels <;> grind -ring -linarith [walkRead_configOf]

@[simp] theorem walk_configOf (c va : Nat) : configOf (walk c va s).2.regs = configOf s.regs := by
  unfold walk
  split
  · rfl
  · exact (walkLevels_configOf ..).trans (bump_configOf .mmu 0 31 0 1 (by decide) (by decide))

@[simp] theorem translate_configOf (c va : Nat) (write : Bool) : configOf (translate c va write s).2.regs = configOf s.regs := by
  fun_cases translate <;> grind -ring -linarith [walk_configOf]

/-- The rows of a group are found by translation alone. -/
theorem imageRows_configOf (c : Nat) (d : UpdDesc) (j : Nat) (g : GroupData) :
    configOf (imageRows c d j g s).2.regs = configOf s.regs := by
  have hone (va : Nat) (vals : List Nat) (acc : List (Nat × Row) × State) : configOf (match translate c va true acc.2 with
      | (.inr _, s) => (acc.1, s)
      | (.inl dpa, s) => (acc.1 ++ rowsAt dpa (vals.flatMap (bytesOf 4)), s)).2.regs = configOf acc.2.regs := by
    rw [← translate_configOf c va true (s := acc.2)]
    split <;> next e => rw [e]
  exact (foldl_configOf _ fun _ _ => hone _ _ _).trans (hone _ _ _)

end

end Sys2Proof.Machine

/-! OBLIGATION O58. The Scribe: its groups, the commit and the watchdog. -/

namespace Sys2Proof.Machine

open Sys2Proof.Spec

section
variable {s : State} {mc : Fin 8} {ctx : Fin 256} {desc group j : Nat} {r : Record} {w : UpdWork} {t : UpdTensor}

/-! ## A group that its Scribe owns (R240, R243) -/

/-- A group of a running layer whose norm term or whose update is still to come. -/
structure GroupDue (s : State) (ctx desc group : Nat) (r : Record) (w : UpdWork) (t : UpdTensor) : Prop where
  layer : inLayer s ctx r .running
  work : (getCtx s ctx).upd = some w
  tensor : w.tensors[desc]? = some t
  listed : group < t.work
  todo : (w.phase = 3 ∧ t.normDue = true ∧ group ∉ t.normed) ∨ (w.phase = 4 ∧ ∀ e ∈ t.done, e.idx ≠ group)

/-- The Scribe that owns a group due finishes it in the layer's phase. -/
theorem scribeGroupDone_owned {u v : State} (h : GroupDue s ctx.val desc group r w t)
    (hlist : listedGroup ctx.val t.d group s = (.ok j, u)) (howner : groupOwner ctx.val t.d j u = (.ok mc.val, v)) :
    Answers (.scribeGroupDone mc ctx desc group) s
      (if w.phase = 3 then normGroup ctx.val desc group j w.lsExp t (modScribe mc.val (fun y => { y with stalled := none }) v)
        else applyGroup ctx.val mc.val desc group j r.step.toNat w.lsExp t (modScribe mc.val (fun y => { y with stalled := none }) v)) := by
  obtain ⟨⟨hrecord, hst, hphase⟩, hupd, htensor, hgroup, htodo⟩ := h
  have hdue : ((w.phase == 3 && t.normDue && !t.normed.contains group) ||
      (w.phase == 4 && !t.done.any (fun g => g.idx == group))) = true := by
    simpa [and_assoc] using htodo
  change execScribeGroupDone mc ctx desc group s = _
  simp only [execScribeGroupDone, hupd, hrecord, htensor, hst, hphase, hgroup, hdue, hlist, howner]
  rw [if_neg (by decide), if_neg (not_not_intro rfl)]

/-- The gradients of a group join the sum of its descriptor (R246). -/
theorem normGroup_sum {c : Nat} {ls : Int} {z q : State} {gr : List (Option Num)} {a : NormSum}
    (hread : readGrads c t.d group (t.d.inGroup j) z = (.ok gr, q))
    (ha : a = gr.foldl (fun a g => match g with
      | some G => normTerm t.d.clipAnchor ls a G
      | none => a) ⟨t.normSum, t.normNf⟩) :
    normGroup c desc group j ls t z =
      settleNorms c (setTensor c desc { t with normSum := a.sum, normNf := a.nf, normed := t.normed ++ [group] } q) := by
  rw [normGroup, hread]
  subst ha
  rfl

/-- A group of a tensor that is not lazy is computed, kept as it was and written; it is done once nothing faults (R250, R257). -/
theorem applyGroup_writes {c m step : Nat} {ls : Int} {z q y p : State} {g : GroupIn} {rows : List (Nat × Row)} {o : GroupOut}
    (hlazy : t.d.isLazy = false) (hread : readWork c t.d group j z = (.ok g, q)) (hrows : imageRows c t.d j g.data q = (rows, y))
    (ho : o = computeGroup t.d (corrOf t.d step) none ls t.factor (t.d.inGroup j) g.grads g.data)
    (hwrite : writeAll c (groupWrites (fp8Sat q) t.d j g.data o) (keepImage m ⟨false, c, desc, group, rows, none⟩ y) = (none, p)) :
    applyGroup c m desc group j step ls t z =
      settleApply c (doneGroup c desc t ⟨group, t.d.inGroup j - o.unchanged, o.unchanged, false, false⟩ p) := by
  have hsat : fp8Sat (keepImage m ⟨false, c, desc, group, rows, none⟩ y) = fp8Sat q :=
    fp8Sat_of_configOf ((congrArg (fun x => configOf x.2.regs) hrows).symm.trans (imageRows_configOf c t.d j g.data))
  subst ho
  simp only [applyGroup, hread, hlazy, hrows, Bool.false_and, Bool.false_eq_true, if_false, List.append_nil, hsat, hwrite]

/-! ## The commit (R243, R244) -/

theorem updateCommit_waits (hlayer : inLayer s ctx.val r .running) (hupd : (getCtx s ctx.val).upd = some w) (h : w.phase ≠ 5) :
    Answers (.updateCommit ctx) s s := by
  obtain ⟨hrecord, -, -⟩ := hlayer
  change execUpdateCommit ctx s = _
  simp [execUpdateCommit, hupd, hrecord, h]

theorem updateCommit_commits {u : State} (hlayer : inLayer s ctx.val r .running) (hupd : (getCtx s ctx.val).upd = some w)
    (h : w.phase = 5) (hwrite : scrWrite ctx.val (ucbVa s ctx.val) (Ucb.commit w.ucb r.step.toNat) s = (none, u)) :
    Answers (.updateCommit ctx) s (completeLayer ctx.val 1 (bump (regAt .scribe 0 0x50) 31 16 1 u)) := by
  obtain ⟨hrecord, hst, hphase⟩ := hlayer
  change execUpdateCommit ctx s = _
  simp only [execUpdateCommit, hupd, hrecord, hst, hphase, h, hwrite, and_self, if_true]

/-! ## The watchdog (R262) -/

/-- Raising an event changes what is reported, nothing else. -/
theorem reported_raise (p : Page) (j e : Nat) (n : Note) (s : State) : raise p j e n s = reported (raise p j e n s) s := by
  have hframe := ((Notes.refl s).raise p j e n).frame
  rwa [(memEdits_raise .refl p j e n).ctxs] at hframe

theorem scrStall_idle (h : scribeAt s mc.val = none) : Answers (.scrStall mc) s s := by
  change execScrStall mc s = _
  simp only [execScrStall, h]

theorem scrStall_reports {c phase i k : Nat} (hat : scribeAt s mc.val = some (c, phase, i, k))
    (hon : getF s (regAt .scribe 0 0x40) 11 0 ≠ 0) (hnew : (getScribe s mc.val).stalled ≠ some c) :
    ∃ t, Answers (.scrStall mc) s t ∧ eventSet t .scribe 0 7 ∧
      t = reported t { s with scribes := vset s.scribes mc.val { getScribe s mc.val with stalled := some c } } := by
  obtain ⟨n, hn⟩ : ∃ n, execScrStall mc s =
      .next (raise .scribe 0 7 n (setScribe mc.val { getScribe s mc.val with stalled := some c } s)) := by
    rw [execScrStall, hat]
    exact ⟨_, if_pos ⟨hon, hnew⟩⟩
  exact ⟨_, hn, eventSet_raise .scribe 0 n _ (by decide), reported_raise .scribe 0 7 n _⟩

end

/-- Settles O58. An owned group is finished by its phase's function: the norm term, or the update, whose narrow copies are rounded as FP8_OVF says
before the pre-image is kept, since translation writes no configuration word. -/
theorem scribeWork : Obligations.ScribeWork := by
  unfold Obligations.ScribeWork
  intro s
  refine ⟨fun mc ctx desc group j r w t u v hlayer hupd htensor hgroup hlist howner z hz => ⟨?norm, ?apply⟩,
    fun ctx r w hlayer hupd => ⟨updateCommit_waits hlayer hupd, fun u => updateCommit_commits hlayer hupd⟩,
    fun mc => scrStall_idle, fun mc c phase i k => scrStall_reports⟩
  case norm =>
    intro gr q hphase hnorm hnew hread
    have hanswers := scribeGroupDone_owned ⟨hlayer, hupd, htensor, hgroup, .inl ⟨hphase, hnorm, hnew⟩⟩ hlist howner
    rw [if_pos hphase, ← hz, normGroup_sum hread rfl] at hanswers
    exact ⟨_, rfl, hanswers⟩
  case apply =>
    intro g q rows y hphase hnew hlazy hread hrows o p ho hwrite
    have hanswers := scribeGroupDone_owned ⟨hlayer, hupd, htensor, hgroup, .inr ⟨hphase, hnew⟩⟩ hlist howner
    rwa [if_neg (by omega), ← hz, applyGroup_writes hlazy hread hrows ho hwrite] at hanswers

end Sys2Proof.Machine

/-! SUPPORT. The links: what the loss of a port, a fault of a layer and a pass of the Ranger leave of every port, of what was sent and of
the EVENT bits. -/

namespace Sys2Proof.Machine

open Sys2Proof.Spec (eventSet)

/-! ## What stays -/

theorem MemEdits.ports {s t : State} (h : MemEdits s t) : t.ports = s.ports := by
  induction h with
  | refl => rfl
  | tail _ e ih => exact Eq.trans (by cases e <;> rfl) ih

theorem getPort_of_ports {s t : State} (h : t.ports = s.ports) (q : Nat) : getPort t q = getPort s q := by rw [getPort, h, getPort]

/-- A port without the packets that are queued on it. -/
def Port.besidesQueue (x : Port) : Port := { x with txQ := [] }

/-- Every port is as it was but for packets queued on it, what was sent is still in the trace, and EVENT bits that were set still are. -/
structure PortsKept (s t : State) : Prop where
  ports : ∀ q, (getPort t q).besidesQueue = (getPort s q).besidesQueue
  outs : s.outs ⊆ t.outs
  events : ∀ p j e, e < 32 → eventSet s p j e → eventSet t p j e

namespace PortsKept

theorem refl (s : State) : PortsKept s s := ⟨fun _ => rfl, List.Subset.refl _, fun _ _ _ _ h => h⟩

theorem trans {s t u : State} (h : PortsKept s t) (k : PortsKept t u) : PortsKept s u :=
  ⟨fun q => (k.ports q).trans (h.ports q), List.Subset.trans h.outs k.outs, fun p j e he hs => k.events p j e he (h.events p j e he hs)⟩

variable {s t u : State} (h : PortsKept s t)
include h

/-- Nothing of this changes where the ports, the trace and the words stay. -/
theorem same (hp : u.ports = t.ports) (ho : u.outs = t.outs) (hr : u.regs = t.regs) : PortsKept s u := by
  refine h.trans ⟨fun q => congrArg _ (getPort_of_ports hp q), by rw [ho]; exact List.Subset.refl _, fun p j e _ hs => ?_⟩
  rwa [eventSet, getR, hr]

/-- An access of memory keeps the ports and the EVENT bits; the trace is to be looked at. -/
theorem mem (e : MemEdits t u) (ho : t.outs ⊆ u.outs) : PortsKept s u := by
  exact h.trans ⟨fun q => congrArg _ (getPort_of_ports e.ports q), ho, e.canopyKept.events⟩

theorem seedbank (b : Seedbank) : PortsKept s { t with seedbank := b } := h.same rfl rfl rfl

omit h in
/-- What answered a result is the state that came with it. -/
theorem of_eq {α : Type} {q : α × State} {r : α} (h : PortsKept s q.2) (e : q = (r, t)) : PortsKept s t := by
  subst e
  exact h

end PortsKept

@[simp] theorem portsKept_ite {s a b : State} (c : Prop) [Decidable c] :
    PortsKept s (if c then a else b) ↔ if c then PortsKept s a else PortsKept s b := by
  split <;> rfl

section

variable {s₀ s : State}

theorem ite_portsKept {a b : State} {c : Prop} [Decidable c] (ha : PortsKept s₀ a) (hb : PortsKept s₀ b) :
    PortsKept s₀ (if c then a else b) := by
  split
  · exact ha
  · exact hb

/-! ## Registers, units, messages and events -/

@[simp] theorem takeFree_portsKept (h : PortsKept s₀ s) : PortsKept s₀ (takeFree s) := h.same rfl rfl rfl
@[simp] theorem modCtx_portsKept (c : Nat) (f : Ctx → Ctx) (h : PortsKept s₀ s) : PortsKept s₀ (modCtx c f s) := h.same rfl rfl rfl
@[simp] theorem setCtx_portsKept (c : Nat) (x : Ctx) (h : PortsKept s₀ s) : PortsKept s₀ (setCtx c x s) := h.same rfl rfl rfl
@[simp] theorem modNib_portsKept (n : Nat) (f : Nib → Nib) (h : PortsKept s₀ s) : PortsKept s₀ (modNib n f s) := h.same rfl rfl rfl
@[simp] theorem setNib_portsKept (n : Nat) (x : Nib) (h : PortsKept s₀ s) : PortsKept s₀ (setNib n x s) := h.same rfl rfl rfl
@[simp] theorem modPNib_portsKept (n : Nat) (f : PNib → PNib) (h : PortsKept s₀ s) : PortsKept s₀ (modPNib n f s) := h.same rfl rfl rfl
@[simp] theorem setPNib_portsKept (n : Nat) (x : PNib) (h : PortsKept s₀ s) : PortsKept s₀ (setPNib n x s) := h.same rfl rfl rfl
@[simp] theorem modGrove_portsKept (g : Nat) (f : Grove → Grove) (h : PortsKept s₀ s) : PortsKept s₀ (modGrove g f s) := h.same rfl rfl rfl
@[simp] theorem setGrove_portsKept (g : Nat) (x : Grove) (h : PortsKept s₀ s) : PortsKept s₀ (setGrove g x s) := h.same rfl rfl rfl
@[simp] theorem modMc_portsKept (m : Nat) (f : Mc → Mc) (h : PortsKept s₀ s) : PortsKept s₀ (modMc m f s) := h.same rfl rfl rfl
@[simp] theorem setMc_portsKept (m : Nat) (x : Mc) (h : PortsKept s₀ s) : PortsKept s₀ (setMc m x s) := h.same rfl rfl rfl
@[simp] theorem modScribe_portsKept (m : Nat) (f : Scribe → Scribe) (h : PortsKept s₀ s) : PortsKept s₀ (modScribe m f s) :=
  h.same rfl rfl rfl
@[simp] theorem setScribe_portsKept (m : Nat) (x : Scribe) (h : PortsKept s₀ s) : PortsKept s₀ (setScribe m x s) := h.same rfl rfl rfl
@[simp] theorem modLig_portsKept (f : Lig → Lig) (h : PortsKept s₀ s) : PortsKept s₀ (modLig f s) := h.same rfl rfl rfl
@[simp] theorem modStep_portsKept (f : LigStep → LigStep) (h : PortsKept s₀ s) : PortsKept s₀ (modStep f s) := h.same rfl rfl rfl
@[simp] theorem modBucket_portsKept (b : Nat) (f : Bucket → Bucket) (h : PortsKept s₀ s) : PortsKept s₀ (modBucket b f s) :=
  h.same rfl rfl rfl

@[simp] theorem emit_portsKept (o : Out) (h : PortsKept s₀ s) : PortsKept s₀ (emit o s) :=
  h.trans ⟨fun _ => rfl, List.subset_cons_self _ _, fun _ _ _ _ h => h⟩

@[simp] theorem setF_portsKept (p : Page) (j : Nat) {off : Nat} (hi lo v : Nat) (ho : off < 0x1000 ∧ off ≠ 0x10) (h : PortsKept s₀ s) :
    PortsKept s₀ (setF (regAt p j off) hi lo v s) := h.mem (memEdits_setF .refl p j hi lo v ho) (List.Subset.refl _)

@[simp] theorem bump_portsKept (p : Page) (j : Nat) {off : Nat} (hi lo n : Nat) (ho : off < 0x1000 ∧ off ≠ 0x10) (h : PortsKept s₀ s) :
    PortsKept s₀ (bump (regAt p j off) hi lo n s) := setF_portsKept p j hi lo _ ho h

@[simp] theorem setPair_portsKept (p : Page) (j : Nat) {off : Nat} (v : Nat) (ho : off < 0x1000 ∧ off ≠ 0x10)
    (ho4 : off + 4 < 0x1000 ∧ off + 4 ≠ 0x10) (h : PortsKept s₀ s) : PortsKept s₀ (setPair (regAt p j off) v s) :=
  h.mem (memEdits_setPair .refl p j v ho ho4) (List.Subset.refl _)

@[simp] theorem addPair_portsKept (p : Page) (j : Nat) {off : Nat} (n : Nat) (ho : off < 0x1000 ∧ off ≠ 0x10)
    (ho4 : off + 4 < 0x1000 ∧ off + 4 ≠ 0x10) (h : PortsKept s₀ s) : PortsKept s₀ (addPair (regAt p j off) n s) :=
  setPair_portsKept p j _ ho ho4 h

@[simp] theorem countEvent_portsKept (q p : Page) (j : Nat) {off : Nat} (hi lo : Nat) (ho : off < 0x1000 ∧ off ≠ 0x10)
    (h : PortsKept s₀ s) : PortsKept s₀ (countEvent q (regAt p j off) hi lo s) := by
  unfold countEvent
  split
  · exact h
  · exact bump_portsKept p j hi lo 1 ho h

@[simp] theorem sendMsix_portsKept (fn vec : Nat) (h : PortsKept s₀ s) : PortsKept s₀ (sendMsix fn vec s) := by
  unfold sendMsix
  split
  · split
    · exact h.same rfl rfl rfl
    · exact emit_portsKept _ h
  · exact h

@[simp] theorem sendEvent_portsKept (h : PortsKept s₀ s) : PortsKept s₀ (sendEvent s) := by
  unfold sendEvent
  dsimp only
  split
  · exact sendMsix_portsKept _ _ h
  · exact h

@[simp] theorem setEvent_portsKept (p : Page) (j e : Nat) (h : PortsKept s₀ s) : PortsKept s₀ (setEvent p j e s) := by
  have hword : PortsKept s₀ (setR (regAt p j 0x10) (getR s (regAt p j 0x10) ||| 2 ^ e) s) :=
    h.mem (.single (.event p j e)) (List.Subset.refl _)
  unfold setEvent
  dsimp only
  split
  · exact sendEvent_portsKept hword
  · exact hword

@[simp] theorem logNow_portsKept (p : Page) (j e : Nat) (n : Note) (h : PortsKept s₀ s) : PortsKept s₀ (logNow p j e n s) :=
  h.same rfl rfl rfl

@[simp] theorem setR_portsKept (p : Page) (j : Nat) {off : Nat} (v : Nat) (ho : off < 0x1000 ∧ off ≠ 0x10) (h : PortsKept s₀ s) :
    PortsKept s₀ (setR (regAt p j off) v s) := h.mem (.single (.word v (regAt_ne_event p j ho))) (List.Subset.refl _)

theorem forEach_portsKept {α : Type} (xs : List α) {f : α → State → State} (hf : ∀ x u, PortsKept s₀ u → PortsKept s₀ (f x u))
    (h : PortsKept s₀ s) : PortsKept s₀ (forEach xs f s) := by
  induction xs generalizing s with
  | nil => exact h
  | cons x xs ih => exact ih (hf x s h)

theorem foldl_portsKept {α β : Type} (xs : List α) {f : β × State → α → β × State} {p : β × State}
    (hf : ∀ q x, PortsKept s₀ q.2 → PortsKept s₀ (f q x).2) (h : PortsKept s₀ p.2) : PortsKept s₀ (xs.foldl f p).2 := by
  induction xs generalizing p with
  | nil => exact h
  | cons x xs ih => exact ih (hf p x h)

@[simp] theorem crossEvent_portsKept (full : Bool) (f : Nat) (h : PortsKept s₀ s) : PortsKept s₀ (crossEvent full f s) := by
  have htake := takeFree_portsKept (takeFree_portsKept h)
  unfold crossEvent
  dsimp only
  split
  · exact h.same rfl rfl rfl
  · split
    · exact setEvent_portsKept _ _ _ (logNow_portsKept _ _ _ _ (setF_portsKept _ _ _ _ _ (by decide) htake))
    · exact htake

@[simp] theorem crossOf_portsKept (full : Bool) (p : Page) (h : PortsKept s₀ s) : PortsKept s₀ (crossOf full p s) := by
  fun_cases crossOf <;> grind -ring -linarith [crossEvent_portsKept]

@[simp] theorem raiseWith_portsKept (full : Bool) (p : Page) (j event : Nat) (n : Note) (h : PortsKept s₀ s) :
    PortsKept s₀ (raiseWith full p j event n s) := by
  fun_cases raiseWith
  grind -ring -linarith [crossOf_portsKept, logNow_portsKept, setEvent_portsKept]

@[simp] theorem raise_portsKept (p : Page) (j event : Nat) (n : Note) (h : PortsKept s₀ s) : PortsKept s₀ (raise p j event n s) := by
  simp [raise, h]

@[simp] theorem raiseOpen_portsKept (p : Page) (j event : Nat) (ctx : Option Nat) (h : PortsKept s₀ s) :
    PortsKept s₀ (raiseOpen p j event ctx s) := by
  fun_cases raiseOpen
  grind -ring -linarith [raiseWith_portsKept, takeFree_portsKept]

@[simp] theorem mapChanged_portsKept (e : Nat) (h : PortsKept s₀ s) : PortsKept s₀ (mapChanged e s) :=
  raise_portsKept _ _ _ _ (h.same rfl rfl rfl)

@[simp] theorem mapAdd_portsKept (e : Nat) (h : PortsKept s₀ s) : PortsKept s₀ (mapAdd e s) := by
  unfold mapAdd
  split
  · exact h
  · exact mapChanged_portsKept _ (h.same rfl rfl rfl)

/-! ## HBM behind its controllers -/

@[simp] theorem errLast_portsKept (mc dpa cls : Nat) (h : PortsKept s₀ s) : PortsKept s₀ (errLast mc dpa cls s) := by simp [errLast, h]

@[simp] theorem startRepair_portsKept (mc key : Nat) (ue : Bool) (h : PortsKept s₀ s) : PortsKept s₀ (startRepair mc key ue s) := by
  simp [startRepair, h]

@[simp] theorem noteCe_portsKept (mc cw : Nat) (h : PortsKept s₀ s) : PortsKept s₀ (noteCe mc cw s) := by
  have hlast := errLast_portsKept mc (16 * cw) 1 (countEvent_portsKept .memctl .memctl mc 31 0 (off := 0x4C) (by decide) h)
  exact setEvent_portsKept _ _ _ (crossOf_portsKept _ _ (takeFree_portsKept (hlast.same rfl rfl rfl)))

@[simp] theorem memCe_portsKept (mc cw : Nat) (h : PortsKept s₀ s) : PortsKept s₀ (memCe mc cw s) := by
  fun_cases memCe <;> grind -ring -linarith [noteCe_portsKept, setMc_portsKept, startRepair_portsKept]

@[simp] theorem memUe_portsKept (mc cw : Nat) (poisoned : Bool) (h : PortsKept s₀ s) : PortsKept s₀ (memUe mc cw poisoned s) := by
  fun_cases memUe
  grind -ring -linarith [countEvent_portsKept, errLast_portsKept, raise_portsKept, startRepair_portsKept]

@[simp] theorem injectError_portsKept (row : Nat) (h : PortsKept s₀ s) : PortsKept s₀ (injectError row s) := by
  unfold injectError
  dsimp only
  split
  · exact setR_portsKept _ _ _ (by decide) (h.same rfl rfl rfl)
  · exact h

@[simp] theorem openPage_portsKept (dpa : Nat) (h : PortsKept s₀ s) : PortsKept s₀ (openPage dpa s) := by simp [openPage, h]

@[simp] theorem stackWrite_portsKept (row : Nat) (keep : Nat → Bool) (h : PortsKept s₀ s) : PortsKept s₀ (stackWrite row keep s) :=
  injectError_portsKept _ (openPage_portsKept _ (h.same rfl rfl rfl))

@[simp] theorem poisonRow_portsKept (row : Nat) (h : PortsKept s₀ s) : PortsKept s₀ (poisonRow row s) :=
  injectError_portsKept _ (openPage_portsKept _ (h.same rfl rfl rfl))

@[simp] theorem checkRow_portsKept (row : Nat) (back : Bool) (h : PortsKept s₀ s) : PortsKept s₀ (checkRow row back s) := by
  have hsingles (xs : List (Nat × CwErr)) : PortsKept s₀ (forEach xs (fun p s =>
      memCe (mcOf row) p.1 { s with hbm := { s.hbm with bad := tabErase s.hbm.bad p.1 } }) s) :=
    forEach_portsKept _ (fun _ _ hu => memCe_portsKept _ _ (hu.same rfl rfl rfl)) h
  unfold checkRow
  dsimp only
  split <;> simp [hsingles]

@[simp] theorem copyDram_portsKept (mc key : Nat) (h : PortsKept s₀ s) : PortsKept s₀ (copyDram mc key s) :=
  forEach_portsKept _ (fun _ _ hu => stackWrite_portsKept _ _
    (forEach_portsKept _ (fun _ _ hv => noteCe_portsKept _ _ (hv.same rfl rfl rfl)) hu)) h

@[simp] theorem awaitRepair_portsKept (dpa : Nat) (h : PortsKept s₀ s) : PortsKept s₀ (awaitRepair dpa s) := by
  fun_cases awaitRepair
  grind -ring -linarith [forEach_portsKept, copyDram_portsKept]

@[simp] theorem answerBusy_portsKept (dpa : Nat) (h : PortsKept s₀ s) : PortsKept s₀ (answerBusy dpa s) := by simp [answerBusy, h]

/-! ## The memory-side cache -/

@[simp] theorem putLines_portsKept (dpa : Nat) (ls : List Line) (h : PortsKept s₀ s) : PortsKept s₀ (putLines dpa ls s) := by
  simp [putLines, h]

@[simp] theorem dropLine_portsKept (dpa : Nat) (h : PortsKept s₀ s) : PortsKept s₀ (dropLine dpa s) := by simp [dropLine, h]

@[simp] theorem useLine_portsKept (l : Line) (h : PortsKept s₀ s) : PortsKept s₀ (useLine l s) := by simp [useLine, h]

@[simp] theorem lineCe_portsKept (l : Line) (k : Nat) (h : PortsKept s₀ s) : PortsKept s₀ (lineCe l k s) := by simp [lineCe, h]

@[simp] theorem correctLine_portsKept (l : Line) (h : PortsKept s₀ s) : PortsKept s₀ (correctLine l s) := by
  fun_cases correctLine
  grind -ring -linarith [forEach_portsKept, lineCe_portsKept]

@[simp] theorem spillLine_portsKept (l : Line) (h : PortsKept s₀ s) : PortsKept s₀ (spillLine l s) := by
  have hdrop := dropLine_portsKept (512 * l.row) (correctLine_portsKept l h)
  unfold spillLine
  dsimp only
  split
  · exact hdrop
  · split
    · exact poisonRow_portsKept _ hdrop
    · exact stackWrite_portsKept _ _ (hdrop.same rfl rfl rfl)

@[simp] theorem dropWay_portsKept (mc w : Nat) (h : PortsKept s₀ s) : PortsKept s₀ (dropWay mc w s) := by simp [dropWay, h]

@[simp] theorem reserveWay_portsKept (mc slice fuel : Nat) (h : PortsKept s₀ s) : PortsKept s₀ (reserveWay mc slice fuel s) := by
  induction fuel generalizing s with
  | zero => exact h
  | succ fuel ih => grind [reserveWay, forEach_portsKept, spillLine_portsKept, dropWay_portsKept]

@[simp] theorem retireWay_portsKept (mc w : Nat) (h : PortsKept s₀ s) : PortsKept s₀ (retireWay mc w s) := by
  fun_cases retireWay
  grind -ring -linarith [forEach_portsKept, dropWay_portsKept, reserveWay_portsKept, spillLine_portsKept]

@[simp] theorem judgeWay_portsKept (l : Line) (h : PortsKept s₀ s) : PortsKept s₀ (judgeWay l s) := by simp [judgeWay, h]

@[simp] theorem insertLine_portsKept (al : Alloc) (dpa : Nat) (dirty : Bool) (errs : Tab CwErr) (h : PortsKept s₀ s) :
    PortsKept s₀ (insertLine al dpa dirty errs s) := by
  unfold insertLine
  dsimp only
  split
  · exact putLines_portsKept _ _ h
  · split
    · exact spillLine_portsKept _ h
    · exact judgeWay_portsKept _ (putLines_portsKept _ _ (spillLine_portsKept _ (takeFree_portsKept h)))

@[simp] theorem settleLine_portsKept (dpa : Nat) (h : PortsKept s₀ s) : PortsKept s₀ (settleLine dpa s) := by
  fun_cases settleLine <;> grind -ring -linarith [correctLine_portsKept, judgeWay_portsKept, putLines_portsKept, spillLine_portsKept]

/-! ## Rows read and written, and translation -/

@[simp] theorem readRowAt_portsKept (al : Alloc) (row : Nat) (h : PortsKept s₀ s) : PortsKept s₀ (readRowAt al row s).2 := by
  have hline := settleLine_portsKept row (awaitRepair_portsKept row h)
  unfold readRowAt
  dsimp only
  generalize settleLine row (awaitRepair row s) = u at hline ⊢
  split
  · have hhit := addPair_portsKept .memctl (mcOf row) (off := 0x58) 1 (by decide) (by decide) hline
    split
    · exact hhit
    · split
      · exact useLine_portsKept _ hhit
      · exact memUe_portsKept _ _ _ (useLine_portsKept _ hhit)
  · have hmiss := addPair_portsKept .memctl (mcOf row) (off := 0x60) 1 (by decide) (by decide) hline
    grind -ring -linarith [checkRow_portsKept, openPage_portsKept, insertLine_portsKept]

@[simp] theorem writeRowAt_portsKept (al : Alloc) (a n : Nat) (h : PortsKept s₀ s) : PortsKept s₀ (writeRowAt al a n s) := by
  fun_cases writeRowAt <;> grind -ring -linarith [addPair_portsKept, awaitRepair_portsKept, checkRow_portsKept, insertLine_portsKept,
    openPage_portsKept, settleLine_portsKept, stackWrite_portsKept, useLine_portsKept]

@[simp] theorem serveReads_portsKept (row : Nat) (h : PortsKept s₀ s) : PortsKept s₀ (serveReads row s) := by
  unfold serveReads
  split
  · exact h
  · next x _ =>
    have hread := readRowAt_portsKept (xferAlloc x) row h
    generalize readRowAt (xferAlloc x) row s = q at hread ⊢
    exact hread.same rfl rfl rfl

@[simp] theorem readsFirst_portsKept (lo hi : Nat) (h : PortsKept s₀ s) : PortsKept s₀ (readsFirst lo hi s) := by
  fun_cases readsFirst
  grind -ring -linarith [forEach_portsKept, serveReads_portsKept]

@[simp] theorem leaveTag_portsKept (x : Xfer) (h : PortsKept s₀ s) : PortsKept s₀ (leaveTag x s) := by
  have hserve : PortsKept s₀ (if x.early.isSome then s else serveReads x.place s) := by simp [h]
  unfold leaveTag
  exact hserve.same rfl rfl rfl

@[simp] theorem comeToBank_portsKept (dpa : Nat) (h : PortsKept s₀ s) : PortsKept s₀ (comeToBank dpa s) := by
  unfold comeToBank
  dsimp only
  repeat' split
  all_goals simp [h]

@[simp] theorem memReadAs_portsKept (al : Alloc) (a n : Nat) (h : PortsKept s₀ s) : PortsKept s₀ (memReadAs al a n s).2 := by
  unfold memReadAs
  split
  next he =>
  refine PortsKept.of_eq (foldl_portsKept _ (fun q x hq => ?_) h) he
  grind [readRowAt_portsKept, comeToBank_portsKept]

@[simp] theorem memRead_portsKept (a n : Nat) (h : PortsKept s₀ s) : PortsKept s₀ (memRead a n s).2 := by simp [memRead, h]

@[simp] theorem memWriteAs_portsKept (al : Alloc) (a : Nat) (data : List Byte) (h : PortsKept s₀ s) :
    PortsKept s₀ (memWriteAs al a data s) :=
  (forEach_portsKept _ (fun _ _ hu => writeRowAt_portsKept _ _ _ hu) (readsFirst_portsKept _ _ h)).same rfl rfl rfl

@[simp] theorem memWrite_portsKept (a : Nat) (data : List Byte) (h : PortsKept s₀ s) : PortsKept s₀ (memWrite a data s) := by
  fun_cases memWrite
  grind -ring -linarith [forEach_portsKept, comeToBank_portsKept, memWriteAs_portsKept]

@[simp] theorem walkRead_portsKept (table idx : Nat) (h : PortsKept s₀ s) : PortsKept s₀ (walkRead table idx s).2 := by simp [walkRead, h]

@[simp] theorem walkLevels_portsKept (c va : Nat) (h : PortsKept s₀ s) : PortsKept s₀ (walkLevels c va s).2 := by
  fun_cases walkLevels <;> grind -ring -linarith [walkRead_portsKept]

@[simp] theorem walk_portsKept (c va : Nat) (h : PortsKept s₀ s) : PortsKept s₀ (walk c va s).2 := by simp [walk, h]

@[simp] theorem translate_portsKept (c va : Nat) (write : Bool) (h : PortsKept s₀ s) : PortsKept s₀ (translate c va write s).2 := by
  fun_cases translate <;> grind -ring -linarith [walk_portsKept]

@[simp] theorem ptFault_portsKept (c va reason : Nat) (h : PortsKept s₀ s) : PortsKept s₀ (ptFault c va reason s) := by
  fun_cases ptFault
  grind -ring -linarith [countEvent_portsKept, raise_portsKept, setPair_portsKept]

theorem vReadBy_portsKept {tr : Translate} (htr : ∀ va u, PortsKept s₀ u → PortsKept s₀ (tr va u).2) (va n : Nat)
    (h : PortsKept s₀ s) : PortsKept s₀ (vReadBy tr va n s).2 := by
  refine foldl_portsKept _ (fun q x hq => ?_) h
  grind [memReadAs_portsKept]

@[simp] theorem vRead_portsKept (c va n : Nat) (h : PortsKept s₀ s) : PortsKept s₀ (vRead c va n s).2 :=
  vReadBy_portsKept (fun _ _ => translate_portsKept _ _ _) va n h

theorem vTargetsBy_portsKept {tr : Translate} (htr : ∀ va u, PortsKept s₀ u → PortsKept s₀ (tr va u).2) (va n : Nat)
    (h : PortsKept s₀ s) : PortsKept s₀ (vTargetsBy tr va n s).2 := by
  refine foldl_portsKept _ (fun q x hq => ?_) h
  grind

@[simp] theorem writePieces_portsKept (ps : List (Nat × Nat)) (data : List Byte) (h : PortsKept s₀ s) :
    PortsKept s₀ (writePieces ps data s) := by
  induction ps generalizing data s with
  | nil => exact h
  | cons p ps ih => exact ih _ (memWrite_portsKept _ _ h)

theorem vWriteBy_portsKept {tr : Translate} (htr : ∀ va u, PortsKept s₀ u → PortsKept s₀ (tr va u).2) (va : Nat) (data : List Byte)
    (h : PortsKept s₀ s) : PortsKept s₀ (vWriteBy tr va data s).2 := by
  fun_cases vWriteBy <;> grind [vTargetsBy_portsKept, writePieces_portsKept]

@[simp] theorem vWrite_portsKept (c va : Nat) (data : List Byte) (h : PortsKept s₀ s) : PortsKept s₀ (vWrite c va data s).2 :=
  vWriteBy_portsKept (fun _ _ => translate_portsKept _ _ _) va data h

/-! ## Rows of a plot that drains -/

@[simp] theorem moveBytes_portsKept (c : Nat) {off : Nat} (n : Nat) (ho : off < 0x1000 ∧ off ≠ 0x10)
    (ho4 : off + 4 < 0x1000 ∧ off + 4 ≠ 0x10) (h : PortsKept s₀ s) : PortsKept s₀ (moveBytes c off n s) := by
  have hmove := modCtx_portsKept c (fun x => { x with tickBytes := x.tickBytes + n }) (addPair_portsKept .ctx c n ho ho4 h)
  unfold moveBytes
  dsimp only
  split
  · split
    · exact addPair_portsKept _ _ _ (by decide) (by decide) hmove
    · exact hmove
  · exact hmove

@[simp] theorem pushRow_portsKept (nib va : Nat) (data : Row) (h : PortsKept s₀ s) : PortsKept s₀ (pushRow nib va data s) := by
  unfold pushRow
  dsimp only
  repeat' split
  all_goals simp [h]

@[simp] theorem acceptWrite_portsKept (x : Xfer) (h : PortsKept s₀ s) : PortsKept s₀ (acceptWrite x s) := by
  fun_cases acceptWrite <;> grind -ring -linarith [memWriteAs_portsKept, modNib_portsKept, moveBytes_portsKept, pushRow_portsKept]

@[simp] theorem countRemote_portsKept (nib : Nat) (h : PortsKept s₀ s) : PortsKept s₀ (countRemote nib s) := by
  fun_cases countRemote <;> grind -ring -linarith [moveBytes_portsKept]

@[simp] theorem writeRemote_portsKept (x : Xfer) (h : PortsKept s₀ s) : PortsKept s₀ (writeRemote x s) := by
  fun_cases writeRemote
  grind -ring -linarith [countRemote_portsKept, modNib_portsKept]

@[simp] theorem deliverSignal_portsKept (nib seq : Nat) (h : PortsKept s₀ s) : PortsKept s₀ (deliverSignal nib seq s) := by
  unfold deliverSignal
  dsimp only
  repeat' split
  all_goals simp [h]

@[simp] theorem settleRow_portsKept (nib seq i : Nat) (data : Row) (h : PortsKept s₀ s) : PortsKept s₀ (settleRow nib seq i data s) := by
  simp [settleRow, h]

@[simp] theorem failDraining_portsKept (nib seq : Nat) (b : Blame) (h : PortsKept s₀ s) : PortsKept s₀ (failDraining nib seq b s) := by
  unfold failDraining
  dsimp only
  repeat' split
  all_goals simp [h]

@[simp] theorem noteIwDetect_portsKept (c nib row reader : Nat) (h : PortsKept s₀ s) :
    PortsKept s₀ (noteIwDetect c nib row reader s) := by
  fun_cases noteIwDetect
  grind -ring -linarith [countEvent_portsKept, modNib_portsKept, modPNib_portsKept, raise_portsKept]

@[simp] theorem settlePull_portsKept (x : Xfer) (h : PortsKept s₀ s) : PortsKept s₀ (settlePull x s) := by
  fun_cases settlePull <;> grind -ring -linarith [countRemote_portsKept, deliverSignal_portsKept, failDraining_portsKept, modNib_portsKept,
    noteIwDetect_portsKept, settleRow_portsKept]

@[simp] theorem dropXfer_portsKept (x : Xfer) (h : PortsKept s₀ s) : PortsKept s₀ (dropXfer x s) := h.same rfl rfl rfl

@[simp] theorem readDraining_portsKept (x : Xfer) (h : PortsKept s₀ s) : PortsKept s₀ (readDraining x s).2 := by
  unfold readDraining
  dsimp only
  repeat' split
  all_goals simp [h]

@[simp] theorem settleHint_portsKept (x : Xfer) (h : PortsKept s₀ s) : PortsKept s₀ (settleHint x s) := by
  fun_cases settleHint <;> grind -ring -linarith [readDraining_portsKept]

@[simp] theorem settleXfer_portsKept (x : Xfer) (h : PortsKept s₀ s) : PortsKept s₀ (settleXfer x s) := by
  fun_cases settleXfer <;> grind -ring -linarith [acceptWrite_portsKept, comeToBank_portsKept, deliverSignal_portsKept,
    failDraining_portsKept, moveBytes_portsKept, readDraining_portsKept, settleHint_portsKept, settlePull_portsKept, settleRow_portsKept,
    writeRemote_portsKept]

@[simp] theorem drainPlot_portsKept (plot : List Nat) (h : PortsKept s₀ s) : PortsKept s₀ (drainPlot plot s) := by
  refine (forEach_portsKept _ (fun x u hu => ?_) h).same rfl rfl rfl
  split <;> simp [hu]

/-! ## Groves, quiesce, completion, fault and replay -/

@[simp] theorem wakeGrove_portsKept (g : Nat) (h : PortsKept s₀ s) : PortsKept s₀ (wakeGrove g s) := by
  unfold wakeGrove
  dsimp only
  repeat' split
  all_goals simp [h]

@[simp] theorem modGroveNibs_portsKept (g : Nat) (f : Nib → Nib) (h : PortsKept s₀ s) : PortsKept s₀ (modGroveNibs g f s) := by
  fun_cases modGroveNibs
  grind -ring -linarith [forEach_portsKept, modNib_portsKept]

@[simp] theorem dropGrove_portsKept (g : Nat) (h : PortsKept s₀ s) : PortsKept s₀ (dropGrove g s) := by
  unfold dropGrove
  dsimp only
  repeat' split
  all_goals simp [h]

@[simp] theorem freePlot_portsKept (c : Nat) (h : PortsKept s₀ s) : PortsKept s₀ (freePlot c s) := by
  fun_cases freePlot
  grind -ring -linarith [forEach_portsKept, dropGrove_portsKept, modCtx_portsKept]

@[simp] theorem restoreImage_portsKept (p : PreImage) (h : PortsKept s₀ s) : PortsKept s₀ (restoreImage p s) := by
  fun_cases restoreImage <;> grind -ring -linarith [forEach_portsKept, memWrite_portsKept]

@[simp] theorem rollScribe_portsKept (c : Nat) (m : Nat) (h : PortsKept s₀ s) : PortsKept s₀ (rollScribe c m s) := by
  fun_cases rollScribe <;> grind -ring -linarith [forEach_portsKept, modCtx_portsKept, restoreImage_portsKept, setScribe_portsKept]

@[simp] theorem rollback_portsKept (c : Nat) (h : PortsKept s₀ s) : PortsKept s₀ (rollback c s) := by
  fun_cases rollback <;> grind -ring -linarith [forEach_portsKept, modCtx_portsKept, raise_portsKept, rollScribe_portsKept]

@[simp] theorem stopScribes_portsKept (c : Nat) (h : PortsKept s₀ s) : PortsKept s₀ (stopScribes c s) := by
  fun_cases stopScribes
  grind -ring -linarith [forEach_portsKept, modScribe_portsKept]

@[simp] theorem dropOwned_portsKept (h : PortsKept s₀ s) : PortsKept s₀ (dropOwned s) := by
  fun_cases dropOwned
  grind -ring -linarith [forEach_portsKept, modScribe_portsKept]

@[simp] theorem chargeTime_portsKept (c : Nat) (h : PortsKept s₀ s) : PortsKept s₀ (chargeTime c s) := by
  rw [chargeTime_frame]
  exact h.same rfl rfl rfl

@[simp] theorem quiesce_portsKept (c : Nat) (h : PortsKept s₀ s) : PortsKept s₀ (quiesce c s) := by
  fun_cases quiesce
  grind -ring -linarith [forEach_portsKept, chargeTime_portsKept, drainPlot_portsKept, modNib_portsKept]

@[simp] theorem putCompletion_portsKept (c code : Nat) (h : PortsKept s₀ s) : PortsKept s₀ (putCompletion c code s).2 := by
  fun_cases putCompletion <;> grind -ring -linarith [modCtx_portsKept, ptFault_portsKept, vWrite_portsKept]

@[simp] theorem ctxMessage_portsKept (c : Nat) (h : PortsKept s₀ s) : PortsKept s₀ (ctxMessage c s) := by simp [ctxMessage, h]

@[simp] theorem enterFaulted_portsKept (c code : Nat) (wanted : Nat) (h : PortsKept s₀ s) :
    PortsKept s₀ (enterFaulted c code wanted s) := by
  fun_cases enterFaulted <;> grind -ring -linarith [ctxMessage_portsKept, freePlot_portsKept, modCtx_portsKept, raise_portsKept]

@[simp] theorem ctxFault_portsKept (c code : Nat) (h : PortsKept s₀ s) : PortsKept s₀ (ctxFault c code s) := by
  fun_cases ctxFault <;> grind -ring -linarith [enterFaulted_portsKept, putCompletion_portsKept, quiesce_portsKept, stopScribes_portsKept]

@[simp] theorem ctxFaultQuiet_portsKept (c code wanted : Nat) (h : PortsKept s₀ s) : PortsKept s₀ (ctxFaultQuiet c code wanted s) := by
  fun_cases ctxFaultQuiet
  grind -ring -linarith [enterFaulted_portsKept, quiesce_portsKept, stopScribes_portsKept]

@[simp] theorem pageFault_portsKept (c va reason : Nat) (h : PortsKept s₀ s) : PortsKept s₀ (pageFault c va reason s) := by
  simp [pageFault, h]

@[simp] theorem loseAttempt_portsKept (c cause : Nat) (h : PortsKept s₀ s) : PortsKept s₀ (loseAttempt c cause s) := by
  unfold loseAttempt
  dsimp only
  split <;> exact h.same rfl rfl rfl

@[simp] theorem unwait_portsKept (c : Nat) (h : PortsKept s₀ s) : PortsKept s₀ (unwait c s) := by
  unfold unwait
  split
  · exact h
  · exact h.same rfl rfl rfl

@[simp] theorem barReplay_portsKept (c cause : Nat) (h : PortsKept s₀ s) : PortsKept s₀ (barReplay c cause s) := by
  fun_cases barReplay
  grind -ring -linarith [bump_portsKept, ctxFault_portsKept, raise_portsKept]

@[simp] theorem replayError_portsKept (next : Phase) (c : Nat) (b : Blame) (h : PortsKept s₀ s) :
    PortsKept s₀ (replayError next c b s) := by
  fun_cases replayError <;> grind -ring -linarith [barReplay_portsKept, bump_portsKept, ctxFault_portsKept, loseAttempt_portsKept,
    modCtx_portsKept, quiesce_portsKept, raise_portsKept, rollback_portsKept, unwait_portsKept]

@[simp] theorem replayFor_portsKept (c cause : Nat) (h : PortsKept s₀ s) : PortsKept s₀ (replayFor c cause s) := by simp [replayFor, h]

@[simp] theorem replayRow_portsKept (c dpa : Nat) (h : PortsKept s₀ s) : PortsKept s₀ (replayRow c dpa s) := by simp [replayRow, h]

/-! ## Events and patterns of a port -/

@[simp] theorem portEvent_portsKept (p ev arg : Nat) (h : PortsKept s₀ s) : PortsKept s₀ (portEvent p ev arg s) := by simp [portEvent, h]

@[simp] theorem announce_portsKept (p : Nat) (h : PortsKept s₀ s) : PortsKept s₀ (announce p s) := by simp [announce, h]

/-! ## Records, and the pass over the contexts -/

@[simp] theorem probeRead_portsKept (c va n : Nat) (h : PortsKept s₀ s) : PortsKept s₀ (probeRead c va n s).2 := by
  unfold probeRead
  refine foldl_portsKept _ (fun q x hq => ?_) h
  grind [translate_portsKept]

@[simp] theorem refuseRecord_portsKept (c reason : Nat) (err : Option VErr) (h : PortsKept s₀ s) :
    PortsKept s₀ (refuseRecord c reason err s) := by
  fun_cases refuseRecord <;> grind -ring -linarith [ctxFault_portsKept, ctxFaultQuiet_portsKept, ptFault_portsKept, raise_portsKept]

@[simp] theorem checkCompl_portsKept (c : Nat) (r : Record) (h : PortsKept s₀ s) : PortsKept s₀ (checkCompl c r s) := by
  fun_cases checkCompl <;> grind -ring -linarith [refuseRecord_portsKept, translate_portsKept]

@[simp] theorem checkImage_portsKept (c : Nat) (r : Record) (hb : List Byte) (h : PortsKept s₀ s) :
    PortsKept s₀ (checkImage c r hb s) := by
  fun_cases checkImage <;> grind -ring -linarith [checkCompl_portsKept, modCtx_portsKept, probeRead_portsKept, refuseRecord_portsKept]

@[simp] theorem readRecord_portsKept (c va : Nat) (h : PortsKept s₀ s) : PortsKept s₀ (readRecord c va s) := by
  fun_cases readRecord <;> grind -ring -linarith [checkImage_portsKept, ctxFault_portsKept, ctxFaultQuiet_portsKept, modCtx_portsKept,
    ptFault_portsKept, raise_portsKept, refuseRecord_portsKept, vRead_portsKept]

@[simp] theorem readNext_portsKept (c : Nat) (h : PortsKept s₀ s) : PortsKept s₀ (readNext c s) := by
  fun_cases readNext <;> grind -ring -linarith [ctxFaultQuiet_portsKept, modCtx_portsKept, ptFault_portsKept, readRecord_portsKept,
    vRead_portsKept]

theorem countingSteps_portsKept {f : State → State} (hf : PortsKept s₀ (f s)) : PortsKept s₀ (countingSteps f s) :=
  bump_portsKept _ _ _ _ _ (by decide) hf

@[simp] theorem stopSweep_portsKept (g : Nat) (h : PortsKept s₀ s) : PortsKept s₀ (stopSweep g s) := by
  unfold stopSweep
  split
  · exact h.same rfl rfl rfl
  · exact h

@[simp] theorem joinGrove_portsKept (c step g : Nat) (h : PortsKept s₀ s) : PortsKept s₀ (joinGrove c step g s) := by
  fun_cases joinGrove
  grind -ring -linarith [modGrove_portsKept, stopSweep_portsKept, wakeGrove_portsKept]

/-- Groves leave a plot, others join it and are woken. -/
theorem changePlot_portsKept (c step : Nat) (leave join keep : List Nat) (h : PortsKept s₀ s) : PortsKept s₀
    (forEach keep (fun g s => wakeGrove g (modGrove g (fun y => { y with idle := 0 }) s))
      (countingSteps (fun s => forEach join (joinGrove c step)
        (forEach leave (fun g s => dropGrove g (modGrove g (fun y => { y with step := 9 }) s)) s)) s)) := by
  refine forEach_portsKept _ (fun _ _ hu => wakeGrove_portsKept _ (modGrove_portsKept _ _ hu)) (countingSteps_portsKept ?_)
  exact forEach_portsKept _ (fun _ _ hu => joinGrove_portsKept _ _ _ hu)
    (forEach_portsKept _ (fun _ _ hu => dropGrove_portsKept _ (modGrove_portsKept _ _ hu)) h)

@[simp] theorem dispatch_portsKept (c : Nat) (r : Record) (p : Place) (urgent : Bool) (h : PortsKept s₀ s) :
    PortsKept s₀ (dispatch c r p urgent s) := by
  have hurgent (u : State) (hu : PortsKept s₀ u) : PortsKept s₀
      (if urgent then raise .ranger 0 4 (.of c 0 r.va) (bump (regAt .ranger 0 0x74) 31 16 1 u) else u) := by
    split
    · exact raise_portsKept _ _ _ _ (bump_portsKept _ _ _ _ _ (by decide) hu)
    · exact hu
  refine hurgent _ (takeFree_portsKept (bump_portsKept _ _ _ _ _ (by decide) (modCtx_portsKept _ _ (changePlot_portsKept _ _ _ _ _ ?_))))
  exact forEach_portsKept _ (fun _ _ hu => modCtx_portsKept _ _ hu) h

@[simp] theorem setStopped_portsKept (b : Bool) (h : PortsKept s₀ s) : PortsKept s₀ (setStopped b s) := h.same rfl rfl rfl

theorem visit_portsKept (inTick : Bool) (c : Nat) (h : PortsKept s₀ s) : PortsKept s₀ (visit inTick c s).after := by
  fun_cases visit <;> grind [Visit.after, refuseRecord_portsKept, dispatch_portsKept, raise_portsKept, bump_portsKept]

@[simp] theorem visitAll_portsKept (inTick : Bool) (cs : List Nat) (h : PortsKept s₀ s) : PortsKept s₀ (visitAll inTick cs s) := by
  induction cs generalizing s with
  | nil => simp [visitAll, h]
  | cons c cs ih =>
    have hv := visit_portsKept inTick c h
    unfold visitAll
    split <;> simp_all [Visit.after]

@[simp] theorem pass_portsKept (inTick : Bool) (h : PortsKept s₀ s) : PortsKept s₀ (pass inTick s) := by simp [pass, h]

/-! ## Spares of nibs, groves and rows -/

@[simp] theorem loseCycles_portsKept (c : Option Nat) (most : Nat) (h : PortsKept s₀ s) : PortsKept s₀ (loseCycles c most s) := by
  unfold loseCycles
  split <;> exact h.same rfl rfl rfl

@[simp] theorem retireGrove_portsKept (readable : Bool) (g : Nat) (h : PortsKept s₀ s) : PortsKept s₀ (retireGrove readable g s) := by
  fun_cases retireGrove <;> grind -ring -linarith [forEach_portsKept, replayFor_portsKept, modGrove_portsKept, modGroveNibs_portsKept,
    raise_portsKept, mapAdd_portsKept, PortsKept.seedbank]

@[simp] theorem spareExhausted_portsKept (p : Nat) (h : PortsKept s₀ s) : PortsKept s₀ (spareExhausted p s) := by simp [spareExhausted, h]

@[simp] theorem nibRetiring_portsKept (p : Nat) (h : PortsKept s₀ s) : PortsKept s₀ (nibRetiring p s) := by
  fun_cases nibRetiring <;> grind -ring -linarith [retireGrove_portsKept, setPNib_portsKept, spareExhausted_portsKept]

@[simp] theorem retireRow_portsKept (p row : Nat) (h : PortsKept s₀ s) : PortsKept s₀ (retireRow p row s) := by
  fun_cases retireRow <;> grind -ring -linarith [mapAdd_portsKept, modNib_portsKept, modPNib_portsKept, nibRetiring_portsKept,
    raise_portsKept, setPNib_portsKept, spareExhausted_portsKept]

@[simp] theorem retireRows_portsKept (p : Nat) (checked : Option (Nat → Bool)) (h : PortsKept s₀ s) :
    PortsKept s₀ (retireRows p checked s) := by
  fun_cases retireRows
  grind -ring -linarith [forEach_portsKept, modPNib_portsKept, retireRow_portsKept]

@[simp] theorem checkRows_portsKept (p : Nat) (checked : Option (Nat → Bool)) (h : PortsKept s₀ s) :
    PortsKept s₀ (checkRows p checked s) := by
  fun_cases checkRows
  grind -ring -linarith [forEach_portsKept, modPNib_portsKept, nibRetiring_portsKept]

@[simp] theorem sweepSpare_portsKept (g : Nat) (h : PortsKept s₀ s) : PortsKept s₀ (sweepSpare g s) := by
  have hspare (q : PNib) : PortsKept s₀ (takeFree (setPNib (17 * g + 16) q s)) := takeFree_portsKept (setPNib_portsKept _ q h)
  unfold sweepSpare
  dsimp only
  split
  · exact h
  · split
    · exact hspare _
    · exact raise_portsKept _ _ _ _ ((hspare _).seedbank _)

@[simp] theorem moveToSpare_portsKept (nib : Nat) (h : PortsKept s₀ s) : PortsKept s₀ (moveToSpare nib s) := by
  fun_cases moveToSpare
  grind -ring -linarith [loseCycles_portsKept, mapAdd_portsKept, modGrove_portsKept, modPNib_portsKept, raise_portsKept, setNib_portsKept]

@[simp] theorem transplantNib_portsKept (nib : Nat) (h : PortsKept s₀ s) : PortsKept s₀ (transplantNib nib s) := by
  fun_cases transplantNib <;> grind -ring -linarith [moveToSpare_portsKept, retireGrove_portsKept, spareExhausted_portsKept,
    sweepSpare_portsKept]

@[simp] theorem spareGrove_portsKept (checked : Option (Nat → Nat → Bool)) (g : Nat) (h : PortsKept s₀ s) :
    PortsKept s₀ (spareGrove checked g s) := by
  fun_cases spareGrove <;> grind -ring -linarith [forEach_portsKept, checkRows_portsKept, retireRows_portsKept, transplantNib_portsKept]

/-! ## The end of a layer -/

@[simp] theorem orVote_portsKept (c step vote : Nat) (h : PortsKept s₀ s) : PortsKept s₀ (orVote c step vote s).2 := by
  fun_cases orVote <;> grind -ring -linarith [vRead_portsKept, vWrite_portsKept]

@[simp] theorem writeScb_portsKept (c : Nat) (l : LitFrame) (h : PortsKept s₀ s) : PortsKept s₀ (writeScb c l s).2 := by
  simp [writeScb, h]

@[simp] theorem litFault_portsKept (c reason : Nat) (nib : Option Nat) (arg : Nat) (h : PortsKept s₀ s) :
    PortsKept s₀ (litFault c reason nib arg s) := by
  fun_cases litFault
  grind -ring -linarith [countEvent_portsKept, ctxFault_portsKept, raise_portsKept, setR_portsKept, writeScb_portsKept]

@[simp] theorem litError_portsKept (c : Nat) (e : VErr) (h : PortsKept s₀ s) : PortsKept s₀ (litError c e s) := by
  fun_cases litError <;> grind -ring -linarith [pageFault_portsKept, replayRow_portsKept]

@[simp] theorem commitPush_portsKept (c : Nat) (r : Record) (l : LitFrame) (h : PortsKept s₀ s) :
    PortsKept s₀ (commitPush c r l s).2 := by
  fun_cases commitPush <;> grind -ring -linarith [bump_portsKept, litError_portsKept, litFault_portsKept, vWrite_portsKept,
    writeScb_portsKept]

@[simp] theorem commitPop_portsKept (c : Nat) (l : LitFrame) (h : PortsKept s₀ s) : PortsKept s₀ (commitPop c l s).2 := by
  fun_cases commitPop <;> grind -ring -linarith [forEach_portsKept, bump_portsKept, litError_portsKept, modNib_portsKept,
    writeScb_portsKept]

@[simp] theorem commitLitter_portsKept (c : Nat) (h : PortsKept s₀ s) : PortsKept s₀ (commitLitter c s).2 := by
  unfold commitLitter
  dsimp only
  repeat' split
  all_goals simp [h]

@[simp] theorem countLayer_portsKept (c : Nat) (r : Record) (h : PortsKept s₀ s) : PortsKept s₀ (countLayer c r s) := by
  fun_cases countLayer <;> grind -ring -linarith [addPair_portsKept, bump_portsKept, chargeTime_portsKept]

/-- The layer's word is written: the engine's time is counted, and the context reads its next record. -/
theorem layerDone_portsKept (c code : Nat) (r : Record) (h : PortsKept s₀ s) : PortsKept s₀ (match putCompletion c code s with
    | (false, s) => enterFaulted c 0x0205 code (stopScribes c (countLayer c r s))
    | (true, s) =>
      let s := stopScribes c (countLayer c r s)
      let s := modCtx c (fun x =>
        { x with
            lastCode := code, lastPrio := recPrio s c, phase := .none, urgent := false, ligWait := false, lit := none
            upd := none }) s
      let s := if r.irq then ctxMessage c s else s
      let s := forEach (getCtx s c).plot (spareGrove none) s
      pass false (readNext c (modCtx c (fun x => { x with watch := some x.curRec }) s))) := by
  have hput := putCompletion_portsKept c code h
  generalize putCompletion c code s = q at hput ⊢
  obtain ⟨written, u⟩ := q
  have hstop := stopScribes_portsKept c (countLayer_portsKept c r hput)
  cases written with
  | false => exact enterFaulted_portsKept _ _ _ hstop
  | true =>
    have hmessage (f : Ctx → Ctx) := ite_portsKept (c := r.irq = true) (ctxMessage_portsKept c (modCtx_portsKept c f hstop))
      (modCtx_portsKept c f hstop)
    exact pass_portsKept _ (readNext_portsKept _ (modCtx_portsKept _ _
      (forEach_portsKept _ (fun _ _ hv => spareGrove_portsKept _ _ hv) (hmessage _))))

@[simp] theorem endLayer_portsKept (c code : Nat) (r : Record) (h : PortsKept s₀ s) : PortsKept s₀ (endLayer c code r s) := by
  have hvote := orVote_portsKept c r.step.toNat (getCtx s c).vote
    (forEach_portsKept (plotNibs (heldBy s c)) (fun n _ hu => modNib_portsKept n Nib.unloaded hu) h)
  unfold endLayer
  dsimp only
  generalize orVote c _ _ _ = q at hvote ⊢
  obtain ⟨e, u⟩ := q
  rcases e with _ | (⟨va, why⟩ | dpa)
  · exact layerDone_portsKept c code r hvote
  · exact ctxFault_portsKept _ _ (ptFault_portsKept _ _ _ hvote)
  · exact layerDone_portsKept c code r hvote

@[simp] theorem finishLayer_portsKept (c code : Nat) (h : PortsKept s₀ s) : PortsKept s₀ (finishLayer c code s) := by
  fun_cases finishLayer <;> grind -ring -linarith [commitLitter_portsKept, endLayer_portsKept]

/-! ## The Ligature engine -/

@[simp] theorem scrRead_portsKept (c va n : Nat) (h : PortsKept s₀ s) : PortsKept s₀ (scrRead c va n s).2 := by
  fun_cases scrRead <;> grind -ring -linarith [moveBytes_portsKept, vRead_portsKept]

@[simp] theorem scrWrite_portsKept (c va : Nat) (data : List Byte) (h : PortsKept s₀ s) : PortsKept s₀ (scrWrite c va data s).2 := by
  fun_cases scrWrite <;> grind -ring -linarith [moveBytes_portsKept, vWrite_portsKept]

@[simp] theorem lossEvent_portsKept (c idx dpa : Nat) (h : PortsKept s₀ s) : PortsKept s₀ (lossEvent c idx dpa s) := by
  simp [lossEvent, h]

@[simp] theorem updError_portsKept (c idx : Nat) (e : VErr) (h : PortsKept s₀ s) : PortsKept s₀ (updError c idx e s) := by
  fun_cases updError <;> grind -ring -linarith [ctxFault_portsKept, lossEvent_portsKept, pageFault_portsKept]

@[simp] theorem ligEvent_portsKept (ev arg0 step : Nat) (h : PortsKept s₀ s) : PortsKept s₀ (ligEvent ev arg0 step s) := by
  simp [ligEvent, h]

@[simp] theorem countPeer_portsKept (pkt : List LinkUnit) (h : PortsKept s₀ s) : PortsKept s₀ (countPeer pkt s) := by
  fun_cases countPeer <;> grind -ring -linarith [moveBytes_portsKept]

@[simp] theorem ligError_portsKept (c : Nat) (e : VErr) (h : PortsKept s₀ s) : PortsKept s₀ (ligError c e s) := by
  unfold ligError
  dsimp only
  repeat' split
  all_goals simp [h]

@[simp] theorem ligWrite_portsKept (c va : Nat) (b : List Byte) (h : PortsKept s₀ s) : PortsKept s₀ (ligWrite c va b s) := by
  fun_cases ligWrite <;> grind -ring -linarith [ligError_portsKept, scrWrite_portsKept]

@[simp] theorem putHeader_portsKept (i state : Nat) (h : PortsKept s₀ s) : PortsKept s₀ (putHeader i state s) := by
  fun_cases putHeader <;> grind -ring -linarith [ligWrite_portsKept, modBucket_portsKept, takeFree_portsKept]

@[simp] theorem restoreSlot_portsKept (c : Circle) (w : LigStep) (o : OwnerSlot) (h : PortsKept s₀ s) :
    PortsKept s₀ (restoreSlot c w o s) := by
  fun_cases restoreSlot <;> grind -ring -linarith [forEach_portsKept, ligError_portsKept, ligWrite_portsKept, scrRead_portsKept]

@[simp] theorem restoreAll_portsKept (h : PortsKept s₀ s) : PortsKept s₀ (restoreAll s) := by
  fun_cases restoreAll <;> grind -ring -linarith [forEach_portsKept, restoreSlot_portsKept]

@[simp] theorem closeBuckets_portsKept (state : Nat) (h : PortsKept s₀ s) : PortsKept s₀ (closeBuckets state s) := by
  fun_cases closeBuckets <;> grind -ring -linarith [forEach_portsKept, modBucket_portsKept, putHeader_portsKept]

@[simp] theorem endStep_portsKept (outcome : Nat) (h : PortsKept s₀ s) : PortsKept s₀ (endStep outcome s) := by
  unfold endStep
  dsimp only
  repeat' split
  all_goals simp [h]

@[simp] theorem ucbVeto_portsKept (c : Nat) (h : PortsKept s₀ s) : PortsKept s₀ (ucbVeto c s) := by simp [ucbVeto, h]

/-! ## Packets queued on ports (R278, R287, R301) -/

/-- A packet is queued on a port. -/
theorem queued_portsKept (p : Nat) (q : List (List LinkUnit)) (h : PortsKept s₀ s) :
    PortsKept s₀ (setPort p { getPort s p with txQ := q } s) := by
  refine h.trans ⟨fun k => ?_, List.Subset.refl _, fun _ _ _ _ h => h⟩
  by_cases hk : k = p
  · subst hk
    by_cases hlt : k < 16
    · rw [getPort_setPort_self s _ hlt]
      rfl
    · rw [getPort, setPort, vset, Vector.setIfInBounds_eq_of_size_le (by omega), ← getPort]
  · rw [getPort_setPort_ne s _ hk]

theorem queueOn_portsKept {hop : Nat} {pkt : List LinkUnit} {t : State} (h : PortsKept s₀ s) (e : queueOn hop pkt s = some t) :
    PortsKept s₀ t := by
  unfold queueOn at e
  dsimp only at e
  split at e
  · cases e
  · obtain rfl := Option.some.inj e
    exact queued_portsKept _ _ (modLig_portsKept _ h)

@[simp] theorem sendAborts_portsKept (c : Circle) (det step reason : Nat) (h : PortsKept s₀ s) :
    PortsKept s₀ (sendAborts c det step reason s) := by
  refine forEach_portsKept _ (fun p u hu => ?_) h
  dsimp only
  split
  · exact queued_portsKept _ _ hu
  · exact hu

@[simp] theorem flushWaiting_portsKept (h : PortsKept s₀ s) : PortsKept s₀ (flushWaiting s) := by
  have hqueue (xs : List (Nat × List LinkUnit)) (u : State) (hu : PortsKept s₀ u) :
      PortsKept s₀ (xs.foldl (fun s x => match queueOn x.1 x.2 s with
        | some s => s
        | none => modLig (fun l => { l with waiting := l.waiting ++ [x] }) s) u) := by
    induction xs generalizing u with
    | nil => exact hu
    | cons x xs ih =>
      refine ih _ ?_
      dsimp only
      split
      · next hq => exact queueOn_portsKept hu hq
      · exact modLig_portsKept _ hu
  exact hqueue _ _ (modLig_portsKept _ h)

@[simp] theorem abandonWith_portsKept (reason det : Nat) (sent : Option (Nat × Nat)) (h : PortsKept s₀ s) :
    PortsKept s₀ (abandonWith reason det sent s) := by
  unfold abandonWith
  split
  · next c w _ _ =>
    extract_lets note div counted marked told restored closed waits vetoed ended noted lost raised
    have htold : PortsKept s₀ told := sendAborts_portsKept _ _ _ _
      (ite_portsKept (forEach_portsKept _ (fun _ _ hu => modBucket_portsKept _ _ hu) (countPeer_portsKept _ h)) (countPeer_portsKept _ h))
    have hrestored : PortsKept s₀ restored := ite_portsKept htold (restoreAll_portsKept htold)
    have hclosed : PortsKept s₀ closed := ite_portsKept hrestored (closeBuckets_portsKept _ hrestored)
    have hvetoed : PortsKept s₀ vetoed := ite_portsKept hclosed (ucbVeto_portsKept _ hclosed)
    have hnoted : PortsKept s₀ noted := modLig_portsKept _ (endStep_portsKept _ hvetoed)
    have hraised : PortsKept s₀ raised :=
      ligEvent_portsKept _ _ _ (ite_portsKept hnoted (countEvent_portsKept _ _ _ _ _ (by decide) hnoted))
    exact ite_portsKept (ite_portsKept (ctxFault_portsKept _ _ hraised) (finishLayer_portsKept _ _ hraised)) hraised
  · exact h

@[simp] theorem abandonStep_portsKept (reason det : Nat) (h : PortsKept s₀ s) : PortsKept s₀ (abandonStep reason det s) := by
  simp [abandonStep, h]

@[simp] theorem crossingLost_portsKept (x : Port) (h : PortsKept s₀ s) : PortsKept s₀ (crossingLost x s) := by
  fun_cases crossingLost <;> grind -ring -linarith [countEvent_portsKept, raiseOpen_portsKept, replayFor_portsKept, takeFree_portsKept]

end

end Sys2Proof.Machine

/-! SUPPORT. The links: what the operations of a port leave of it, of the other state and of the EVENT bits. -/

namespace Sys2Proof.Machine

open Sys2Proof.Spec (eventSet)

/-! ## Reading a port -/

section

variable (s : State) (p : Fin 16)

@[simp] theorem getPort_setPort (x : Port) : getPort (setPort p.val x s) p.val = x := getPort_setPort_self s x p.isLt
@[simp] theorem getPort_modPort (f : Port → Port) : getPort (modPort p.val f s) p.val = f (getPort s p.val) := getPort_setPort s p _

theorem setPort_setPort (x y : Port) : setPort p.val y (setPort p.val x s) = setPort p.val y s := by
  simp [setPort, vset, Vector.setIfInBounds_setIfInBounds]

variable (q : Nat)

@[simp] theorem getPort_emit (o : Out) : getPort (emit o s) q = getPort s q := rfl
@[simp] theorem getPort_takeFree : getPort (takeFree s) q = getPort s q := rfl
@[simp] theorem getPort_bump (a hi lo n : Nat) : getPort (bump a hi lo n s) q = getPort s q := getPort_of_ports (bump_ports ..) q
@[simp] theorem getPort_addPair (a n : Nat) : getPort (addPair a n s) q = getPort s q := getPort_of_ports (addPair_ports ..) q
@[simp] theorem getPort_raise (g : Page) (j e : Nat) (n : Note) : getPort (raise g j e n s) q = getPort s q :=
  getPort_of_ports (memEdits_raise .refl g j e n).ports q
@[simp] theorem getPort_portEvent (k e arg : Nat) : getPort (portEvent k e arg s) q = getPort s q := getPort_raise ..
@[simp] theorem getPort_countEvent (g : Page) (a hi lo : Nat) : getPort (countEvent g a hi lo s) q = getPort s q := by
  unfold countEvent
  split <;> simp
@[simp] theorem getPort_mapAdd (e : Nat) : getPort (mapAdd e s) q = getPort s q := getPort_of_ports (memEdits_mapAdd .refl e).ports q
@[simp] theorem getPort_noteLane (k : Nat) (rx : Bool) (lane : Nat) : getPort (noteLane k rx lane s) q = getPort s q := by simp [noteLane]
@[simp] theorem getPort_sendFrames (k : Nat) : getPort (sendFrames k s) q = getPort s q := rfl
@[simp] theorem getPort_sparePattern (k : Nat) (old new : Option Nat) : getPort (sparePattern k old new s) q = getPort s q := by
  unfold sparePattern
  repeat' split
  all_goals simp

end

/-! ## Drop (R277) -/

section

variable {s : State} {p : Fin 16} {why : Nat}

/-- What a drop leaves of a port. -/
def Port.dropped (x : Port) (st : PortSt) (why : Nat) : Port :=
  { Port.off with st := st, oldRate := x.oldRate, oldWidth := x.oldWidth, peer := { x.peer with valid := false }, lastDown := why }

theorem getPort_dropPort (h : why ≠ 5) : getPort (dropPort p.val why s) p.val = (getPort s p.val).dropped (downState s p.val) why := by
  simp [dropPort, h, Port.dropped, Port.off]

/-- What a port that was dropped shows. -/
structure PortDropped (s : State) (p why : Nat) (t : State) : Prop where
  st : (getPort t p).st = downState s p
  lastDown : (getPort t p).lastDown = why
  replayBuf : (getPort t p).replayBuf = []
  peer : (getPort t p).peer.valid = false
  enable : (getPort t p).enable = false
  announced : downState s p = .detect → .train p 3 511 ∈ t.outs
  event : eventSet t .port p 1

theorem mem_announce {k : Nat} (h : (getPort s k).st = .detect) : .train k 3 511 ∈ (announce k s).outs := by
  simp [announce, h]

/-- Raising an event of a port sends nothing but messages, and sets its bit. -/
theorem portEvent_keeps (k e arg : Nat) (s : State) : PortsKept s (portEvent k e arg s) := portEvent_portsKept k e arg (.refl s)

theorem eventSet_portEvent (k : Nat) {e : Nat} (arg : Nat) (s : State) (he : e < 32) : eventSet (portEvent k e arg s) .port k e :=
  eventSet_raise .port k _ s he

theorem dropPort_dropped (h : why ≠ 5) : PortDropped s p.val why (dropPort p.val why s) := by
  have hport := getPort_dropPort (s := s) (p := p) h
  refine ⟨by rw [hport]; rfl, by rw [hport]; rfl, by rw [hport]; rfl, by rw [hport]; rfl, by rw [hport]; rfl, fun hd => ?_,
    eventSet_portEvent _ _ _ (by decide)⟩
  refine (portEvent_keeps _ _ _ _).outs (mem_announce ?_)
  simp [h, hd]

/-- A step that keeps the ports keeps what the dropped one shows. -/
theorem PortDropped.kept {t u : State} (h : PortDropped s p.val why t) (k : PortsKept t u) : PortDropped s p.val why u := by
  have hq := k.ports p.val
  exact ⟨(congrArg Port.st hq).trans h.st, (congrArg Port.lastDown hq).trans h.lastDown, (congrArg Port.replayBuf hq).trans h.replayBuf,
    (congrArg (fun x => x.peer.valid) hq).trans h.peer, (congrArg Port.enable hq).trans h.enable, fun hd => k.outs (h.announced hd),
    k.events _ _ _ (by decide) h.event⟩

theorem lostPort_keeps (k why : Nat) (s : State) : PortsKept (dropPort k why s) (lostPort k why s) := by
  have hlost := crossingLost_portsKept (getPort s k) (.refl (dropPort k why s))
  unfold lostPort
  dsimp only
  split
  · split
    · exact abandonStep_portsKept _ _ hlost
    · exact hlost
  · exact hlost

theorem lostPort_dropped (h : why ≠ 5) : PortDropped s p.val why (lostPort p.val why s) := (dropPort_dropped h).kept (lostPort_keeps _ _ _)

/-! ## Retrain (R278) -/

theorem enterRetrain_of_linked (h : (getPort s p.val).st = .ready ∨ (getPort s p.val).st = .active) :
    (getPort (enterRetrain p.val s) p.val).st = .retrain ∧
    (getPort (enterRetrain p.val s) p.val).wasActive = decide ((getPort s p.val).st = .active) ∧
    eventSet (enterRetrain p.val s) .port p.val 2 := by
  have hevent := eventSet_portEvent p.val 7 (e := 2)
  unfold enterRetrain
  simp only [h, if_true]
  exact ⟨by simp, by simp [beq_eq_decide], hevent _ (by decide)⟩

@[simp] theorem enterRetrain_ctxs (k : Nat) (s : State) : (enterRetrain k s).ctxs = s.ctxs := by
  unfold enterRetrain
  dsimp only
  split
  · exact (memEdits_raise (memEdits_countEvent .refl _ _ _ _ _) _ _ _ _).ctxs
  · rfl

end

end Sys2Proof.Machine

/-! SUPPORT. The links: lanes, candidate modes and the exchange of identities, each by what it leaves of the port. -/

namespace Sys2Proof.Machine

open Sys2Proof.Spec (eventSet Answers)

/-! ## Lanes (R272, R279) -/

theorem mem_lanesOf {m i : Nat} : i ∈ lanesOf m ↔ i < 9 ∧ bit m i = true := by simp [lanesOf]

/-- A mask has the bits of its list. -/
theorem bit_maskOf (ls : List Nat) (i : Nat) : bit (maskOf ls) i = true ↔ i ∈ ls := by
  have hfold (m : Nat) : (ls.foldl (fun m i => m ||| 2 ^ i) m).testBit i = true ↔ m.testBit i = true ∨ i ∈ ls := by
    induction ls generalizing m with
    | nil => simp
    | cons a ls ih =>
      rw [List.foldl_cons, ih, Nat.testBit_or, Nat.testBit_two_pow]
      simp only [Bool.or_eq_true, decide_eq_true_eq, List.mem_cons, or_assoc, eq_comm (a := a)]
  rw [bit_eq_testBit, maskOf, hfold, Nat.zero_testBit]
  simp

theorem bit_goodAt {l : Lanes9} {rate i : Nat} : bit (l.goodAt rate) i = true ↔
    i < 9 ∧ bit l.good i = true ∧ bit l.bad i = false ∧ bit (vget 0 l.failed rate) i = false := by
  rw [Lanes9.goodAt, bit_maskOf, List.mem_filter, mem_lanesOf]
  simp [and_assoc]

/-- No lane of those in use has 64 errors, so none fails. -/
theorem failing_eq_zero {active : Nat} {errs : Vector Nat 9} {place : Nat → Nat} (hplace : ∀ i, i < 9 → place i < 9)
    (h : ∀ i, i < 9 → vget 0 errs i < 64) : failing active errs place = 0 := by
  have hnone : (lanesOf active).filter (fun i => decide (64 ≤ vget 0 errs (place i))) = [] := by
    refine List.filter_eq_nil_iff.mpr fun i hi => ?_
    have := h _ (hplace i (mem_lanesOf.mp hi).1)
    simp only [decide_eq_true_eq]
    omega
  rw [failing, hnone]
  rfl

/-! ## Candidate modes (R273) -/

theorem candOk_of_regs {s t : State} (h : t.regs = s.regs) : candOk t = candOk s := by
  funext p x c
  unfold candOk maxRate minWidth getF getR
  rw [h]

theorem nextCand_of_regs {s t : State} (h : t.regs = s.regs) : nextCand t = nextCand s := by
  funext p x i
  simp only [nextCand, candOk_of_regs h]

/-- The candidate that is tried next: the first one from i on that is not skipped. -/
theorem nextCand_eq_some {s : State} {p : Nat} {x : Port} {i k : Nat} (h : nextCand s p x i = some k) :
    i ≤ k ∧ candOk s p x (candidates.getD k (0, 0)) = true ∧
    ∀ m, i ≤ m → m < k → candOk s p x (candidates.getD m (0, 0)) = false := by
  rw [nextCand, List.find?_range_eq_some] at h
  obtain ⟨hk, -, hbefore⟩ := h
  simp only [Bool.and_eq_true, decide_eq_true_eq] at hk
  refine ⟨hk.1, hk.2, fun m hi hm => ?_⟩
  simpa [hi] using hbefore m hm

section

variable {s : State} {p : Fin 16}

theorem tryCandidate_of_some {i k : Nat} (h : nextCand s p.val (getPort s p.val) i = some k) :
    (getPort (tryCandidate p.val i s) p.val).st = (if (getPort s p.val).st = .retrain then .retrain else .equalize) ∧
    (getPort (tryCandidate p.val i s) p.val).cand = k ∧ (tryCandidate p.val i s).outs = s.outs := by
  unfold tryCandidate
  simp only [h]
  exact ⟨by simp, by simp, rfl⟩

theorem tryCandidate_of_none {i : Nat} (h : nextCand s p.val (getPort s p.val) i = none) : tryCandidate p.val i s = belowMin p.val s := by
  unfold tryCandidate
  simp only [h]

/-- No mode is left in a first training: the port announces itself again. -/
theorem belowMin_of_first (h : (getPort s p.val).st ≠ .retrain) : belowMin p.val s =
    announce p.val (setPort p.val { getPort s p.val with st := .detect } (portEvent p.val 8 1 s)) := by
  simp [belowMin, h]

theorem belowMin_first (h : (getPort s p.val).st ≠ .retrain) : (getPort (belowMin p.val s) p.val).st = .detect ∧
    .train p.val 3 511 ∈ (belowMin p.val s).outs ∧ s.outs ⊆ (belowMin p.val s).outs ∧ eventSet (belowMin p.val s) .port p.val 8 := by
  rw [belowMin_of_first h]
  refine ⟨by simp, mem_announce (by simp), ?_, ?_⟩
  · exact List.Subset.trans (portEvent_keeps p.val 8 1 s).outs (announce_portsKept p.val (.refl (setPort p.val _ _))).outs
  · refine (announce_portsKept p.val (.refl (setPort p.val _ _))).events _ _ _ (by decide) ?_
    exact eventSet_of_regs (setPort_regs ..) (eventSet_portEvent p.val 1 s (by decide))

theorem tryCandidate_outs {i : Nat} (h : (getPort s p.val).st ≠ .retrain) : s.outs ⊆ (tryCandidate p.val i s).outs := by
  cases hn : nextCand s p.val (getPort s p.val) i with
  | none => exact tryCandidate_of_none hn ▸ (belowMin_first h).2.2.1
  | some k => exact (tryCandidate_of_some hn).2.2 ▸ List.Subset.refl _

/-- Where a next candidate is trained, it is not one before i. -/
theorem le_cand_tryCandidate {i : Nat} (h : (getPort s p.val).st ≠ .retrain) (ht : (getPort (tryCandidate p.val i s) p.val).st = .equalize) :
    i ≤ (getPort (tryCandidate p.val i s) p.val).cand := by
  cases hn : nextCand s p.val (getPort s p.val) i with
  | none =>
    rw [tryCandidate_of_none hn, (belowMin_first h).1] at ht
    cases ht
  | some k =>
    rw [(tryCandidate_of_some hn).2.1]
    exact (nextCand_eq_some hn).1

/-- What every round of a loop keeps, the loop keeps. -/
theorem forEach_keeps {α β : Type} (view : State → β) (xs : List α) {f : α → State → State} (hf : ∀ x u, view (f x u) = view u) :
    view (forEach xs f s) = view s := by
  induction xs generalizing s with
  | nil => rfl
  | cons x xs ih => exact ih.trans (hf x s)

/-! ## Packets of IDENTIFY (R270, R274) -/

/-- A port without what the packets of IDENTIFY change: its codewords, the parts of a packet and a block, the partner's nonce, and credit. -/
def Port.besidesIdent (x : Port) : Port :=
  { x with credit := 0, owed := 0, idQ := [], idSeq := 0, idBuf := [], idPart := [], idLeft := 0, nonceIn := none, idBytes := [] }

@[simp] theorem getPort_emitIdent (e : SentCw) (q : Nat) : getPort (emitIdent p.val e s) q = getPort s q := rfl

theorem getPort_sendIdent (us : List LinkUnit) : getPort (sendIdent p.val us s) p.val = { getPort s p.val with
    idSeq := ((getPort s p.val).idSeq + 1) % 512, idBuf := (getPort (sendIdent p.val us s) p.val).idBuf } := by
  simp [sendIdent]

@[simp] theorem sendIdent_besidesIdent (us : List LinkUnit) :
    (getPort (sendIdent p.val us s) p.val).besidesIdent = (getPort s p.val).besidesIdent := by
  rw [getPort_sendIdent]
  rfl

@[simp] theorem emitUnits_besidesIdent (fuel : Nat) (us : List LinkUnit) :
    (getPort (emitUnits p.val fuel us s) p.val).besidesIdent = (getPort s p.val).besidesIdent := by
  induction fuel generalizing us s with
  | zero => rfl
  | succ fuel ih =>
    unfold emitUnits
    split
    · rfl
    · rw [ih, sendIdent_besidesIdent]

@[simp] theorem takeIdQ_besidesIdent (q : List (List LinkUnit)) (x : Port) : (takeIdQ q x).2.besidesIdent = x.besidesIdent := by
  fun_induction takeIdQ <;> simp_all [Port.besidesIdent]

@[simp] theorem sendPackets_besidesIdent (pkts : List (List LinkUnit)) :
    (getPort (sendPackets p.val pkts s) p.val).besidesIdent = (getPort s p.val).besidesIdent := by
  simp [sendPackets]

@[simp] theorem oweIdent_besidesIdent (n : Nat) : (getPort (oweIdent p.val n s) p.val).besidesIdent = (getPort s p.val).besidesIdent := by
  simp only [oweIdent, getPort_modPort]
  split <;> rfl

@[simp] theorem sendBlock_besidesIdent (b : List Byte) :
    (getPort (sendBlock p.val b s) p.val).besidesIdent = (getPort s p.val).besidesIdent := sendPackets_besidesIdent _

/-- A port is written with what differs only in what the packets of IDENTIFY change. -/
theorem setPort_besidesIdent {x : Port} (h : x.besidesIdent = (getPort s p.val).besidesIdent) :
    (getPort (setPort p.val x s) p.val).besidesIdent = (getPort s p.val).besidesIdent := by
  rw [getPort_setPort, h]

@[simp] theorem takeIdent_besidesIdent (pkt : List LinkUnit) :
    (getPort (takeIdent p.val pkt s) p.val).besidesIdent = (getPort s p.val).besidesIdent := by
  have howed : (getPort (addPair (regAt .port p.val 0x98) pkt.length (oweIdent p.val pkt.length s)) p.val).besidesIdent =
      (getPort s p.val).besidesIdent := by simp
  unfold takeIdent
  dsimp only
  rw [← howed]
  generalize addPair _ _ _ = u
  split
  · split
    · split
      · rw [getPort_takeFree, sendBlock_besidesIdent]
        exact setPort_besidesIdent rfl
      · exact setPort_besidesIdent rfl
    · rfl
  · split
    · exact setPort_besidesIdent rfl
    · rfl
  · rfl

@[simp] theorem identUnit_besidesIdent (u : LinkUnit) :
    (getPort (identUnit p.val u s) p.val).besidesIdent = (getPort s p.val).besidesIdent := by
  unfold identUnit
  dsimp only
  split
  · split
    · rw [getPort_bump, oweIdent_besidesIdent]
      exact setPort_besidesIdent rfl
    · split
      · exact setPort_besidesIdent rfl
      · split
        · rw [takeIdent_besidesIdent]
          exact setPort_besidesIdent rfl
        · exact setPort_besidesIdent rfl
  · split
    · rw [takeIdent_besidesIdent]
      exact setPort_besidesIdent rfl
    · exact setPort_besidesIdent rfl

/-! ## Codewords of IDENTIFY (R268, R275) -/

/-- The port once a good codeword of IDENTIFY has acknowledged some of its own. -/
def Port.identAcked (x : Port) (cw : Codeword) : Port := { x with idBuf := ackedTo cw.ack.val x.idBuf }

/-- A good codeword of IDENTIFY acknowledges, with NAK the others go out again, and then its packets are taken where it is due. -/
theorem identCodeword_eq (cw : Codeword) : ∃ u, getPort u p.val = (getPort s p.val).identAcked cw ∧
    identCodeword p.val cw s = if identDue (getPort s p.val) cw.seq.val then
        sendPackets p.val [] (forEach cw.units.toList (identUnit p.val)
          (modPort p.val (fun x => { x with idAck := some cw.seq.val, idNak := false }) u))
      else u := by
  refine ⟨if cw.nak then forEach (ackedTo cw.ack.val (getPort s p.val).idBuf) (emitIdent p.val)
    (setPort p.val ((getPort s p.val).identAcked cw) s) else setPort p.val ((getPort s p.val).identAcked cw) s, ?_, rfl⟩
  split
  · rw [forEach_keeps (fun u => getPort u p.val) _ fun _ _ => getPort_emitIdent _ _, getPort_setPort]
  · rw [getPort_setPort]

/-- A codeword that is due is acknowledged; what else it changes is what its packets change. -/
theorem identCodeword_of_due {cw : Codeword} (h : identDue (getPort s p.val) cw.seq.val = true) :
    (getPort (identCodeword p.val cw s) p.val).besidesIdent =
      { (getPort s p.val).besidesIdent with idAck := some cw.seq.val, idNak := false } := by
  obtain ⟨u, hu, heq⟩ := identCodeword_eq (s := s) (p := p) cw
  rw [heq, if_pos h, sendPackets_besidesIdent,
    forEach_keeps (fun u => (getPort u p.val).besidesIdent) _ fun _ _ => identUnit_besidesIdent _, getPort_modPort, hu]
  rfl

/-- One that is not due acknowledges codewords of this port, no more. -/
theorem identCodeword_of_not_due {cw : Codeword} (h : identDue (getPort s p.val) cw.seq.val = false) :
    getPort (identCodeword p.val cw s) p.val = (getPort s p.val).identAcked cw := by
  obtain ⟨u, hu, heq⟩ := identCodeword_eq (s := s) (p := p) cw
  rw [heq, if_neg (by simp [h]), hu]

/-- A codeword of the link that comes early is discarded: NAK says so, and IDENTIFY's own codewords are forgotten. -/
theorem getPort_earlyCodeword (cw : Codeword) : (getPort (earlyCodeword p.val cw s) p.val).nak = true ∧
    (getPort (earlyCodeword p.val cw s) p.val).st = (getPort s p.val).st ∧
    (getPort (earlyCodeword p.val cw s) p.val).idAck = (getPort s p.val).idAck ∧
    (getPort (earlyCodeword p.val cw s) p.val).idBytes = (getPort s p.val).idBytes ∧
    (getPort (earlyCodeword p.val cw s) p.val).nonceIn = (getPort s p.val).nonceIn := by
  unfold earlyCodeword
  dsimp only
  split
  · rw [getPort_sendIdent]
    simp [dropAcked]
  · simp [dropAcked]

/-- An uncorrectable codeword is answered by one of idle units that carries NAK. -/
theorem identLost_answers : (getPort (identLost p.val s) p.val).idNak = true ∧
    (getPort (identLost p.val s) p.val).idSeq = ((getPort s p.val).idSeq + 1) % 512 ∧
    (identLost p.val s).outs = .ident p.val (controlBits (getPort s p.val).idSeq ((getPort s p.val).idAck.getD 511) true)
      (List.replicate 10 0) (getPort s p.val).tx.active :: s.outs := by
  refine ⟨?_, ?_, ?_⟩
  · simp [identLost, sendIdent]
  · simp [identLost, sendIdent]
  · simp [identLost, sendIdent, emitIdent]

/-! ## IDENTIFY begins, fails and ends (R274 to R276, R278) -/

/-- A fresh nonce goes out; what else the port shows is that IDENTIFY has begun. -/
theorem beginIdentify_besidesIdent : (getPort (beginIdentify p.val s) p.val).besidesIdent =
    { (getPort s p.val).besidesIdent with
        nonceOut := some (Config.nonce s.free), hold := false, idAck := none, idNak := false, train := .identify
        st := if (getPort s p.val).st = .retrain then .retrain else .identify } := by
  simp only [beginIdentify, sendNonce, sendPackets_besidesIdent, getPort_takeFree, getPort_modPort]
  rfl

/-- An identity that is not confirmed outside a retrain: ID_FAIL, and the hold. -/
theorem identFail_of_first (h : (getPort s p.val).st ≠ .retrain) :
    getPort (identFail p.val s) p.val = { getPort s p.val with hold := true } ∧ eventSet (identFail p.val s) .port p.val 5 := by
  have hevent := eventSet_portEvent p.val 4 s (e := 5) (by decide)
  have hfail : identFail p.val s = modPort p.val (fun x => { x with hold := true }) (portEvent p.val 5 4 s) := by simp [identFail, h]
  rw [hfail]
  exact ⟨by simp, eventSet_of_regs (modPort_regs ..) hevent⟩

@[simp] theorem sparePattern_portsKept {s₀ : State} (k : Nat) (old new : Option Nat) (h : PortsKept s₀ s) :
    PortsKept s₀ (sparePattern k old new s) := by
  unfold sparePattern
  repeat' split
  all_goals simp [h]

/-- The port that READY writes, before the events of its bring-up. -/
def Port.broughtUp (x : Port) (peer : Peer) (loop clash : Bool) : Port :=
  { x with
      st := .ready, peer := peer, loopback := loop, clash := clash, seq := 0, ack := 511, replayBuf := [],
      resend := 0, credit := 4096, owed := 0, nonceOut := none, nonceIn := none, idBytes := [], idPart := [],
      idLeft := 0, idQ := [], rxPart := [], rxLeft := 0, laneErr := [] }

/-- READY writes the port and raises PORT_UP; what the partner's identity raises after it leaves both. -/
theorem enterReady_shows (peer : Peer) : ∃ clash,
    (getPort (enterReady p.val peer s) p.val).besidesQueue =
      ((getPort s p.val).broughtUp peer (peer.digest == shake256 s.fuses.identKey) clash).besidesQueue ∧
    eventSet (enterReady p.val peer s) .port p.val 0 := by
  unfold enterReady
  extract_lets own loop clash written counted up spare looped
  have hkept : PortsKept up (if clash then portEvent p 6 5 looped else looped) := by
    have hspare : PortsKept up spare := sparePattern_portsKept _ _ _ (.refl up)
    have hloop : PortsKept up looped := ite_portsKept (portEvent_portsKept _ _ _ hspare) hspare
    exact ite_portsKept (portEvent_portsKept _ _ _ hloop) hloop
  refine ⟨clash, (hkept.ports p.val).trans (congrArg Port.besidesQueue ?_),
    hkept.events _ _ _ (by decide) (eventSet_portEvent p.val 5 counted (by decide))⟩
  simp [up, counted, written, Port.broughtUp, loop, own]

/-- A retrain ends: the partner is recorded anew, and the port is in the state that it left, or READY, with the codewords that it has to resend. -/
theorem endRetrain_shows (peer : Peer) : (getPort (flushWaiting (endRetrain p.val peer s)) p.val).peer = peer ∧
    (getPort (flushWaiting (endRetrain p.val peer s)) p.val).st =
      (if (getPort s p.val).wasActive = true ∧ (getPort s p.val).enable = true then .active else .ready) ∧
    (getPort (flushWaiting (endRetrain p.val peer s)) p.val).replayBuf.map (fun e => (e.seq, e.units)) =
      (getPort s p.val).replayBuf.map (fun e => (e.seq, e.units)) := by
  have hflush := (flushWaiting_portsKept (.refl (endRetrain p.val peer s))).ports p.val
  have hbuf := congrArg (fun x => x.replayBuf.map (fun e => (e.seq, e.units))) hflush
  refine ⟨(congrArg Port.peer hflush).trans ?_, (congrArg Port.st hflush).trans ?_, hbuf.trans ?_⟩ <;>
    simp [endRetrain, Port.besidesQueue, Function.comp_def]

/-! ## A codeword is received (R268, R279) -/

/-- The state once a codeword's errors are counted (R268, R279). -/
def countCodeword (p : Nat) (cw : Codeword) (s : State) : State :=
  let s := countSymErrs p cw.symErrs s
  if !cw.good then bump (regAt .links 0 0x48) 15 0 1 (bump (regAt .port p 0x88) 31 16 1 s)
  else if cw.corrected then bump (regAt .port p 0x88) 15 0 1 s else s

theorem countCodeword_shows (cw : Codeword) : ∃ le,
    getPort (countCodeword p.val cw s) p.val = { getPort s p.val with laneErr := le } ∧ (countCodeword p.val cw s).outs = s.outs := by
  unfold countCodeword
  split
  · exact ⟨_, by simp only [getPort_bump, countSymErrs, getPort_modPort]; rfl, rfl⟩
  · split
    · exact ⟨_, by simp only [getPort_bump, countSymErrs, getPort_modPort]; rfl, rfl⟩
    · exact ⟨_, by simp only [countSymErrs, getPort_modPort]; rfl, rfl⟩

theorem codewordReceive_ident (cw : Codeword) (hst : (getPort s p.val).st = .identify) (hhold : (getPort s p.val).hold = false) :
    Answers (.codewordReceive p cw) s
      (if cw.good then if cw.ident then identCodeword p.val cw (countCodeword p.val cw s) else earlyCodeword p.val cw (countCodeword p.val cw s)
       else identLost p.val (countCodeword p.val cw s)) := by
  cases hg : cw.good <;> simp [Answers, exec, execCodewordReceive, countCodeword, inStage, hst, hhold, hg]

end

end Sys2Proof.Machine

/-! SUPPORT. The links: codewords and packets of a linked port, by what they leave of what it has heard and of its state. -/

namespace Sys2Proof.Machine

open Sys2Proof.Spec (eventSet Answers)

/-- What a port has heard: SEQ of the last codeword received good, and the NAK it sends. -/
def Port.heard (x : Port) : Nat × Bool := (x.ack, x.nak)

/-- A port is linked in READY and ACTIVE. -/
def Port.linked (x : Port) : Prop := x.st = .ready ∨ x.st = .active

/-- A port without what changes as a codeword is filled: the packets to send, credit, and the switch that a SPARE_ACK names. -/
def Port.besidesUnits (x : Port) : Port := { x with txQ := [], txPart := [], credit := 0, owed := 0, txSwitch := none }

/-! ## One codeword leaves (R268, R279) -/

@[simp] theorem nameSwitch_besidesUnits (x : Port) (h : LinkUnit) : (nameSwitch x h).2.besidesUnits = x.besidesUnits := by
  unfold nameSwitch
  split <;> rfl

@[simp] theorem fillUnits_besidesUnits (n : Nat) (x : Port) : (fillUnits n x).2.besidesUnits = x.besidesUnits := by
  fun_induction fillUnits with
  | case1 => rfl
  | case2 n x u t _ us y hfill ih =>
    rw [hfill] at ih
    exact ih
  | case3 n x _ _ us y hfill ih =>
    rw [hfill] at ih
    exact ih
  | case4 n x _ q _ _ ih => exact ih
  | case5 n x _ q u t h x' hname us y _ _ hfill ih =>
    have hx := nameSwitch_besidesUnits x u
    rw [hname] at hx
    exact ih.trans hx
  | case6 n x _ pkt q _ _ us y hfill ih =>
    rw [hfill] at ih
    exact ih

theorem fillUnits_heard (n : Nat) (x : Port) : (fillUnits n x).2.heard = x.heard :=
  (congrArg Port.heard (fillUnits_besidesUnits n x)).trans rfl

theorem fillUnits_st (n : Nat) (x : Port) : (fillUnits n x).2.st = x.st :=
  (congrArg Port.st (fillUnits_besidesUnits n x)).trans rfl

@[simp] theorem txSwitchNow_heard (x : Port) : (txSwitchNow x).heard = x.heard := by
  unfold txSwitchNow
  split
  · split <;> rfl
  · rfl

@[simp] theorem txSwitchNow_st (x : Port) : (txSwitchNow x).st = x.st := by
  unfold txSwitchNow
  split
  · split <;> rfl
  · rfl

section

variable {s : State} {p : Fin 16}

/-- A port is written with what it has heard. -/
theorem setPort_heard {x : Port} (h : x.heard = (getPort s p.val).heard) :
    (getPort (setPort p.val x s) p.val).heard = (getPort s p.val).heard := by
  rw [getPort_setPort, h]

/-- A codeword is a resend, which only its count tells, or a new one with the units that were filled. -/
theorem getPort_sendCodeword :
    (∃ buf n, getPort (sendCodeword p.val s) p.val = { getPort s p.val with replayBuf := buf, resend := n }) ∨
    ∃ seq buf st, (st = (getPort s p.val).st ∨ st = .ready) ∧ getPort (sendCodeword p.val s) p.val =
      { (fillUnits 10 (txSwitchNow (getPort s p.val))).2 with seq := seq, replayBuf := buf, st := st } := by
  unfold sendCodeword
  dsimp only
  split
  · left
    split
    · exact ⟨_, _, rfl⟩
    · exact ⟨_, _, (getPort_emit ..).trans (getPort_setPort ..)⟩
  · split
    · right
      refine ⟨_, _, _, ?_, by simp only [getPort_addPair, getPort_emit, getPort_sparePattern, getPort_setPort]; rfl⟩
      split
      · exact .inr rfl
      · exact .inl (by simp [fillUnits_st])
    · exact .inl ⟨_, _, rfl⟩

@[simp] theorem sendCodeword_heard : (getPort (sendCodeword p.val s) p.val).heard = (getPort s p.val).heard := by
  rcases getPort_sendCodeword (s := s) (p := p) with ⟨buf, n, h⟩ | ⟨seq, buf, st, -, h⟩
  · rw [h]
    rfl
  · rw [h]
    exact (fillUnits_heard 10 _).trans (txSwitchNow_heard _)

theorem sendCodeword_linked (hl : (getPort s p.val).linked) : (getPort (sendCodeword p.val s) p.val).linked := by
  rcases getPort_sendCodeword (s := s) (p := p) with ⟨buf, n, h⟩ | ⟨seq, buf, st, rfl | rfl, h⟩
  · rw [h]
    exact hl
  · rw [h]
    exact hl
  · rw [h]
    exact .inl rfl

/-! ## Packets of lane control (R279) -/

theorem getPort_queueControl (u : LinkUnit) :
    getPort (queueControl p.val u s) p.val = { getPort s p.val with txQ := [u] :: (getPort s p.val).txQ } := getPort_modPort ..

@[simp] theorem queueControl_heard (u : LinkUnit) : (getPort (queueControl p.val u s) p.val).heard = (getPort s p.val).heard := by
  rw [getPort_queueControl]
  rfl

@[simp] theorem flushControl_heard (u : LinkUnit) (fuel : Nat) :
    (getPort (flushControl p.val u fuel s) p.val).heard = (getPort s p.val).heard := by
  induction fuel generalizing s with
  | zero => rfl
  | succ fuel ih =>
    unfold flushControl
    split
    · rw [ih, sendCodeword_heard]
    · rfl

theorem flushControl_linked (u : LinkUnit) (fuel : Nat) (hl : (getPort s p.val).linked) :
    (getPort (flushControl p.val u fuel s) p.val).linked := by
  induction fuel generalizing s with
  | zero => exact hl
  | succ fuel ih =>
    unfold flushControl
    split
    · exact ih (sendCodeword_linked hl)
    · exact hl

@[simp] theorem enterRetrain_heard : (getPort (enterRetrain p.val s) p.val).heard = (getPort s p.val).heard := by
  unfold enterRetrain
  dsimp only
  split
  · simp [Port.heard]
  · rfl

@[simp] theorem retireLane_heard (lane : Nat) : (getPort (retireLane p.val lane s) p.val).heard = (getPort s p.val).heard := by
  unfold retireLane
  extract_lets x u sent held marked trained
  split
  · rfl
  · split
    · split
      · rfl
      · exact setPort_heard rfl
    · split
      · rw [getPort_noteLane]
        exact setPort_heard rfl
      · split
        · rw [queueControl_heard]
          exact setPort_heard rfl
        · have hsent : (getPort sent p.val).heard = (getPort s p.val).heard := by simp [sent]
          have htrained : (getPort trained p.val).heard = (getPort s p.val).heard := by
            rw [← hsent]
            simp only [trained, enterRetrain_heard, getPort_noteLane, marked, getPort_modPort]
            rfl
          split
          · rw [queueControl_heard, htrained]
          · exact htrained

@[simp] theorem nextSparing_heard : (getPort (nextSparing p.val s) p.val).heard = (getPort s p.val).heard := by
  unfold nextSparing
  dsimp only
  split
  · rw [retireLane_heard]
    exact setPort_heard rfl
  · rfl

@[simp] theorem rxSwitchNow_heard : (getPort (rxSwitchNow p.val s) p.val).heard = (getPort s p.val).heard := by
  unfold rxSwitchNow
  dsimp only
  split
  · split
    · exact setPort_heard rfl
    · rfl
  · rfl

/-! ## A codeword is taken (R266 to R269) -/

@[simp] theorem deliver_heard (pkt : List LinkUnit) : (getPort (deliver p.val pkt s) p.val).heard = (getPort s p.val).heard := by
  unfold deliver
  extract_lets type counted x
  rw [← getPort_addPair s p.val (regAt .port p.val 0x98) pkt.length]
  split
  · split
    · exact setPort_heard rfl
    · rw [getPort_bump]
      exact setPort_heard rfl
  · exact setPort_heard rfl

@[simp] theorem takeUnit_heard (u : LinkUnit) : (getPort (takeUnit p.val u s) p.val).heard = (getPort s p.val).heard := by
  unfold takeUnit
  dsimp only
  split
  · split
    · rw [getPort_bump]
      exact setPort_heard rfl
    · split
      · exact setPort_heard rfl
      · split
        · rw [deliver_heard]
          exact setPort_heard rfl
        · exact setPort_heard rfl
  · split
    · rw [deliver_heard]
      exact setPort_heard rfl
    · exact setPort_heard rfl

@[simp] theorem purgeLops_heard : (getPort (purgeLops p.val s) p.val).heard = (getPort s p.val).heard := by
  unfold purgeLops
  dsimp only
  split
  · rfl
  · simp [Port.heard, owe]

@[simp] theorem takeUnits_heard (us : List LinkUnit) : (getPort (takeUnits p.val us s) p.val).heard = (getPort s p.val).heard := by
  rw [takeUnits, purgeLops_heard, forEach_keeps (fun u => (getPort u p.val).heard) _ fun _ _ => takeUnit_heard _]

@[simp] theorem identCodeword_heard (cw : Codeword) : (getPort (identCodeword p.val cw s) p.val).heard = (getPort s p.val).heard := by
  cases h : identDue (getPort s p.val) cw.seq.val with
  | true => exact (congrArg Port.heard (identCodeword_of_due h)).trans rfl
  | false =>
    rw [identCodeword_of_not_due h]
    rfl

/-- A good codeword that is in order and asks for nothing again is the last one heard, and no NAK goes out. -/
theorem acceptCodeword_heard {cw : Codeword} (hl : (getPort s p.val).linked) (hnak : cw.nak = false)
    (hseq : cw.seq.val = ((getPort s p.val).ack + 1) % 512) :
    (getPort (acceptCodeword p.val cw s) p.val).heard = (cw.seq.val, false) := by
  have hport : getPort (dropAcked p.val cw s) p.val = _ := getPort_modPort ..
  have hst : (getPort (dropAcked p.val cw s) p.val).st = (getPort s p.val).st := by rw [hport]
  have hack : (getPort (dropAcked p.val cw s) p.val).ack = (getPort s p.val).ack := by rw [hport]
  have htake : takeAck p.val cw s = dropAcked p.val cw s := by simp [takeAck, hnak]
  have hnot : ¬((getPort s p.val).st ≠ .ready ∧ (getPort s p.val).st ≠ .active) := by
    rcases hl with h | h <;> simp [h]
  unfold acceptCodeword
  simp only [htake, hst, hnot, hack, hseq.symm, if_true, if_false]
  rw [nextSparing_heard, takeUnits_heard, rxSwitchNow_heard, getPort_setPort]
  rfl

end

end Sys2Proof.Machine

/-! OBLIGATION O40. What the host asks of a port. -/

namespace Sys2Proof.Machine

open Sys2Proof.Spec

section

variable {s : State} {p : Fin 16}

/-- Nothing waits, so nothing leaves when a port becomes ACTIVE. -/
theorem flushWaiting_of_nil (h : s.lig.waiting = []) : flushWaiting s = s := by
  unfold flushWaiting
  dsimp only
  rw [h, List.foldl_nil, modLig, ← h]

theorem portEnable_ready (hst : (getPort s p.val).st = .ready) (hl : (getPort s p.val).loopback = false)
    (hc : (getPort s p.val).clash = false) :
    ∃ t, Answers (.portEnable p true) s t ∧ (getPort t p.val).st = .active ∧ (getPort t p.val).enable = true ∧
      (s.lig.waiting = [] → t = setPort p.val { getPort s p.val with st := .active, enable := true } s) := by
  have hkept := (flushWaiting_portsKept (.refl (setPort p.val { getPort s p.val with st := .active, enable := true } s))).ports p.val
  rw [getPort_setPort] at hkept
  refine ⟨_, ?_, congrArg Port.st hkept, congrArg Port.enable hkept, fun h => flushWaiting_of_nil h⟩
  simp [Answers, exec, execPortEnable, hst, hl, hc]

theorem portEnable_barred (h : (getPort s p.val).loopback = true ∨ (getPort s p.val).clash = true) : Answers (.portEnable p true) s s := by
  rcases h with h | h <;> simp [Answers, exec, execPortEnable, h]

theorem portEnable_cleared (h : (getPort s p.val).enable = true) : Answers (.portEnable p false) s (setPort p.val
    { getPort s p.val with
        enable := false
        st := if (getPort s p.val).st = .active ∧ (getPort s p.val).txQ = [] ∧ (getPort s p.val).txPart = [] then .ready
          else (getPort s p.val).st } s) := by
  simp [Answers, exec, execPortEnable, h]

theorem portRetrainCmd_linked (h : (getPort s p.val).st = .ready ∨ (getPort s p.val).st = .active) :
    ∃ t, Answers (.portRetrainCmd p) s t ∧ (getPort t p.val).st = .retrain ∧
      (getPort t p.val).wasActive = decide ((getPort s p.val).st = .active) ∧ eventSet t .port p.val 2 ∧ t.hbm = s.hbm ∧
      t.ctxs = s.ctxs := by
  obtain ⟨hst, hwas, hevent⟩ := enterRetrain_of_linked h
  exact ⟨_, rfl, hst, hwas, hevent, enterRetrain_hbm p.val, enterRetrain_ctxs ..⟩

/-- DOWN, a loss of signal and a retrain that never ends are each a drop with a reason of its own, none of them 5. -/
theorem drops_answer {c : Instr} {why : Nat}
    (h : ((c, why) = (.portDownCmd p, 2) ∨ (c, why) = (.lossOfSignal p, 1)) ∧ (getPort s p.val).st ≠ .off ∨
      (c, why) = (.retrainTimeout p, 3) ∧ (getPort s p.val).st = .retrain) : Answers c s (lostPort p.val why s) ∧ why ≠ 5 := by
  rcases h with ⟨h | h, hst⟩ | ⟨h, hst⟩ <;> obtain ⟨rfl, rfl⟩ := Prod.mk.inj h
  · exact ⟨by simp [Answers, exec, execPortDownCmd, hst], by decide⟩
  · exact ⟨by simp [Answers, exec, execLossOfSignal, hst], by decide⟩
  · exact ⟨by simp [Answers, exec, execRetrainTimeout, hst], by decide⟩

end

/-- Settles O40: ENABLE and RETRAIN by what they write, the three drops by what a port that is lost shows whatever its loss leads to. -/
theorem portStates : Obligations.PortStates := by
  unfold Obligations.PortStates
  rintro s p x rfl
  refine ⟨portEnable_ready, portEnable_barred, portEnable_cleared, portRetrainCmd_linked, fun c why h => ?_⟩
  obtain ⟨hans, hwhy⟩ := drops_answer h
  obtain ⟨hst, hdown, hbuf, hpeer, hen, hsent, hevent⟩ := lostPort_dropped (s := s) (p := p) hwhy
  exact ⟨_, hans, hst, hdown, hbuf, hpeer, hen, hsent, hevent⟩

end Sys2Proof.Machine

/-! OBLIGATION O41. A port trains and identifies its partner. -/

namespace Sys2Proof.Machine

open Sys2Proof.Spec

section

variable {s : State} {p : Fin 16}

/-! ## Training (R271 to R273) -/

theorem connectorOf_lt (p : Fin 16) : connectorOf p.val < 4 := by decide +revert

/-- Once signal is detected a cable is in, and a port in DETECT enters NEGOTIATE. -/
theorem signalDetect_answers : ∃ pw, (vget Cable.none pw.cables (connectorOf p.val)).present = true ∧
    ((getPort s p.val).st = .detect → Answers (.signalDetect p) s
      (emit (.train p.val 0 (maxRate s p.val)) (setPort p.val { getPort s p.val with st := .negotiate } { s with power := pw }))) ∧
    ((getPort s p.val).st ≠ .detect → Answers (.signalDetect p) s { s with power := pw }) := by
  have hport : getPort (setPresent (connectorOf p.val) true s) p.val = getPort s p.val := rfl
  refine ⟨(setPresent (connectorOf p.val) true s).power, ?_, fun h => ?_, fun h => ?_⟩
  · simp [setPresent, vget_vset_self _ _ _ (connectorOf_lt p)]
  · simp only [Answers, exec, execSignalDetect, hport, h, if_true]
    rfl
  · simp only [Answers, exec, execSignalDetect, hport, h, if_false]
    rfl

/-- A port in DETECT announces itself. -/
theorem announce_of_detect {x : Port} (h : x.st = .detect) :
    announce p.val (setPort p.val x s) = emit (.train p.val 3 511) (setPort p.val x s) := by
  simp [announce, h]

theorem negotiateTimeout_answers (h : (getPort s p.val).st = .negotiate) :
    Answers (.negotiateTimeout p) s (emit (.train p.val 3 511) (setPort p.val { getPort s p.val with st := .detect } s)) := by
  simp only [Answers, exec, execNegotiateTimeout, h, if_true]
  rw [announce_of_detect rfl]

theorem goodAt_of_none_failed {l : Lanes9} (h : l.failed = Vector.replicate 4 0) {i : Nat} (hi : i < 9) :
    bit (l.goodAt 0) i = (bit l.good i && !bit l.bad i) := by
  rw [Bool.eq_iff_iff, bit_goodAt, h]
  simp [hi, vget, bit_eq_testBit]

/-- Frames in NEGOTIATE: the good lanes go out, and the first candidate that both ends allow is trained. -/
theorem trainingFrame_shows (frames : List Frame) (peer : PeerCaps) (y : Port) (h : (getPort s p.val).st = .negotiate)
    (hy : y = negotiated s p.val frames peer (getPort s p.val)) :
    ∃ t m, Answers (.trainingFrame p frames peer) s t ∧ .train p.val 1 m ∈ t.outs ∧
      (∀ i, i < 9 → bit m i = (bit y.rx.good i && !bit y.rx.bad i)) ∧
      (∀ k, nextCand s p.val y 0 = some k → (getPort t p.val).st = .equalize ∧ (getPort t p.val).cand = k ∧
        candOk s p.val y (candidates.getD k (0, 0)) = true ∧ (∀ m, m < k → candOk s p.val y (candidates.getD m (0, 0)) = false)) ∧
      (nextCand s p.val y 0 = none → (getPort t p.val).st = .detect ∧ .train p.val 3 511 ∈ t.outs ∧ eventSet t .port p.val 8) := by
  have hst : y.st = .negotiate := by
    rw [hy]
    exact h
  have hfailed : y.rx.failed = Vector.replicate 4 0 := by
    rw [hy]
    rfl
  have hans : Answers (.trainingFrame p frames peer) s (tryCandidate p.val 0 (reportLanes p.val (setPort p.val y s))) := by
    simp [Answers, exec, execTrainingFrame, inStage, h, hy]
  have hport : getPort (reportLanes p.val (setPort p.val y s)) p.val = y := by simp [reportLanes]
  have hregs : (reportLanes p.val (setPort p.val y s)).regs = s.regs := rfl
  have hout : .train p.val 1 (y.rx.goodAt 0) ∈ (reportLanes p.val (setPort p.val y s)).outs := by simp [reportLanes]
  generalize reportLanes p.val (setPort p.val y s) = u at *
  have hnext : nextCand u p.val (getPort u p.val) 0 = nextCand s p.val y 0 := by rw [hport, nextCand_of_regs hregs]
  have hnot : (getPort u p.val).st ≠ .retrain := by simp [hport, hst]
  refine ⟨_, _, hans, tryCandidate_outs hnot hout, fun i hi => goodAt_of_none_failed hfailed hi, fun k hk => ?_, fun hn => ?_⟩
  · obtain ⟨hs, hc, -⟩ := tryCandidate_of_some (hnext.trans hk)
    obtain ⟨-, hok, hbefore⟩ := nextCand_eq_some hk
    exact ⟨by rw [hs, if_neg hnot], hc, hok, fun m hm => hbefore m (Nat.zero_le m) hm⟩
  · rw [tryCandidate_of_none (hnext.trans hn)]
    obtain ⟨hs, ho, -, he⟩ := belowMin_first hnot
    exact ⟨hs, ho, he⟩

theorem laneAt_lt (rev : Bool) {i : Nat} (h : i < 9) : laneAt rev i < 9 := by
  unfold laneAt
  split <;> omega

/-- EQUALIZE ends and no lane in use fails: the candidate becomes the mode and IDENTIFY begins. -/
theorem equalizeCandidateEnd_of_pass {rxErrs txErrs : Vector Nat 9} (hst : (getPort s p.val).st = .equalize)
    (h : failing (getPort s p.val).rx.active rxErrs (laneAt (getPort s p.val).reversed) = 0 ∧
      failing (getPort s p.val).tx.active txErrs id = 0) :
    ∃ u, getPort u p.val = { getPort s p.val with
        rate := (candidates.getD (getPort s p.val).cand (0, 0)).1, width := (candidates.getD (getPort s p.val).cand (0, 0)).2
        oldRate := (candidates.getD (getPort s p.val).cand (0, 0)).1, oldWidth := (candidates.getD (getPort s p.val).cand (0, 0)).2 } ∧
      Answers (.equalizeCandidateEnd p rxErrs txErrs) s (beginIdentify p.val u) := by
  simp only [Answers, exec, execEqualizeCandidateEnd, inStage, hst, h, and_self, if_true]
  refine ⟨_, ?_, rfl⟩
  split <;> simp

/-- EQUALIZE ends and a lane fails: the bad lanes are marked and the next candidate is tried. -/
theorem equalizeCandidateEnd_of_fail {rxErrs txErrs : Vector Nat 9} (hst : (getPort s p.val).st = .equalize)
    (h : ¬(failing (getPort s p.val).rx.active rxErrs (laneAt (getPort s p.val).reversed) = 0 ∧
      failing (getPort s p.val).tx.active txErrs id = 0)) :
    ∃ rx tx, Answers (.equalizeCandidateEnd p rxErrs txErrs) s
      (tryCandidate p.val ((getPort s p.val).cand + 1) (setPort p.val { getPort s p.val with rx := rx, tx := tx } s)) := by
  simp only [Answers, exec, execEqualizeCandidateEnd, inStage, hst, h, if_false]
  exact ⟨_, _, rfl⟩

/-- A candidate without bad lanes becomes the mode and IDENTIFY begins; one that fails is not tried again. -/
theorem equalizeCandidateEnd_shows (rxErrs txErrs : Vector Nat 9) (hst : (getPort s p.val).st = .equalize) :
    ∃ t, Answers (.equalizeCandidateEnd p rxErrs txErrs) s t ∧
      ((∀ i, i < 9 → vget 0 rxErrs i < 64 ∧ vget 0 txErrs i < 64) →
        (getPort t p.val).st = .identify ∧ (getPort t p.val).rate = (candidates.getD (getPort s p.val).cand (0, 0)).1 ∧
        (getPort t p.val).width = (candidates.getD (getPort s p.val).cand (0, 0)).2 ∧ (getPort t p.val).nonceOut.isSome = true) ∧
      (failing (getPort s p.val).tx.active txErrs id ≠ 0 → (getPort t p.val).st = .equalize →
        (getPort s p.val).cand < (getPort t p.val).cand) := by
  by_cases h : failing (getPort s p.val).rx.active rxErrs (laneAt (getPort s p.val).reversed) = 0 ∧
      failing (getPort s p.val).tx.active txErrs id = 0
  · obtain ⟨u, hu, hans⟩ := equalizeCandidateEnd_of_pass hst h
    have hbegun := beginIdentify_besidesIdent (s := u) (p := p)
    rw [hu] at hbegun
    refine ⟨_, hans, fun _ => ?_, fun hbad => absurd h.2 hbad⟩
    generalize getPort (beginIdentify p.val u) p.val = z at hbegun
    refine ⟨(congrArg Port.st hbegun).trans ?_, congrArg Port.rate hbegun, congrArg Port.width hbegun, ?_⟩
    · simp [hst]
    · exact congrArg (fun x => x.nonceOut.isSome) hbegun
  · obtain ⟨rx, tx, hans⟩ := equalizeCandidateEnd_of_fail hst h
    refine ⟨_, hans, fun hgood => absurd ⟨?_, ?_⟩ h, fun _ ht => le_cand_tryCandidate (by simp [hst]) ht⟩
    · exact failing_eq_zero (fun i => laneAt_lt _) fun i hi => (hgood i hi).1
    · exact failing_eq_zero (fun i hi => hi) fun i hi => (hgood i hi).2

/-! ## Identity (R274 to R276) -/

/-- A block in a first IDENTIFY makes the port READY, or fails. -/
theorem identityBlock_answers (hst : (getPort s p.val).st = .identify)
    (hhold : (getPort s p.val).hold = false) (hlen : 4096 ≤ (getPort s p.val).idBytes.length) : Answers (.identityBlock p) s
      (if blockOk (getPort s p.val) then enterReady p.val (peerOf (getPort s p.val).idBytes) s else identFail p.val s) := by
  cases hok : blockOk (getPort s p.val) <;> simp [Answers, exec, execIdentityBlock, inStage, hst, hhold, hlen, hok]

theorem identityBlock_shows (hst : (getPort s p.val).st = .identify)
    (hhold : (getPort s p.val).hold = false) (hlen : 4096 ≤ (getPort s p.val).idBytes.length) :
    ∃ t, Answers (.identityBlock p) s t ∧
      (blockOk (getPort s p.val) = true → (getPort t p.val).st = .ready ∧ (getPort t p.val).peer = peerOf (getPort s p.val).idBytes ∧
        (getPort t p.val).credit = 4096 ∧ (getPort t p.val).replayBuf = [] ∧ eventSet t .port p.val 0 ∧
        ((getPort t p.val).loopback = true ↔ (peerOf (getPort s p.val).idBytes).digest = shake256 s.fuses.identKey)) ∧
      (blockOk (getPort s p.val) = false →
        (getPort t p.val).st = .identify ∧ (getPort t p.val).hold = true ∧ eventSet t .port p.val 5) := by
  refine ⟨_, identityBlock_answers hst hhold hlen, fun hok => ?_, fun hok => ?_⟩
  · obtain ⟨clash, hup, hevent⟩ := enterReady_shows (s := s) (p := p) (peerOf (getPort s p.val).idBytes)
    rw [if_pos hok]
    generalize enterReady p.val (peerOf (getPort s p.val).idBytes) s = t at *
    generalize getPort t p.val = z at hup
    exact ⟨congrArg Port.st hup, congrArg Port.peer hup, congrArg Port.credit hup, congrArg Port.replayBuf hup, hevent,
      (congrArg (fun x => x.loopback = true) hup).to_iff.trans beq_iff_eq⟩
  · obtain ⟨hport, hevent⟩ := identFail_of_first (s := s) (p := p) (by simp [hst])
    rw [if_neg (by simp [hok]), hport]
    exact ⟨hst, rfl, hevent⟩

theorem identifyTimeout_shows (hst : (getPort s p.val).st = .identify)
    (hhold : (getPort s p.val).hold = false) :
    ∃ t, Answers (.identifyTimeout p) s t ∧ (getPort t p.val).hold = true ∧ eventSet t .port p.val 5 := by
  obtain ⟨hport, hevent⟩ := identFail_of_first (s := s) (p := p) (by simp [hst])
  exact ⟨identFail p.val s, by simp [Answers, exec, execIdentifyTimeout, inStage, hst, hhold], by rw [hport], hevent⟩

theorem idHoldEnd_answers (hst : (getPort s p.val).st = .identify) (hhold : (getPort s p.val).hold = true) :
    Answers (.idHoldEnd p) s (emit (.train p.val 3 511) (setPort p.val { getPort s p.val with st := .detect, hold := false } s)) := by
  simp only [Answers, exec, execIdHoldEnd, hst, hhold, and_self, if_true]
  rw [announce_of_detect rfl]

/-- A codeword in IDENTIFY: its kind decides what is acknowledged, what is kept and what goes out. -/
theorem codewordReceive_ident_shows (cw : Codeword) (hst : (getPort s p.val).st = .identify) (hhold : (getPort s p.val).hold = false) :
    ∃ t, Answers (.codewordReceive p cw) s t ∧
      (cw.good = true → cw.ident = true → identDue (getPort s p.val) cw.seq.val = true →
        (getPort t p.val).idAck = some cw.seq.val ∧ (getPort t p.val).idNak = false) ∧
      (cw.good = true → cw.ident = false → (getPort t p.val).nak = true ∧ (getPort t p.val).st = .identify) ∧
      (cw.good = true → cw.ident = false ∨ identDue (getPort s p.val) cw.seq.val = false →
        (getPort t p.val).idAck = (getPort s p.val).idAck ∧ (getPort t p.val).idBytes = (getPort s p.val).idBytes ∧
        (getPort t p.val).nonceIn = (getPort s p.val).nonceIn) ∧
      (cw.good = false → (getPort t p.val).idNak = true ∧ (getPort t p.val).idSeq = ((getPort s p.val).idSeq + 1) % 512 ∧
        t.outs = .ident p.val (controlBits (getPort s p.val).idSeq ((getPort s p.val).idAck.getD 511) true) (List.replicate 10 0)
          (getPort s p.val).tx.active :: s.outs) := by
  have hans := codewordReceive_ident cw hst hhold
  obtain ⟨le, hport, houts⟩ := countCodeword_shows (s := s) (p := p) cw
  generalize countCodeword p.val cw s = u at *
  have hdue : identDue (getPort u p.val) cw.seq.val = identDue (getPort s p.val) cw.seq.val := by rw [hport]; rfl
  refine ⟨_, hans, fun hg hi hd => ?_, fun hg hi => ?_, fun hg h => ?_, fun hg => ?_⟩
  · have hview := identCodeword_of_due (hdue.trans hd)
    simp only [hg, hi, if_true]
    exact ⟨congrArg Port.idAck hview, congrArg Port.idNak hview⟩
  · obtain ⟨hnak, hst', -⟩ := getPort_earlyCodeword (s := u) (p := p) cw
    simp only [hg, hi, if_true]
    exact ⟨hnak, by rw [if_neg (by simp), hst', hport, hst]⟩
  · simp only [hg, if_true]
    cases hi : cw.ident with
    | false =>
      obtain ⟨-, -, hack, hbytes, hnonce⟩ := getPort_earlyCodeword (s := u) (p := p) cw
      rw [if_neg (by simp), hack, hbytes, hnonce, hport]
      exact ⟨rfl, rfl, rfl⟩
    | true =>
      have hnot : identDue (getPort u p.val) cw.seq.val = false := hdue.trans (by simpa [hi] using h)
      rw [if_pos rfl, identCodeword_of_not_due hnot, hport]
      exact ⟨rfl, rfl, rfl⟩
  · obtain ⟨hnak, hseq, ho⟩ := identLost_answers (s := u) (p := p)
    simp only [hg]
    rw [if_neg (by simp), hseq, ho, hport, houts]
    exact ⟨hnak, rfl, rfl⟩

/-! ## Identity in a retrain (R278) -/

/-- A block in a retrain that is accepted: the digest and ordinal of before end it, another identity is a drop. -/
theorem identityBlock_of_retrain (hst : (getPort s p.val).st = .retrain) (htrain : (getPort s p.val).train = .identify)
    (hhold : (getPort s p.val).hold = false) (hlen : 4096 ≤ (getPort s p.val).idBytes.length) (hok : blockOk (getPort s p.val) = true) :
    Answers (.identityBlock p) s
      (if (peerOf (getPort s p.val).idBytes).digest = (getPort s p.val).peer.digest ∧
          (peerOf (getPort s p.val).idBytes).ordinal = (getPort s p.val).peer.ordinal then
        flushWaiting (endRetrain p.val (peerOf (getPort s p.val).idBytes) s)
       else lostPort p.val 4 s) := by
  simp only [Answers, exec, execIdentityBlock, inStage, hst, htrain, hhold, hok, Bool.not_true, Bool.false_eq_true, if_true, if_false]
  rw [if_neg (by simp [hlen])]
  split <;> rfl

end

/-- Settles O41: training by the candidate that comes next, the exchange of identities by what each kind of codeword and block leaves of the port. -/
theorem linkBringUp : Obligations.LinkBringUp := by
  unfold Obligations.LinkBringUp
  rintro s p x rfl
  refine ⟨signalDetect_answers, negotiateTimeout_answers, trainingFrame_shows,
    fun rxErrs txErrs hst _ => equalizeCandidateEnd_shows rxErrs txErrs hst, fun hst => ?_, fun hst htrain hhold hlen hok => ?_⟩
  · exact ⟨fun _ => identityBlock_shows hst, fun _ => identifyTimeout_shows hst, idHoldEnd_answers hst,
      fun cw => codewordReceive_ident_shows cw hst⟩
  · refine ⟨_, identityBlock_of_retrain hst htrain hhold hlen hok, fun hsame => ?_, fun hother => ?_⟩
    · rw [if_pos hsame]
      exact endRetrain_shows _
    · obtain ⟨hdown, hwhy, -, -, -, -, hevent⟩ := lostPort_dropped (s := s) (p := p) (why := 4) (by decide)
      rw [if_neg hother]
      exact ⟨hdown, hwhy, hevent⟩

end Sys2Proof.Machine

/-! OBLIGATION O42. A linked port in service. -/

namespace Sys2Proof.Machine

open Sys2Proof.Spec

section

variable {s : State} {p : Fin 16}

/-! ## Codewords that are received (R268) -/

theorem codewordReceive_of_bad {cw : Codeword} (hl : (getPort s p.val).linked) (hg : cw.good = false) : Answers (.codewordReceive p cw) s
    (sendCodeword p.val (modPort p.val (fun x => { x with nak := true }) (countCodeword p.val cw s))) := by
  rcases hl with h | h <;> simp [Answers, exec, execCodewordReceive, countCodeword, h, hg]

/-- A good codeword of either kind is taken. -/
def takeCodeword (p : Nat) (cw : Codeword) (s : State) : State := if cw.ident then identCodeword p cw s else acceptCodeword p cw s

/-- A good codeword is taken, and answered where the port is still linked. -/
theorem codewordReceive_of_good {cw : Codeword} (hl : (getPort s p.val).linked) (hg : cw.good = true) :
    ∃ t, Answers (.codewordReceive p cw) s t ∧
      (getPort t p.val).heard = (getPort (takeCodeword p.val cw (countCodeword p.val cw s)) p.val).heard := by
  have hans : Answers (.codewordReceive p cw) s
      (if (getPort (takeCodeword p.val cw (countCodeword p.val cw s)) p.val).st = .ready ∨
          (getPort (takeCodeword p.val cw (countCodeword p.val cw s)) p.val).st = .active then
        sendCodeword p.val (takeCodeword p.val cw (countCodeword p.val cw s))
       else takeCodeword p.val cw (countCodeword p.val cw s)) := by
    rcases hl with h | h <;> simp [Answers, exec, execCodewordReceive, countCodeword, takeCodeword, h, hg]
  refine ⟨_, hans, ?_⟩
  split
  · rw [sendCodeword_heard]
  · rfl

/-- What a linked port has heard once a codeword has come. -/
theorem codewordReceive_linked_shows (hl : (getPort s p.val).linked) (cw : Codeword) : ∃ t, Answers (.codewordReceive p cw) s t ∧
    (cw.good = true → cw.ident = false → cw.nak = false → cw.seq.val = ((getPort s p.val).ack + 1) % 512 →
      (getPort t p.val).ack = cw.seq.val ∧ (getPort t p.val).nak = false) ∧
    (cw.good = true → cw.ident = true → (getPort t p.val).ack = (getPort s p.val).ack ∧ (getPort t p.val).nak = (getPort s p.val).nak) ∧
    (cw.good = false → (getPort t p.val).nak = true ∧ (getPort t p.val).ack = (getPort s p.val).ack) := by
  obtain ⟨le, hport, -⟩ := countCodeword_shows (s := s) (p := p) cw
  cases hg : cw.good with
  | true =>
    obtain ⟨t, hans, hheard⟩ := codewordReceive_of_good hl hg
    refine ⟨t, hans, fun _ hi hnak hseq => ?_, fun _ hi => ?_, fun h => absurd h (by simp)⟩
    · have hlinked : (getPort (countCodeword p.val cw s) p.val).linked := by rwa [hport]
      rw [takeCodeword, if_neg (by simp [hi]), acceptCodeword_heard hlinked hnak (by rw [hport]; exact hseq)] at hheard
      exact Prod.mk.inj hheard
    · rw [takeCodeword, if_pos hi, identCodeword_heard, hport] at hheard
      exact Prod.mk.inj hheard
  | false =>
    have hheard := sendCodeword_heard (s := modPort p.val (fun x => { x with nak := true }) (countCodeword p.val cw s)) (p := p)
    rw [getPort_modPort, hport] at hheard
    obtain ⟨hack, hnak⟩ := Prod.mk.inj hheard
    exact ⟨_, codewordReceive_of_bad hl hg, by simp, by simp, fun _ => ⟨hnak, hack⟩⟩

/-! ## A receive lane is retired (R279, R280) -/

theorem laneErrorThreshold_answers (hl : (getPort s p.val).linked) (ht : laneThresh s ≠ 0) (lane : Fin 9) :
    Answers (.laneErrorThreshold p lane) s (retireLane p.val (laneAt (getPort s p.val).reversed lane.val) s) := by
  rcases hl with h | h <;> simp [Answers, exec, execLaneErrorThreshold, h, ht]

section

variable {L : Nat} (hgood : bit ((getPort s p.val).rx.goodAt (getPort s p.val).rate) L = true)
include hgood

theorem retireLane_of_spare (hout : (getPort s p.val).spareOut = none) (hact : bit (getPort s p.val).rx.active L = true)
    (hspare : (getPort s p.val).rx.spare.isSome = true) : retireLane p.val L s =
      setPort p.val { getPort s p.val with spareOut := some L, txQ := [controlUnit 1 L 0] :: (getPort s p.val).txQ } s := by
  obtain ⟨k, hk⟩ := Option.isSome_iff_exists.mp hspare
  have h : retireLane p.val L s = queueControl p.val (controlUnit 1 L 0) (setPort p.val { getPort s p.val with spareOut := some L } s) := by
    simp [retireLane, hgood, hout, hact, hk]
  rw [h, queueControl, modPort, setPort_setPort, getPort_setPort]

theorem retireLane_of_standing_by (hout : (getPort s p.val).spareOut = none) (hact : bit (getPort s p.val).rx.active L = false) :
    retireLane p.val L s = noteLane p.val true (laneAt (getPort s p.val).reversed L)
      (setPort p.val { getPort s p.val with rx := (getPort s p.val).rx.retire (getPort s p.val).rate L } s) := by
  simp [retireLane, hgood, hout, hact]

theorem retireLane_of_outstanding {j : Nat} (hout : (getPort s p.val).spareOut = some j) (hj : j ≠ L) (hq : L ∉ (getPort s p.val).spareQ) :
    retireLane p.val L s = setPort p.val { getPort s p.val with spareQ := (getPort s p.val).spareQ ++ [L] } s := by
  simp [retireLane, hgood, hout, hj, hq]

end

theorem eventSet_noteLane (rx : Bool) (lane : Nat) (s : State) : eventSet (noteLane p.val rx lane s) .port p.val 3 :=
  (mapAdd_portsKept _ (.refl _)).events _ _ _ (by decide) (eventSet_portEvent p.val _ s (by decide))

theorem eventSet_enterRetrain {e : Nat} (he : e < 32) (h : eventSet s .port p.val e) : eventSet (enterRetrain p.val s) .port p.val e := by
  unfold enterRetrain
  extract_lets x rxBad txBad rx tx entered
  split
  · have hentered : eventSet (sendFrames p.val entered) .port p.val e := eventSet_of_regs (s := s) rfl h
    have hcounted := countEvent_portsKept .port .port p.val 31 16 (off := 0xA0) (by decide) (.refl (sendFrames p.val entered))
    exact (portEvent_portsKept p.val 2 7 hcounted).events _ _ _ he hentered
  · exact h

/-- Without a spare the lane's retirement is recorded and the port retrains; what is queued then is the request that could not go before. -/
theorem retireLane_of_no_spare {L : Nat} (hl : (getPort s p.val).linked)
    (hgood : bit ((getPort s p.val).rx.goodAt (getPort s p.val).rate) L = true) (hout : (getPort s p.val).spareOut = none)
    (hact : bit (getPort s p.val).rx.active L = true) (hspare : (getPort s p.val).rx.spare = none) :
    (getPort (retireLane p.val L s) p.val).st = .retrain ∧ eventSet (retireLane p.val L s) .port p.val 3 := by
  have hsent : (getPort (flushControl p.val (controlUnit 1 L 0) 260 (queueControl p.val (controlUnit 1 L 0) s)) p.val).linked := by
    refine flushControl_linked _ _ ?_
    rw [getPort_queueControl]
    exact hl
  simp only [retireLane, hgood, hout, hact, hspare, Bool.not_true, Bool.false_eq_true, Option.isSome_none, if_false]
  generalize flushControl p.val (controlUnit 1 L 0) 260 (queueControl p.val (controlUnit 1 L 0) s) = u at hsent
  generalize hw : noteLane p.val true _ (modPort p.val _ u) = w
  have hlinked : (getPort w p.val).linked := by
    rw [← hw, getPort_noteLane, getPort_modPort]
    exact hsent
  have hevent : eventSet (enterRetrain p.val w) .port p.val 3 := eventSet_enterRetrain (by decide) (hw ▸ eventSet_noteLane ..)
  have hst := (enterRetrain_of_linked hlinked).1
  split
  · rw [getPort_queueControl]
    exact ⟨hst, eventSet_of_regs (modPort_regs ..) hevent⟩
  · exact ⟨hst, hevent⟩

theorem laneErrorThreshold_shows (hl : (getPort s p.val).linked) (lane : Fin 9) {L : Nat} (hL : L = laneAt (getPort s p.val).reversed lane.val)
    (ht : laneThresh s ≠ 0) (hgood : bit ((getPort s p.val).rx.goodAt (getPort s p.val).rate) L = true) :
    ((getPort s p.val).spareOut = none → bit (getPort s p.val).rx.active L = true → (getPort s p.val).rx.spare.isSome = true →
      Answers (.laneErrorThreshold p lane) s
        (setPort p.val { getPort s p.val with spareOut := some L, txQ := [controlUnit 1 L 0] :: (getPort s p.val).txQ } s)) ∧
    ((getPort s p.val).spareOut = none → bit (getPort s p.val).rx.active L = true → (getPort s p.val).rx.spare = none →
      ∃ t, Answers (.laneErrorThreshold p lane) s t ∧ (getPort t p.val).st = .retrain ∧ eventSet t .port p.val 3) ∧
    ((getPort s p.val).spareOut = none → bit (getPort s p.val).rx.active L = false →
      ∃ t, Answers (.laneErrorThreshold p lane) s t ∧ (getPort t p.val).rx = (getPort s p.val).rx.retire (getPort s p.val).rate L ∧
        (getPort t p.val).txQ = (getPort s p.val).txQ ∧ (getPort t p.val).st = (getPort s p.val).st ∧ eventSet t .port p.val 3) ∧
    (∀ j, (getPort s p.val).spareOut = some j → j ≠ L → L ∉ (getPort s p.val).spareQ →
      Answers (.laneErrorThreshold p lane) s
        (setPort p.val { getPort s p.val with spareQ := (getPort s p.val).spareQ ++ [L] } s)) := by
  have hans := laneErrorThreshold_answers hl ht lane
  rw [← hL] at hans
  refine ⟨fun hout hact hspare => ?_, fun hout hact hspare => ?_, fun hout hact => ?_, fun j hout hj hq => ?_⟩
  · exact retireLane_of_spare hgood hout hact hspare ▸ hans
  · exact ⟨_, hans, retireLane_of_no_spare hl hgood hout hact hspare⟩
  · refine ⟨_, retireLane_of_standing_by hgood hout hact ▸ hans, ?_⟩
    rw [getPort_noteLane, getPort_setPort]
    exact ⟨rfl, rfl, rfl, eventSet_noteLane ..⟩
  · exact retireLane_of_outstanding hgood hout hj hq ▸ hans

/-! ## The partner retires a lane of this direction (R279) -/

theorem txSwitch_eq_none_of_txSparing {x : Port} (h : txSparing x = []) : x.txSwitch = none := by
  simpa [txSparing] using (List.append_eq_nil_iff.mp h).2

theorem spareReq_shows (hl : (getPort s p.val).linked) (lane : Fin 9) (hact : bit (getPort s p.val).tx.active lane.val = true)
    (hfree : txSparing (getPort s p.val) = []) :
    ∃ t, Answers (.spareReq p lane) s t ∧ eventSet t .port p.val 3 ∧
      ((getPort s p.val).tx.spare.isSome = true → (getPort t p.val).txSwitch = none ∧ (getPort t p.val).st = (getPort s p.val).st ∧
        (getPort t p.val).txQ = [controlUnit 2 lane.val 0] :: (getPort s p.val).txQ) ∧
      ((getPort s p.val).tx.spare = none → (getPort t p.val).st = .retrain) := by
  have hevent := eventSet_noteLane (p := p) false lane.val s
  have hnone := txSwitch_eq_none_of_txSparing hfree
  cases hspare : (getPort s p.val).tx.spare with
  | some k =>
    refine ⟨queueControl p.val (controlUnit 2 lane.val 0) (noteLane p.val false lane.val s), ?_,
      eventSet_of_regs (modPort_regs ..) hevent, fun _ => ?_, nofun⟩
    · rcases hl with h | h <;> simp [Answers, exec, execSpareReq, h, hact, hfree, hspare]
    · rw [getPort_queueControl, getPort_noteLane]
      exact ⟨hnone, rfl, rfl⟩
  | none =>
    refine ⟨enterRetrain p.val (modPort p.val (fun x => { x with tx := { x.tx with bad := x.tx.bad ||| 2 ^ lane.val } })
      (noteLane p.val false lane.val s)), ?_, eventSet_enterRetrain (by decide) (eventSet_of_regs (modPort_regs ..) hevent),
      nofun, fun _ => (enterRetrain_of_linked ?_).1⟩
    · rcases hl with h | h <;> simp [Answers, exec, execSpareReq, h, hact, hfree, hspare]
    · rw [getPort_modPort, getPort_noteLane]
      exact hl

/-! ## The answer leaves (R279, log 50) -/

/-- A SPARE_ACK that waits is one, and bits 143:136 name its lane. -/
theorem controlUnit_ack (lane : Fin 9) :
    isAck (controlUnit 2 lane.val 0) = true ∧ bits (controlUnit 2 lane.val 0).toNat 143 136 = lane.val := by
  decide +kernel +revert

/-- Where no packet that waits is a SPARE_ACK, the units of a codeword name no switch. -/
theorem fillUnits_txSwitch (n : Nat) (x : Port) (h : ∀ k ∈ x.txQ, ∀ u ∈ k.head?, isAck u = false) :
    (fillUnits n x).2.txSwitch = x.txSwitch := by
  fun_induction fillUnits with
  | case1 => rfl
  | case2 n x u t _ us y hfill ih =>
    rw [hfill] at ih
    exact ih h
  | case3 n x _ _ us y hfill ih =>
    rw [hfill] at ih
    exact ih h
  | case4 n x _ q hq _ ih => exact ih fun k hk => h k (by simp [hq, hk])
  | case5 n x _ q u t h' x' hname us y hq _ hfill ih =>
    have hu : isAck u = false := h (u :: t) (by simp [hq]) u (by simp)
    have hx : x' = x := by simpa [nameSwitch, hu, eq_comm] using congrArg Prod.snd hname
    subst hx
    exact ih fun k hk => h k (by simp [hq, hk])
  | case6 n x _ pkt q hq _ us y hfill ih =>
    rw [hfill] at ih
    exact ih h

/-- A SPARE_ACK is the next packet: its unit leads the codeword and names the switch, and the rest of the codeword names no other. -/
theorem fillUnits_of_ack {x : Port} {lane : Fin 9} {q : List (List LinkUnit)} (n : Nat) (hq : x.txQ = [controlUnit 2 lane.val 0] :: q)
    (hrest : ∀ k ∈ q, ∀ u ∈ k.head?, isAck u = false) (hpart : x.txPart = []) (hcredit : 1 ≤ x.credit) :
    (fillUnits (n + 1) x).1.head? = some (withCredit x.owed (controlUnit 2 lane.val ((x.seq + 8) % 512))) ∧
    (fillUnits (n + 1) x).2.txSwitch = some (lane.val, (x.seq + 8) % 512) := by
  obtain ⟨hack, hlane⟩ := controlUnit_ack lane
  have hname : nameSwitch x (controlUnit 2 lane.val 0) = (controlUnit 2 lane.val ((x.seq + 8) % 512),
      { x with txSwitch := some (lane.val, (x.seq + 8) % 512) }) := by
    simp [nameSwitch, hack, hlane]
  have hlen : [controlUnit 2 lane.val 0].length ≤ x.credit := hcredit
  unfold fillUnits
  simp only [hpart, hq, hlen, hname, if_true]
  exact ⟨rfl, fillUnits_txSwitch _ _ hrest⟩

@[simp] theorem sparePattern_self (k : Nat) (spare : Option Nat) : sparePattern k spare spare s = s := by
  cases spare <;> simp [sparePattern]

/-- A new codeword leaves where none is to be resent, the window is open and no switch is due. -/
theorem sendCodeword_new (hresend : (getPort s p.val).resend = 0) (hlen : (getPort s p.val).replayBuf.length < 256)
    (hsw : (getPort s p.val).txSwitch = none) :
    (getPort (sendCodeword p.val s) p.val).seq = ((getPort s p.val).seq + 1) % 512 ∧
    (getPort (sendCodeword p.val s) p.val).txSwitch = (fillUnits 10 (getPort s p.val)).2.txSwitch ∧
    (sendCodeword p.val s).outs = .link p.val (getPort s p.val).seq (getPort s p.val).ack (getPort s p.val).nak
      (fillUnits 10 (getPort s p.val)).1 (getPort s p.val).tx.active :: s.outs := by
  have hnow : txSwitchNow (getPort s p.val) = getPort s p.val := by simp [txSwitchNow, hsw]
  unfold sendCodeword
  simp only [hresend, hlen, hnow, Nat.lt_irrefl, if_true, if_false, sparePattern_self]
  exact ⟨by simp, by simp, by simp⟩

theorem codewordReceive_answers_ack (hl : (getPort s p.val).linked) (lane : Fin 9) (q : List (List LinkUnit)) (cw : Codeword)
    (hq : (getPort s p.val).txQ = [controlUnit 2 lane.val 0] :: q) (hrest : ∀ k ∈ q, ∀ u ∈ k.head?, isAck u = false)
    (hpart : (getPort s p.val).txPart = []) (hsw : (getPort s p.val).txSwitch = none) (hresend : (getPort s p.val).resend = 0)
    (hlen : (getPort s p.val).replayBuf.length < 256) (hcredit : 1 ≤ (getPort s p.val).credit) (hg : cw.good = false) :
    ∃ t us, Answers (.codewordReceive p cw) s t ∧ (getPort t p.val).txSwitch = some (lane.val, ((getPort s p.val).seq + 8) % 512) ∧
      (getPort t p.val).seq = ((getPort s p.val).seq + 1) % 512 ∧
      t.outs.head? = some (.link p.val (getPort s p.val).seq (getPort s p.val).ack true us (getPort s p.val).tx.active) ∧
      us.head? = some (withCredit (getPort s p.val).owed (controlUnit 2 lane.val (((getPort s p.val).seq + 8) % 512))) := by
  obtain ⟨le, hport, -⟩ := countCodeword_shows (s := s) (p := p) cw
  have hans := codewordReceive_of_bad hl hg
  have hsent : getPort (modPort p.val (fun x => { x with nak := true }) (countCodeword p.val cw s)) p.val =
      { getPort s p.val with laneErr := le, nak := true } := by rw [getPort_modPort, hport]
  generalize modPort p.val (fun x => { x with nak := true }) (countCodeword p.val cw s) = u at *
  obtain ⟨hseq, hswitch, houts⟩ := sendCodeword_new (s := u) (p := p) (by rw [hsent]; exact hresend) (by rw [hsent]; exact hlen)
    (by rw [hsent]; exact hsw)
  obtain ⟨hhead, hnamed⟩ := fillUnits_of_ack (x := getPort u p.val) 9 (by rw [hsent]; exact hq) hrest (by rw [hsent]; exact hpart)
    (by rw [hsent]; exact hcredit)
  refine ⟨_, (fillUnits 10 (getPort u p.val)).1, hans, ?_, ?_, ?_, ?_⟩
  · rw [hswitch, hnamed, hsent]
  · rw [hseq, hsent]
  · rw [houts, hsent]
    rfl
  · rw [hhead, hsent]

/-! ## The partner answers (R279) -/

theorem spareAck_answers (hl : (getPort s p.val).linked) {lane : Fin 9} (sw : Fin 512) (hout : (getPort s p.val).spareOut = some lane.val)
    (hsw : (getPort s p.val).rxSwitch = none) : Answers (.spareAck p lane sw) s (noteLane p.val true (laneAt (getPort s p.val).reversed lane.val)
      (rxSwitchNow p.val (setPort p.val { getPort s p.val with rxSwitch := some (lane.val, sw.val) } s))) := by
  rcases hl with h | h <;> simp [Answers, exec, execSpareAck, h, hout, hsw]

theorem getPort_rxSwitchNow {lane at_ : Nat} (h : (getPort s p.val).rxSwitch = some (lane, at_)) : getPort (rxSwitchNow p.val s) p.val =
    if ((getPort s p.val).ack + 1) % 512 = at_ then
      { getPort s p.val with rx := (getPort s p.val).rx.retire (getPort s p.val).rate lane, rxSwitch := none, spareOut := none }
    else getPort s p.val := by
  simp only [rxSwitchNow, h]
  split
  · exact getPort_setPort ..
  · rfl

theorem spareAck_shows (hl : (getPort s p.val).linked) (lane : Fin 9) (sw : Fin 512) (hout : (getPort s p.val).spareOut = some lane.val)
    (hsw : (getPort s p.val).rxSwitch = none) :
    ∃ t, Answers (.spareAck p lane sw) s t ∧ eventSet t .port p.val 3 ∧
      (((getPort s p.val).ack + 1) % 512 ≠ sw.val →
        (getPort t p.val).rxSwitch = some (lane.val, sw.val) ∧ (getPort t p.val).rx = (getPort s p.val).rx) ∧
      (((getPort s p.val).ack + 1) % 512 = sw.val →
        (getPort t p.val).rxSwitch = none ∧ (getPort t p.val).rx = (getPort s p.val).rx.retire (getPort s p.val).rate lane.val) := by
  have hport := getPort_rxSwitchNow (s := setPort p.val { getPort s p.val with rxSwitch := some (lane.val, sw.val) } s) (p := p)
    (congrArg Port.rxSwitch (getPort_setPort ..))
  rw [getPort_setPort] at hport
  refine ⟨_, spareAck_answers hl sw hout hsw, eventSet_noteLane .., fun hlater => ?_, fun hdue => ?_⟩
  · rw [getPort_noteLane, hport, if_neg hlater]
    exact ⟨rfl, rfl⟩
  · rw [getPort_noteLane, hport, if_pos hdue]
    exact ⟨rfl, rfl⟩

end

/-- Settles O42: what has been heard through every operation of a codeword, and the retirement of a lane by who asks and whether a spare stands by. -/
theorem linkService : Obligations.LinkService := by
  unfold Obligations.LinkService
  rintro s p x rfl hl
  exact ⟨codewordReceive_linked_shows hl, fun lane L hL => laneErrorThreshold_shows hl lane hL, spareReq_shows hl,
    codewordReceive_answers_ack hl, spareAck_shows hl⟩

end Sys2Proof.Machine
